-- ==== Sys2Proof/Word.lean ====
section
/-!
DEFINITION. The word types of the machine (R4: bit 0 is the least significant bit, multi-byte values are
little-endian, signed integers are two's complement).
-/
namespace Sys2Proof

/-- A register of the setup space, a core register, a context word, a map entry (R37, R229, R140, R214). -/
abbrev Word := BitVec 32

/-- The smallest addressable unit of memory. -/
abbrev Byte := BitVec 8

/-- A halfword. -/
abbrev Half := BitVec 16

/-- A syllable of program memory (R340). -/
abbrev Syl := BitVec 14

/-- A microword (R167). -/
abbrev MicroWord := BitVec 144

/-- A waybill: sixteen 32-bit words, word 0 in the low bits (R380). -/
abbrev Waybill := BitVec 512

end Sys2Proof
end

