-- ==== Sys2Proof/Machine/Fel.lean ====
section
/-!
DEFINITION. The Felrad-14 instruction as the cores decode it from program memory (R253–R257), grouped by encoding format.
-/
namespace Sys2Proof.Machine

/-- Opcodes 0x01–0x0F and 0x11–0x1D: one syllable, wd and ws (R253, R254). -/
inductive R2
  | mov | add | adc | sub | sbc | and_ | or_ | xor_ | andn | cmp | tst | shl | shr | asr | ror
  | mul | mulhs | mulhu | mulq | div | divu | mac0 | mac1 | msu0 | msu1 | mfs | mts | pmwr
  deriving DecidableEq, Repr, Inhabited

/-- UNARY, by ws (R255). -/
inductive U1 | neg | not_ | abs | sexb | sexh | zexb | zexh | clz | bswap
  deriving DecidableEq, Repr, Inhabited

/-- MISC operations without an operand, by wd (R255). -/
inductive M0 | nop | pmsync | retx | ret | ei | di | brk | wfi | fence
  deriving DecidableEq, Repr, Inhabited

/-- Opcodes 0x22–0x25: wd, ws and an immediate. -/
inductive Im | addi | andi | ori | xori
  deriving DecidableEq, Repr, Inhabited

/-- Opcodes 0x28–0x2F and 0x33–0x35: register + displacement (R236). -/
inductive Rd | ldw | ldh | ldhu | ldb | ldbu | stw | sth | stb | ldrsv | stcnd | tas
  deriving DecidableEq, Repr, Inhabited

/-- Opcodes 0x30–0x32: banked direct. -/
inductive Dd | ldd | lddu | std
  deriving DecidableEq, Repr, Inhabited

/-- A Felrad-14 instruction. -/
inductive Fel
  | r2 (op : R2) (d s : Fin 16)
  | u1 (op : U1) (d : Fin 16)
  | m0 (op : M0)
  | spill (b : Fin 16)
  | fill (b : Fin 16)
  | rptW (n : Fin 16)
  | jmp (n : Fin 16)
  | call (n : Fin 16)
  | trap (n : Fin 64)
  | movi (d : Fin 16) (v : BitVec 18)
  | movsh (d : Fin 16) (x : Syl)
  | im (op : Im) (d s : Fin 16) (x : Syl)
  | cmpi (d : Fin 16) (x : Syl)
  | shi (d s : Fin 16) (kind : Fin 4) (amt : Fin 64)
  | rd (op : Rd) (d b : Fin 16) (x : Syl)
  | dd (op : Dd) (d : Fin 16) (size db : Fin 4) (x : Syl)
  | bcc (cond : Fin 16) (off : BitVec 18)
  | jmpa (t : BitVec 22)
  | calla (t : BitVec 22)
  | callr (off : BitVec 18)
  | rptN (n : Syl)
  | loop (wc : Fin 16) (len : Fin 64)
  | mfb (d s : Fin 16) (b : Fin 8) (sp : Bool)
  | mtb (d s : Fin 16) (b : Fin 8) (sp : Bool)
  deriving DecidableEq, Repr, Inhabited

/-- Length in syllables (R229). -/
def Fel.len : Fel → Nat
  | .r2 .. | .u1 .. | .m0 .. | .spill .. | .fill .. | .rptW .. | .jmp .. | .call .. | .trap .. => 1
  | _ => 2

/-- What R257 does not call illegal: even pairs, banks 0–4, conditions, sizes. -/
def Fel.legal : Fel → Bool
  | .r2 op d _ => match op with | .div | .divu | .pmwr => d.val % 2 == 0 | _ => true
  | .spill b | .fill b => decide (b.val ≤ 4)
  | .dd op _ size _ _ => match op with | .lddu => size.val == 1 || size.val == 2 | _ => size.val != 3
  | .bcc c _ => c.val != 15
  | .mfb _ s b sp | .mtb _ s b sp => decide (b.val ≤ 4) && (! sp || s.val == 0)
  | _ => true

/-- What the lamplighter executes (R258): no multiply, divide or accumulate, LOOP, PMWR, PMSYNC, MFB, MTB, SPILL, FILL, and
no special register 7–10 or 15. -/
def Fel.lampOk : Fel → Bool
  | .r2 op d s => match op with
    | .mul | .mulhs | .mulhu | .mulq | .div | .divu | .mac0 | .mac1 | .msu0 | .msu1 | .pmwr => false
    | .mfs => ! (decide (7 ≤ s.val ∧ s.val ≤ 10) || s.val == 15)
    | .mts => ! (decide (7 ≤ d.val ∧ d.val ≤ 10) || d.val == 15)
    | _ => true
  | .m0 op => op != .pmsync
  | .loop .. | .mfb .. | .mtb .. | .spill .. | .fill .. => false
  | _ => true

/-- What RPT may not repeat (R247). -/
def Fel.noRepeat : Fel → Bool
  | .rptN .. | .rptW .. | .loop .. | .bcc .. | .jmpa .. | .calla .. | .callr .. | .jmp .. | .call .. | .trap .. | .spill ..
  | .fill .. => true
  | .r2 op _ _ => op == .pmwr
  | .m0 op => match op with | .retx | .ret | .pmsync | .wfi | .brk => true | _ => false
  | _ => false

/-- What a LOOP body may not hold (R251): RPT is allowed. -/
def Fel.noLoop : Fel → Bool
  | .rptN .. | .rptW .. => false
  | i => i.noRepeat

/-- The registers of the current bank that an instruction writes (R251); `cur` the current bank, for MTB. -/
def Fel.writes (cur : Nat) : Fel → List Nat
  | .r2 op d _ => match op with
    | .cmp | .tst | .mac0 | .mac1 | .msu0 | .msu1 | .mts | .pmwr => []
    | .div | .divu => [d.val, d.val + 1]
    | _ => [d.val]
  | .u1 _ d => [d.val]
  | .movi d _ | .movsh d _ | .im _ d _ _ | .shi d _ _ _ | .mfb d _ _ _ => [d.val]
  | .rd op d _ _ => match op with | .stw | .sth | .stb | .stcnd => [] | _ => [d.val]
  | .dd op d _ _ _ => match op with | .std => [] | _ => [d.val]
  | .mtb _ s b sp => if b.val = cur ∧ ! sp then [s.val] else []
  | _ => []

end Sys2Proof.Machine
end

