-- ==== Sys2Proof/Machine/Sparse.lean ====
section
/-!
DEFINITION. Sparse storage: a list of (key, value) pairs in one canonical form (keys strictly rising, no entry equal
to what an unlisted key reads as), so that equal contents are equal data.  `d` gives what an unlisted key reads as.
-/
namespace Sys2Proof.Machine

/-- Sparse storage keyed by natural numbers. -/
abbrev Sparse (α : Type) := List (Nat × α)

/-- The value at key `k`. -/
def Sparse.get {α : Type} (d : Nat → α) : Sparse α → Nat → α
  | [], k => d k
  | (j, v) :: m, k => if k = j then v else Sparse.get d m k

/-- The storage without the keys that `p` names (they read as unlisted). -/
def Sparse.drop {α : Type} (p : Nat → Bool) (m : Sparse α) : Sparse α :=
  m.filter (fun e => ! p e.1)

/-- An entry put in its place by key. -/
def Sparse.insert {α : Type} (k : Nat) (v : α) : Sparse α → Sparse α
  | [] => [(k, v)]
  | (j, w) :: m => if k < j then (k, v) :: (j, w) :: m else (j, w) :: Sparse.insert k v m

/-- The storage with `v` at key `k`: an entry that equals what the key reads as unlisted is left out. -/
def Sparse.set {α : Type} [DecidableEq α] (d : Nat → α) (m : Sparse α) (k : Nat) (v : α) : Sparse α :=
  if v = d k then Sparse.drop (fun j => j == k) m else Sparse.insert k v (Sparse.drop (fun j => j == k) m)

/-- Every key is above `lo`, keys rise strictly, and no entry equals its default. -/
def Sparse.wfFrom {α : Type} [DecidableEq α] (d : Nat → α) : Option Nat → Sparse α → Bool
  | _, [] => true
  | lo, (k, v) :: m =>
    (match lo with
      | none => true
      | some l => decide (l < k)) && decide (v ≠ d k) && Sparse.wfFrom d (some k) m

/-- The canonical form. -/
def Sparse.wf {α : Type} [DecidableEq α] (d : Nat → α) (m : Sparse α) : Bool :=
  Sparse.wfFrom d none m

/-- Every listed value changed by `f`, in canonical form (`f` keeps defaults). -/
def Sparse.mapv {α : Type} [DecidableEq α] (d : Nat → α) (f : α → α) (m : Sparse α) : Sparse α :=
  (m.map (fun e => (e.1, f e.2))).filter (fun e => decide (e.2 ≠ d e.1))

/-- A memory of bytes: what no store has written, and every byte that holds 0, is unlisted and reads 0 (assumption 6). -/
abbrev Memory := Sparse Byte

/-- The canonical form of a memory: addresses strictly rising, no byte listed that an unlisted address reads as. -/
def Memory.wf (m : Memory) : Bool := Sparse.wf (fun _ => 0) m

end Sys2Proof.Machine
end

