-- ==== Sys2Proof/Machine/StCore.lean ====
section
/-!
DEFINITION. Plain-data records of the Felrad cores and the lamplighter (R228–R252, R291, R300), of the tandem (R306,
R312), and of the yards and the nonvolatile memory (R329, R333, R337).
-/
namespace Sys2Proof.Machine

/-- The processors that execute Felrad-14: cores A and B, and the lamplighter. -/
inductive Who | a | b | lamp
  deriving DecidableEq, Repr, Inhabited

/-- One shadow bank (R232): sixteen work registers, SP, and the pair an entry saves into. -/
structure Bank where
  w : Sparse Word := []
  sp : Word := 0
  xpc : Word := 0
  xst : Word := 0
  deriving DecidableEq, Repr, Inhabited

/-- How a load extends what it reads (R273). -/
inductive Ext | word | half | halfU | byte | byteU
  deriving DecidableEq, Repr, Inhabited

/-- A near load whose target is not written yet (R237): the bank and register, the value once it has arrived, and
whether its delay slot has completed. -/
structure NearLoad where
  bank : Nat
  rd : Nat
  val : Option Word
  slotDone : Bool := false
  deriving DecidableEq, Repr, Inhabited

/-- What a core waits for (R238, R244, R275, R283). -/
inductive Wait
  | none
  | wfi
  | fence
  | pmsync
  /-- a far load, LDRSV or TAS: kind 0, 1, 2 -/
  | farLoad (kind bank rd addr : Nat) (ext : Ext)
  /-- a far store, or the store of an STCND -/
  | farStore (addr : Nat) (bytes : List Byte) (cnd : Bool)
  deriving DecidableEq, Repr, Inhabited

/-- A processor. STAT resets to 0x0000_1000 (R234). -/
structure CoreSt where
  banks : Sparse Bank := []
  bk : Nat := 0
  pc : Nat := 0
  stat : Word := 0x1000
  vtb : Word := 0
  db : Sparse Word := []
  a0 : BitVec 64 := 0
  a1 : BitVec 64 := 0
  sfloor : Word := 0
  ls : Word := 0
  /-- the reserved 64-byte granule (R276) -/
  resv : Option Nat := none
  /-- near loads in their slot (R237) -/
  loads : List NearLoad := []
  /-- what the core waits for (R297) -/
  wait : Wait := .none
  /-- DT at which the far access that it waits for began (R372) -/
  farAt : Nat := 0
  /-- no interrupt point before the next instruction: the last one was DI, or a store waits for room in the NV queue (R297) -/
  noPoint : Bool := false
  /-- a held-write stall since this DT (R314) -/
  hwSince : Option Nat := none
  /-- the core has been started, and has not stopped or been halted (R293, R315, R484) -/
  run : Bool := false
  /-- halted by the debugger since this DT (R484) -/
  dbgHalt : Bool := false
  haltAt : Nat := 0
  /-- the program-memory write in flight: line address, its four syllables, DT of its start; held while none (R242, R312) -/
  pmwr : Option (Nat × List Syl × Option Nat) := none
  /-- the old-line buffer (R243) -/
  oldLines : List (Nat × List Syl) := []
  /-- lines that the other core has written since they were cached here, as the cache holds them (R245, R306) -/
  stale : List (Nat × List Syl) := []
  /-- the loop buffer: the body's first syllable address, and the body (R250, R307) -/
  loopBuf : Option (Nat × List Syl) := none
  /-- tags of the instruction cache by set, the last used first (R306) -/
  icache : Sparse (List Nat) := []
  /-- DT of the last watchdog kick (R320) -/
  kickAt : Nat := 0
  deriving DecidableEq, Repr, Inhabited

/-- A write in the held-write buffer (R312): the DT of its entry. -/
inductive HeldWr
  | store (at_ addr : Nat) (bytes : List Byte)
  | pmwr (at_ : Nat)
  deriving DecidableEq, Repr, Inhabited

/-- A handover that is under way (R329). -/
structure Handover where
  new : Nat
  zero : Bool
  forced : Bool
  at_ : Nat
  deriving DecidableEq, Repr, Inhabited

/-- A line write of the NV write controller (R337): bytes by address, and the cores whose stores it holds; or the identity index
that the security block writes (R480). -/
structure NvEntry where
  guard : Bool
  line : Nat
  bytes : List (Nat × Byte)
  /-- the cores whose stores it holds (R283) -/
  cores : List Who := []
  /-- it is the index line of the identity key (R480) -/
  idx : Option Nat := none
  deriving DecidableEq, Repr, Inhabited

/-- The tandem, the yards and the nonvolatile memories beside their registers. -/
structure MemHid where
  /-- the held-write buffer, and the start of the present signature window (R310, R312) -/
  held : List HeldWr := []
  winStart : Nat := 0
  /-- how far that window had come when the cores lost their clock: it is counted in core cycles (R310, R432) -/
  winPos : Option Nat := none
  /-- next pattern of the in-service comparator check (R316) -/
  pattern : Nat := 0
  /-- DT of a tandem-only reset whose first instruction has not issued (R321) -/
  tdReset : Option Nat := none
  /-- the newest entries of the shadow contexts, which the cores hold, newest first (R300, R301) -/
  ssCtx : Sparse (List Nat) := []
  /-- the older entries, which lie in the shadow region: position of the oldest, and their number (R301) -/
  ssDeep : Sparse (Nat × Nat) := []
  /-- handovers under way, by yard (R329) -/
  hand : Sparse (Option Handover) := []
  /-- window under test and the DT of its save; DT of the next window's start (R333) -/
  ydWin : Option Nat := none
  ydNext : Nat := 0
  /-- yards whose spare window is in use, and failing windows that stay in place (R335) -/
  ydSpared : Sparse Nat := []
  /-- stores that wait for the NV array (R337) -/
  nvQ : List NvEntry := []
  /-- the line write under way and its end (R337) -/
  nvRun : Option (NvEntry × Nat) := none
  /-- wear of the NV lines (R338) -/
  nvWear : Sparse Nat := []
  /-- wear of the program-memory lines (R340) -/
  pmWear : Sparse Nat := []
  /-- next line of the program-memory scrubber (R340) -/
  scrub : Nat := 0
  deriving DecidableEq, Repr, Inhabited

end Sys2Proof.Machine
end

