-- ==== Sys2Proof/Machine/Operands.lean ====
section
/-!
DEFINITION. Operands that commands carry from outside the block: outcomes of its physical checks and upsets of its
memories and units, which the manual lets happen and does not compute.
-/
namespace Sys2Proof.Machine

/-- Outcomes of the start-up checks (R459, R462, R468): an uncorrectable OTP row, the logic and memory self-tests, the
comparator injection test, the ROM check, and programming of the OTP; with them the levels of VSEL0–VSEL11 (bit b: 5.0 V)
and of TESTEN at their sampling (R493, R494). -/
structure StartOut where
  otpBad : Bool
  logicOk : Bool
  memOk : Bool
  injOk : Bool
  romOk : Bool
  progBad : Bool
  vsel : BitVec 12
  testen : Bool
  /-- an upset that a read of the NV yard during start-up meets: the 64-bit word, and whether it is uncorrectable (R332) -/
  nvUp : Option (BitVec 17 × Bool) := none
  deriving DecidableEq, Repr, Inhabited

/-- Where a Felrad instruction executes, and what its accesses meet: a parity error in a register that it reads, of its core
(`par`) and, in tandem, of core B (`parB`, R308); and the upsets of the vector-table entry, if it takes an exception (`tbl`:
1 one bit, 2 more, R294). -/
structure Exe where
  who : Who
  par : Bool := false
  parB : Bool := false
  tbl : Fin 3 := 0
  deriving DecidableEq, Repr, Inhabited

/-- A processor at which something arrives, and the upsets of the vector-table entry if it takes an exception (R294). -/
structure At where
  who : Who
  tbl : Fin 3 := 0
  deriving DecidableEq, Repr, Inhabited

/-- Far memory's answer to the store of a processor: an acknowledgement, or an error (R274). -/
structure FarAck where
  who : Who
  err : Bool := false
  tbl : Fin 3 := 0
  deriving DecidableEq, Repr, Inhabited

/-- What the SECDED of BG4's mirror meets as BG4 adopts channels (R159, R160): the number of words with a single-bit error, and
whether one has a double-bit error. -/
structure MirrorErr where
  one : Nat
  two : Bool
  deriving DecidableEq, Repr, Inhabited

/-- What the fetch of a waybill meets: whether the read of host memory succeeded, and upsets of the staging yard (R332, R387). -/
structure FetchIn where
  ok : Bool
  up : Fin 3 := 0
  deriving DecidableEq, Repr, Inhabited

/-- A single upset during a microword (R157, R223, R332): none, a residue or control-store parity error, and single- or
double-bit errors of the context, the map cache and a yard. -/
inductive Upset | none | residue | parity | ctx1 | ctx2 | map1 | map2 | yard1 | yard2
  deriving DecidableEq, Repr, Inhabited

end Sys2Proof.Machine
end

