-- ==== Sys2Proof/Machine/StField.lean ====
section
/-!
DEFINITION. Plain-data records of the hidden state that the manual gives the tracks, the timetable, the sense chain,
the PWM units, the brake path and the general counters, beside their registers.  Every field has the value it has
after reset as its default.
-/
namespace Sys2Proof.Machine

/-- Who makes a setup-space access (R33, R40, R62, R360, R437, R484). -/
inductive Master | coreA | coreB | host | lamp | debug
  deriving DecidableEq, Repr, Inhabited

/-- The requesters that own a read latch (R62, R87, R360): a debug access is a core access of the pair. -/
def Master.latchNo : Master → Nat
  | .coreA => 0 | .coreB => 1 | .host => 2 | .lamp => 3 | .debug => 0

/-- A wake source becomes true (R436): its bit, and for source 9 the GPA pin that has the edge. -/
structure WakeEvent where
  src : Fin 16
  pin : Fin 8 := 0
  deriving DecidableEq, Repr, Inhabited

/-- What a pin filter sees: the level of the newest field-clock sample, and how many consecutive samples have shown it, up
to 255 (R63, R347). -/
structure PinSample where
  level : Bool
  held : BitVec 8
  deriving DecidableEq, Repr, Inhabited

/-- The filtered level (R347): it follows the sampled level once this has held for `filt` consecutive samples. -/
def PinSample.filtered (p : PinSample) (filt : Nat) (old : Bool) : Bool := if filt ≤ p.held.toNat then p.level else old

/-- The pins of a Hall set (R63). -/
structure HallSample where
  u : PinSample
  v : PinSample
  w : PinSample
  deriving DecidableEq, Repr, Inhabited

/-- The filtered state UVW, each pin through its own filter; U is bit 2. -/
def HallSample.filtered (p : HallSample) (filt old : Nat) : Nat :=
  4 * (p.u.filtered filt (old.testBit 2)).toNat + 2 * (p.v.filtered filt (old.testBit 1)).toNat
    + (p.w.filtered filt (old.testBit 0)).toNat

/-- Edge intervals of a QE or HL front end (R508). -/
structure EdgeTimer where
  /-- time stamp of the edge that begins the next usable interval -/
  last : Option Nat := none
  /-- usable intervals in ns, newest first, at most 8 -/
  ivals : List Nat := []
  /-- consecutive legal edges since the last loss condition -/
  cnt : Nat := 0
  /-- direction of the last legal edge -/
  rev : Bool := false
  /-- time of the last loss condition: edges stamped before it count for no interval and no recovery (R47, R508) -/
  since : Nat := 0
  deriving DecidableEq, Repr, Inhabited

/-- What a track held before one of its updates: it stood from DT `t` on. -/
structure TrkPt where
  /-- an earlier update of a track (R171) -/
  t : Nat
  ang : Nat
  held : Option Nat
  spd : Nat
  acc : Int
  rev : Bool
  deriving DecidableEq, Repr, Inhabited

/-- A track beside its registers (R43): angles and speeds are 32.32 fixed point. -/
structure TrkHid where
  t : Nat := 0
  ang : Nat := 0
  held : Option Nat := none
  spd : Nat := 0
  acc : Int := 0
  /-- earlier updates, newest first, as far back as an instant still to be read may lie (R171) -/
  past : List TrkPt := []
  /-- edge timer of the control die (R508) -/
  tm : EdgeTimer := {}
  /-- DT of the last edge, or of the enable: the stall time counts from it (R48) -/
  lastEdge : Nat := 0
  /-- DT of the last track write (R46) -/
  lastWr : Nat := 0
  /-- the field die's own estimate (R49) -/
  fSpd : Nat := 0
  fVal : Bool := false
  fTm : EdgeTimer := {}
  deriving DecidableEq, Repr, Inhabited

/-- Filtered levels of the encoder pins QEn_A, QEn_B, QEn_Z (R44, R63, R508). -/
structure QeIn where
  a : Bool := false
  b : Bool := false
  z : Bool := false
  deriving DecidableEq, Repr, Inhabited

/-- A committed firing (R53, R54): `rev` is the direction at the prediction that committed it. -/
structure TtCommit where
  dt : Nat
  eu : Nat
  rev : Bool
  tgt : Nat
  act : Nat
  dest : Nat
  arg : Nat
  trk : Nat
  tok : Nat
  deriving DecidableEq, Repr, Inhabited

/-- A timetable entry beside its registers (R51–R59). Instants are in EU. -/
structure TtHid where
  k : Int := 0
  pred : Option Nat := none
  commit : Option TtCommit := none
  fbAt : Option Nat := none
  lastCommit : Option Nat := none
  lastFire : Option Nat := none
  restart : Bool := false
  /-- the track has reversed since the commit (R56) -/
  revd : Bool := false
  deriving DecidableEq, Repr, Inhabited

/-- A commit held by an executor (R54). -/
structure TtExec where
  entry : Nat
  field : Bool
  c : TtCommit
  deriving DecidableEq, Repr, Inhabited

/-- A track write of a bogie on its way to the TT block (R45). -/
structure TrkWr where
  ch : Nat
  trk : Nat
  ang : Nat
  spd : Nat
  rev : Bool
  acc : Int
  valid : Bool
  dt : Nat
  deriving DecidableEq, Repr, Inhabited

/-- An open window, with the configuration latched at its start (R70, R77). -/
structure Win where
  s : Nat
  taper : Nat
  chain : Bool
  stUnit : Nat
  stLine : Nat
  enUnit : Nat
  enLine : Nat
  settle : Bool
  stall : Bool
  deriving DecidableEq, Repr, Inhabited

/-- A window whose end event has occurred and whose result is not yet available (R69, R72). -/
structure Closed where
  w : Win
  e : Nat
  endDt : Nat
  long : Bool
  deriving DecidableEq, Repr, Inhabited

/-- A sense channel beside its registers (R64–R81). -/
structure SnHid where
  enAt : Nat := 0
  win : Option Win := none
  done : List Closed := []
  lastSt : Option Nat := none
  lastEn : Option Nat := none
  stallNow : Bool := false
  rngCnt : Nat := 0
  pValid : Bool := false
  /-- last bitstream sample of the newest P sample since the decimator restarted (R78) -/
  pLast : Option Nat := none
  deriving DecidableEq, Repr, Inhabited

/-- The running conversion of HK (R84, R85). -/
structure HkRun where
  input : Nat
  k : Nat
  urg : Bool
  start : Nat
  deriving DecidableEq, Repr, Inhabited

/-- HK beside its registers. -/
structure HkHid where
  run : Option HkRun := none
  urg : Option (Nat × Nat) := none
  slot : Nat := 0
  deriving DecidableEq, Repr, Inhabited

/-- A sealed set (R97, R98): `at_` the accepting instant in EU, `upd` the update point chosen at its seal (R100). -/
structure SealedSet where
  seq : Nat
  at_ : Nat
  upd : Nat
  words : List Word
  deriving DecidableEq, Repr, Inhabited

/-- One output of a unit (R105–R110, R132). Instants in EU. -/
structure OutSt where
  on : Bool := false
  onAt : Nat := 0
  offAt : Nat := 0
  /-- dead time running: when the turn-on is due -/
  due : Option Nat := none
  /-- the turn-on was moved by an extension of the partner (R109) -/
  moved : Bool := false
  /-- the pulse is extended to this instant (R109) -/
  minpEnd : Option Nat := none
  /-- an extending unit keeps the pulse until then: MINP after its turn-on, under the active set of that instant (R109) -/
  minUntil : Option Nat := none
  /-- the pulse, or the turn-on that is due, was begun by a change of OVR, a forced or a safe state (R109) -/
  forced : Bool := false
  /-- level at the feedback input, before SFCFG.INV (R119) -/
  fbRaw : Bool := false
  /-- turn-off whose propagation is being measured (R106) -/
  measFrom : Option Nat := none
  /-- the last propagation times (R106) -/
  meas : List Nat := []
  /-- start of the present feedback disagreement (R107) -/
  disSince : Option Nat := none
  /-- that disagreement has been reported -/
  disRep : Bool := false
  deriving DecidableEq, Repr, Inhabited

/-- A PWM unit or general output beside its registers. Unit 0–15 is PU, 16–47 GP00–GP31. Positions are counted in
the unit's tick (1 EU or 1 ns), instants in EU. -/
structure PuHid where
  t0 : Nat := 0
  per : Nat := 0
  eMid : Nat := 0
  cTop : Nat := 0
  scaled : Bool := false
  hold : Bool := false
  /-- a start is due at this instant (R92) -/
  startAt : Option Nat := none
  /-- commanded signals of pairs A, B, C -/
  sig : Nat := 0
  /-- the six outputs (R105) -/
  outs : Sparse OutSt := []
  /-- event dividers (R111) -/
  evCnt : Sparse Nat := []
  /-- sealed sets that wait for their target (R97) -/
  sealQ : List SealedSet := []
  /-- pairs that were clamped at the last point (R108) -/
  clamped : Nat := 0
  /-- DTRA, DTFA, … of the last transferred set, as they were sealed (R108) -/
  sealedDt : List Word := []
  /-- the middle of the running period has passed -/
  midDone : Bool := false
  /-- angle mode: periods repeat without a firing (R95) -/
  missed : Bool := false
  /-- the active set was not valid at the last start (R92) -/
  badStart : Bool := false
  /-- a seal has been accepted since the last GRANT (R419) -/
  marked : Bool := false
  /-- 0: not safe; 1: the unit drives a safe state and turn-ons wait on R132; 2: HOLD (R130) -/
  safe : Nat := 0
  /-- the lines are clear; the unit leaves its safe state at the next period boundary (R133) -/
  leaving : Bool := false
  deriving DecidableEq, Repr, Inhabited

/-- A comparator beside its registers (R126, R138). -/
structure CmpHid where
  /-- DT of the first of the consecutive filter samples that have shown the raw condition true (R126) -/
  since : Option Nat := none
  /-- DT at which the raw condition became false, until a filter sample shows it -/
  fell : Option Nat := none
  /-- end of the 400 ns in-service test -/
  testEnd : Option Nat := none
  /-- condition of the input while the test holds the filter input -/
  live : Bool := false
  /-- first valid F sample after EN seen (R125) -/
  fresh : Bool := false
  deriving DecidableEq, Repr, Inhabited

/-- In-service tests of the CWs (R138): DT of the next slot, and the CWs tested in this sweep, a bit for each. -/
structure BgTests where
  next : Nat := 0
  swept : Nat := 0
  deriving DecidableEq, Repr, Inhabited

/-- A safe-state unit beside its registers (R131). -/
structure SsHid where
  low : Bool := false
  evalAt : Nat := 0
  deriving DecidableEq, Repr, Inhabited

/-- A general counter beside its registers (R346–R359). -/
structure TcHid where
  presc : Nat := 0
  started : Bool := false
  /-- the levels of the GPA pins as this counter's own filter shows them (R347): bit p for pin p -/
  pins : BitVec 64 := 0
  /-- DT of the last field-clock edge that this counter took -/
  clkAt : Option Nat := none
  /-- hardware triggers waiting for the next field-clock edge -/
  trig : Nat := 0
  /-- compares written at or below the count with CMPLATE (R355): bit k -/
  late : Nat := 0
  /-- DT of the write that set one of them -/
  lateAt : Nat := 0
  /-- events of this counter that its slaves have yet to act on: bit 0 OVF, 1 DONE, 2 M0, 3 M1, 4 TEV -/
  ev : Nat := 0
  /-- DT of the first of them -/
  evAt : Nat := 0
  deriving DecidableEq, Repr, Inhabited

end Sys2Proof.Machine
end

