-- ==== Sys2Proof/Syntax.lean ====
section
/-!
DEFINITION. The commands of the block: one constructor for each row of the opcode table, in its order, with the operands
that a command carries. An operand of a physical kind (a level, an
outcome, an upset) says what the outside world does.
-/
namespace Sys2Proof

open Sys2Proof.Machine

/-- A command. -/
inductive Instr
  /-- R11: A write to a register that has no row of its own applies under its access type, reserved-bit and W1C/W1S collision rules. -/
  | registerWrite (m : Master) (a : BitVec 32) (v ev clr : Word)
  /-- R39: A field-window read or write arrives at the field die as class-4 traffic and is applied in program order per master. -/
  | fieldWindowAccess (ev : Word)
  /-- R20: A replay request reaches the sender, which resends that transfer and every later one of its direction from the replay buffer. -/
  | replayRequest (d : Fin 2) (i : BitVec 6) (k : Fin 4) (o : StartOut)
  /-- R22: Every 256 ns the field die queues a DT sync word carrying its DT. -/
  | dtSyncSend
  /-- R22: A DT sync word arrives; the control die slews its DT copy by 1 ns and may raise F_CLK_DRIFT or load its copy after a rung exit. -/
  | dtSync
  /-- R25: A clock monitor finds a stopped clock or unlocked PLL and raises F_CLK_LOSS. -/
  | clkLoss (inst : Fin 3) (fd : Bool)
  /-- R237: Data of a near or far load arrives and is written to its target, ending any stall. -/
  | loadDataArrival (c : At) (err : Bool)
  /-- R275: Far memory acknowledges a far store and the stalled core continues. -/
  | farStoreAck (c : FarAck)
  /-- R44: A filtered legal A/B change of a quadrature encoder is time-stamped and reported; a simultaneous A and B change is a loss. -/
  | qeAbEdge (q : Fin 8) (a b : PinSample)
  /-- R508: A filtered Z edge is time-stamped and reported for loading and checking TRKn_OFFS. -/
  | qeZEdge (q : Fin 8) (z : PinSample)
  /-- R44: A filtered Hall state change is time-stamped and reported; an invalid or non-adjacent state is a loss. -/
  | hlStateChange (h : Fin 8) (v : HallSample)
  /-- R508: An edge report reaches the TT block, which steps the track angle as of its time stamp and updates the speed. -/
  | trackEdgeReport
  /-- R45: A bogie track write reaches the TT block and field die, updating angle, speed, direction and acceleration or being rejected. -/
  | trackWrite
  /-- R46: A BOGIE track receives no write for TRKn_WDOG × 16 ns and becomes lost. -/
  | trackWdog (n : Fin 16)
  /-- R48: A QE or HL track shows no edge for STALL µs, sets STAT.STALL and speed 0. -/
  | trackStall (n : Fin 16)
  /-- R46: A write of TRKn_CFG applies; a change of SRC or INST while enabled, or clearing EN with enabled entries, makes the track lost. -/
  | trkCfgWrite (n : Fin 16) (v : Word)
  /-- R62: A read of TRKn_ANG latches speed, acceleration and status of the same instant for the requester. -/
  | trkAngRead (m : Master) (n : Fin 16)
  /-- R62: A read of TTnnn_PRED_L latches PRED_H and PREDEU for the requester. -/
  | predLRead (m : Master) (e : Fin 512)
  /-- R62: A W1C write of TT_FIREDj clears both the mirror bit and the entry's STAT.FIRED. -/
  | ttFiredWrite (j : Fin 16) (v : Word)
  /-- R59: A write to a timetable entry restarts k or cancels a committed firing according to when it arrives. -/
  | ttEntryWrite (e : Fin 512) (r : Fin 8) (v : Word)
  /-- R50: A write of IO_EXCn_CFG sets the resolver excitation, or leaves it off with CFGERR for out-of-range values. -/
  | excCfgWrite (n : Fin 2) (v : Word)
  /-- R53: At each 16 ns step the TT block predicts every enabled uncommitted entry and commits those due within 64 ns. -/
  | ttPredict
  /-- R54: A timetable commit reaches a field-die executor; one arriving after its time fires at once with LATEFIRE. -/
  | ttCommit
  /-- R54: A committed entry fires at its committed time, records PRED and ERR, and steps k. -/
  | ttFire
  /-- R57: FBDLY ns after a track loss an uncommitted entry fires once with LOSTFIRE and then holds. -/
  | ttFallbackFire (e : Fin 512)
  /-- R59: A cancel reaches the field-die executor and cancels the committed firing if it arrives before its time. -/
  | ttCancel
  /-- R68: A write of SNnn_CFG or SXnn_CFG applies, setting EN, stopping all paths on clear, and refusing RANGE/INV/SXEDGE changes while enabled. -/
  | snCfgWrite (c : Fin 72) (v : Word)
  /-- R69: 20 µs after EN is set, STAT.SETTLING clears. -/
  | settlingEnd (c : Fin 72)
  /-- R77: A write of WCFG applies for the next window or result, or discards the open window when WEN is cleared. -/
  | wcfgWrite (c : Fin 72) (v : Word)
  /-- R70: A write of 1 to WCTL.START is a window start event. -/
  | wctlStart (c : Fin 72)
  /-- R70: A write of 1 to WCTL.END is a window end event. -/
  | wctlEnd (c : Fin 72)
  /-- R73: A window result becomes available, is stored with SEQ stepped and is delivered to its loop channel. -/
  | windowResult (c : Fin 72) (xs : List Bool)
  /-- R74: A window reaches 2^24 samples and ends as if an end event occurred, with LONG set. -/
  | windowLong (c : Fin 72)
  /-- R144: A delivered window result reaches the bogie block and is stored in the channel's sense slot. -/
  | resultDelivery
  /-- R78: The precise path produces a sample into PRES. -/
  | pSample (c : Fin 72) (xs : List Bool)
  /-- R78: A P sample arrives at the control die for routines and capture. -/
  | pSampleTransfer
  /-- R79: The fast path produces a 10-bit sample into FRES. -/
  | fSample (c : Fin 72) (x : BitVec 31) (dup : BitVec 48)
  /-- R78: A write of SN_CTRL.PSYNC restarts all P decimators together. -/
  | snPsync
  /-- R80: A bitstream holds 20 equal samples; with STALLEN set STAT.STALL sets and F_MOD_STALL is raised. -/
  | modStall (c : Fin 72)
  /-- R80: An SX channel sees no clock edge for 1 µs and stalls. -/
  | sxClockMissing (n : Fin 24)
  /-- R80: After 64 samples with transitions STAT.STALL clears. -/
  | stallClear (c : Fin 72)
  /-- R85: A write of HK_CTRL starts or stops scanning and cancels a pending urgent request when EN clears. -/
  | hkCtrlWrite (v : Word)
  /-- R85: A write of HK_URG with GO requests one urgent conversion or is refused with URGREF. -/
  | hkUrg (v : Word)
  /-- R85: HK starts a slot or urgent conversion after idle or at the end of the previous one. -/
  | hkConversionStart
  /-- R84: A conversion ends after 62.5 µs × 2^K; result, time and details are stored and interrupts raised. -/
  | hkConversionEnd (code : BitVec 24)
  /-- R87: A read of WRES latches WFLG, WLEN and WTS of the same window for the requester. -/
  | wresRead (m : Master) (c : Fin 72)
  /-- R87: A read of HK_RESi latches its time stamp and info for the requester. -/
  | hkResRead (m : Master) (i : Fin 40)
  /-- R92: A write of CTL applies; clearing EN stops the counter and turns outputs off, and MODE/ANGLE/TRK changes while enabled set WRERR. -/
  | puCtlWrite (u : Fin 48) (v : Word)
  /-- R92: A unit starts its first period at least 20 ns after EN is set, transferring any waiting sealed set. -/
  | puStart (u : Fin 48)
  /-- R89: A unit reaches e = P and starts a new period, an END update point. -/
  | periodBoundary (u : Fin 48)
  /-- R89: A unit reaches e = P/2, a MID update point. -/
  | periodMiddle (u : Fin 48)
  /-- R90: The counter crosses a compare and the pair's commanded signal changes, starting dead time. -/
  | signalEdge (u : Fin 48) (eu : Fin 20)
  /-- R111: The counter crosses a trigger compare and gives a TRG event. -/
  | triggerCrossing (u : Fin 48) (k : Fin 2) (eu : Fin 20)
  /-- R105: The dead time after a signal edge elapses and the incoming output turns on. -/
  | deadTimeEnd (u : Fin 48) (o : Fin 6)
  /-- R109: An on-pulse extended to MINP ends at MINP after its turn-on. -/
  | minpEnd (u : Fin 48) (o : Fin 6)
  /-- R95: No firing arrives within PEREFF/8 after an angle-mode period end; a new period starts with SYNCMISS. -/
  | syncMiss (u : Fin 48)
  /-- R97: A write to a set register lands in the pending set and sets its WMARK bit. -/
  | puSetWrite (u : Fin 48) (b : Fin 17) (v : Word)
  /-- R98: A write of SEAL copies the pending set into the sealed set, or is refused for SETREQ or validity. -/
  | seal (u : Fin 48) (seq : BitVec 8)
  /-- R102: A bogie commit reaches the field die, writes the whole set and seals it under its epoch, and is acknowledged. -/
  | bogieCommit
  /-- R151: A seal acknowledgement reaches the bogie block, setting CMT_DT or SETREF. -/
  | sealAck
  /-- R100: 20 ns after an IMMEDIATE seal, the sealed set transfers and reshapes the running period. -/
  | immediateTransfer (u : Fin 48)
  /-- R106: A switch-feedback edge is time-stamped and measures turn-off propagation. -/
  | swFeedbackEdge (u : Fin 16) (o : Fin 6) (lvl : Bool) (eu : Fin 20)
  /-- R107: A feedback disagreement lasting over SFWIN × 2 ns sets DISAG and raises F_SW_FEEDBACK. -/
  | swFeedbackDisag (u : Fin 16) (o : Fin 6) (eu : Fin 20)
  /-- R116: A write of GP_GSEALg seals all four outputs of the group or none. -/
  | gpGseal (g : Fin 8) (seq : BitVec 8)
  /-- R152: A unit notice reaches the bogie block, which predicts the unit's update points from it. -/
  | unitNotice
  /-- R124: An analogue comparator's raw condition changes with its input. -/
  | cwCondition (n : Fin 64) (v : Int)
  /-- R126: A raw condition true for FILT filter samples makes the filtered condition true. -/
  | brakeFilter (i : Fin 112)
  /-- R132: An output that the safe state turns on does so once its dead time and feedback conditions hold. -/
  | safeTurnOn (u : Fin 16) (o : Fin 6) (eu : Fin 20)
  /-- R131: Every 1 µs while safe, SPEEDSEL chooses LOW or OFF from the field die's speed estimate. -/
  | speedselEval (su : Fin 24)
  /-- R135: A write of BL_CLR clears each named line whose sources are all false, refusing the others. -/
  | blClr (v : Word)
  /-- R127: A brake-line status message reaches the control die. -/
  | brakeLineStatus
  /-- R136: A write of BL_SSu_CFG applies, or is refused with WRERR while the unit is safe by a line or GSAFE. -/
  | blSsCfgWrite (su : Fin 24) (v : Word)
  /-- R136: A write of CW/DW configuration applies within 20 ns and restarts the filter. -/
  | cwCfgWrite (i : Fin 112) (thr : Bool) (v : Word)
  /-- R137: The start-up comparator self-test completes, setting STDONE or STFAIL with F_COMP_SELFTEST. -/
  | compSelftestDone (fail : Option (Fin 128))
  /-- R138: At its slot an in-service test of one CW starts, or is retried later if the CW is busy. -/
  | cwBgTest (n : Fin 64)
  /-- R138: A 400 ns in-service CW test ends and a failure raises F_COMP_SELFTEST. -/
  | cwBgTestDone (n : Fin 64) (ok : Bool)
  /-- R145: GATHERTO ns after a gather opened, it releases a task with PARTIAL. -/
  | gatherTimeout (ch : Fin 64)
  /-- R154: The bogie starts or restores the earliest-deadline queued task. -/
  | taskDispatch (b : Fin 5)
  /-- R155: At a trap-ok point a running task is preempted and saved to its save slot. -/
  | microTrap (b : Fin 5)
  /-- R148: At a channel's iteration boundary the parameter port applies held writes due by the next release. -/
  | iterationBoundary (ch : Fin 64)
  /-- R157: A task runs longer than BGn_OVRB ns and raises F_BOGIE_OVERRUN. -/
  | bogieOverrun (b : Fin 5)
  /-- R160: BG4 completes adoption of the failed bogie's channels and releases catch-up tasks. -/
  | reliefAdopted (m : Machine.MirrorErr)
  /-- R160: Every catch-up task has ended and relief enters SERVING. -/
  | reliefCatchupDone
  /-- R160: A catch-up task not complete 9.8 µs after the fault raises F_RELIEF_FAIL. -/
  | reliefTimeout
  /-- R163: At each 1 ms window end BGn_UTIL and PEAK update and the UTIL cause may be raised. -/
  | utilWindow (b : Fin 5)
  /-- R164: A write of BG_PPORT_DATA queues a parameter write to CH, WORD. -/
  | pportData (m : Master) (v : Word)
  /-- R164: BGn_CLR.CNT clears the bogie's six counters. -/
  | bgClrCnt (b : Fin 5)
  /-- R164: BGn_CLR.TGAP clears TGAP. -/
  | bgClrTgap (b : Fin 5)
  /-- R164: BGn_CLR.PEAK clears PEAK. -/
  | bgClrPeak (b : Fin 5)
  /-- R170: A microword issues in one bogie cycle once its interlocks and waits are satisfied. -/
  | microwordIssue (b : Fin 5) (up : Upset)
  /-- R182: A WAIT word's deadline passes first, so it issues and continues at NEXT. -/
  | waitDeadline (b : Fin 5)
  /-- R141: An FMA operation completes and writes its result and flags. -/
  | fmaResult (b : Fin 5)
  /-- R179: A CORDIC operation completes and writes its results. -/
  | rotResult (b : Fin 5)
  /-- R141: A divide or square root completes and writes its result. -/
  | divResult (b : Fin 5)
  /-- R177: An SVU operation completes and writes duties and sector. -/
  | svuResult (b : Fin 5)
  /-- R177: A yard load's data arrives in its t-temporary. -/
  | yldResult (b : Fin 5)
  /-- R225: A lookup result arrives in f(tag) with its fallback flag. -/
  | mapResult (b : Fin 5)
  /-- R219: Every far-memory write of a map load is acknowledged; the map enters STAGED and LOADDONE is raised. -/
  | mapLoadDone (n : Fin 256)
  /-- R224: A map-cache line fetch returns and is installed, or poison is reported. -/
  | cacheLineFill (poison : Bool)
  /-- R227: A write of MP_CTRL applies; clearing EN empties every map. -/
  | mpCtrlWrite (v : Word)
  /-- R227: MP_CLR.CNT clears the five map-store counters. -/
  | mpClrCnt
  /-- R264: MOV copies ws to wd. -/
  | mov (e : Exe) (d w : Fin 16)
  /-- R264: MOVI loads a sign-extended 18-bit immediate. -/
  | movi (e : Exe) (d : Fin 16) (v : BitVec 18)
  /-- R264: MOVSH shifts wd left 14 and ORs in X. -/
  | movsh (e : Exe) (d : Fin 16) (x : Syl)
  /-- R264: ADD adds ws to wd with flags, or traps on overflow with OVE. -/
  | add (e : Exe) (d w : Fin 16)
  /-- R264: ADC adds with carry. -/
  | adc (e : Exe) (d w : Fin 16)
  /-- R264: SUB subtracts ws from wd. -/
  | sub (e : Exe) (d w : Fin 16)
  /-- R264: SBC subtracts with borrow. -/
  | sbc (e : Exe) (d w : Fin 16)
  /-- R264: CMP sets flags from wd − ws. -/
  | cmp (e : Exe) (d w : Fin 16)
  /-- R264: ADDI adds a sign-extended immediate. -/
  | addi (e : Exe) (d w : Fin 16) (x : Syl)
  /-- R264: CMPI compares with a sign-extended immediate. -/
  | cmpi (e : Exe) (d : Fin 16) (x : Syl)
  /-- R265: AND writes wd AND ws. -/
  | and (e : Exe) (d w : Fin 16)
  /-- R265: OR writes wd OR ws. -/
  | or (e : Exe) (d w : Fin 16)
  /-- R265: XOR writes wd XOR ws. -/
  | xor (e : Exe) (d w : Fin 16)
  /-- R265: ANDN writes wd AND NOT ws. -/
  | andn (e : Exe) (d w : Fin 16)
  /-- R265: TST sets Z and N from wd AND ws. -/
  | tst (e : Exe) (d w : Fin 16)
  /-- R265: ANDI ANDs a zero-extended immediate. -/
  | andi (e : Exe) (d w : Fin 16) (x : Syl)
  /-- R265: ORI ORs a zero-extended immediate. -/
  | ori (e : Exe) (d w : Fin 16) (x : Syl)
  /-- R265: XORI XORs a zero-extended immediate. -/
  | xori (e : Exe) (d w : Fin 16) (x : Syl)
  /-- R266: SHL shifts wd left. -/
  | shl (e : Exe) (d w : Fin 16)
  /-- R266: SHR shifts wd right logically. -/
  | shr (e : Exe) (d w : Fin 16)
  /-- R266: ASR shifts wd right arithmetically. -/
  | asr (e : Exe) (d w : Fin 16)
  /-- R266: ROR rotates wd right. -/
  | ror (e : Exe) (d w : Fin 16)
  /-- R266: SHI shifts ws by an immediate of the chosen kind. -/
  | shi (e : Exe) (d w : Fin 16) (kind : Fin 4) (amt : Fin 64)
  /-- R267: NEG negates wd. -/
  | neg (e : Exe) (d : Fin 16)
  /-- R267: NOT inverts wd. -/
  | not (e : Exe) (d : Fin 16)
  /-- R267: ABS writes the magnitude of wd. -/
  | abs (e : Exe) (d : Fin 16)
  /-- R267: SEXB sign-extends the low byte. -/
  | sexb (e : Exe) (d : Fin 16)
  /-- R267: SEXH sign-extends the low halfword. -/
  | sexh (e : Exe) (d : Fin 16)
  /-- R267: ZEXB zero-extends the low byte. -/
  | zexb (e : Exe) (d : Fin 16)
  /-- R267: ZEXH zero-extends the low halfword. -/
  | zexh (e : Exe) (d : Fin 16)
  /-- R267: CLZ counts leading zeros. -/
  | clz (e : Exe) (d : Fin 16)
  /-- R267: BSWAP reverses the bytes of wd. -/
  | bswap (e : Exe) (d : Fin 16)
  /-- R268: MUL writes the low 32 bits of the signed product. -/
  | mul (e : Exe) (d w : Fin 16)
  /-- R268: MULHS writes the high 32 bits of the signed product. -/
  | mulhs (e : Exe) (d w : Fin 16)
  /-- R268: MULHU writes the high 32 bits of the unsigned product. -/
  | mulhu (e : Exe) (d w : Fin 16)
  /-- R268: MULQ writes the rounded Q31 product. -/
  | mulq (e : Exe) (d w : Fin 16)
  /-- R269: MAC0 adds the product into A0. -/
  | mac0 (e : Exe) (d w : Fin 16)
  /-- R269: MAC1 adds the product into A1. -/
  | mac1 (e : Exe) (d w : Fin 16)
  /-- R269: MSU0 subtracts the product from A0. -/
  | msu0 (e : Exe) (d w : Fin 16)
  /-- R269: MSU1 subtracts the product from A1. -/
  | msu1 (e : Exe) (d w : Fin 16)
  /-- R270: DIV divides signed, writing quotient and remainder, or traps on zero with DZE. -/
  | div (e : Exe) (d w : Fin 16)
  /-- R270: DIVU divides unsigned. -/
  | divu (e : Exe) (d w : Fin 16)
  /-- R273: LDW loads a word, near loads writing after their delay slot. -/
  | ldw (e : Exe) (d b : Fin 16) (x : Syl) (up : Fin 3)
  /-- R273: LDH loads a sign-extended halfword. -/
  | ldh (e : Exe) (d b : Fin 16) (x : Syl) (up : Fin 3)
  /-- R273: LDHU loads a zero-extended halfword. -/
  | ldhu (e : Exe) (d b : Fin 16) (x : Syl) (up : Fin 3)
  /-- R273: LDB loads a sign-extended byte. -/
  | ldb (e : Exe) (d b : Fin 16) (x : Syl) (up : Fin 3)
  /-- R273: LDBU loads a zero-extended byte. -/
  | ldbu (e : Exe) (d b : Fin 16) (x : Syl) (up : Fin 3)
  /-- R273: STW stores a word, held in tandem for guard-classed addresses. -/
  | stw (e : Exe) (d b : Fin 16) (x : Syl)
  /-- R273: STH stores a halfword. -/
  | sth (e : Exe) (d b : Fin 16) (x : Syl)
  /-- R273: STB stores a byte. -/
  | stb (e : Exe) (d b : Fin 16) (x : Syl)
  /-- R273: LDD loads by banked-direct address. -/
  | ldd (e : Exe) (d : Fin 16) (size db : Fin 4) (x : Syl) (up : Fin 3)
  /-- R273: LDDU loads unsigned by banked-direct address. -/
  | lddu (e : Exe) (d : Fin 16) (size db : Fin 4) (x : Syl) (up : Fin 3)
  /-- R273: STD stores by banked-direct address. -/
  | std (e : Exe) (d : Fin 16) (size db : Fin 4) (x : Syl)
  /-- R276: LDRSV loads a word and takes a reservation on its granule. -/
  | ldrsv (e : Exe) (d b : Fin 16) (x : Syl) (up : Fin 3)
  /-- R276: STCND stores only while the reservation is held and clears it. -/
  | stcnd (e : Exe) (d b : Fin 16) (x : Syl)
  /-- R276: TAS reads a byte and sets it to 0xFF indivisibly. -/
  | tas (e : Exe) (d b : Fin 16) (x : Syl) (up : Fin 3)
  /-- R278: Bcc branches PC-relative when its condition holds. -/
  | bcc (e : Exe) (cond : Fin 16) (off : BitVec 18)
  /-- R278: JMPA jumps to an absolute address. -/
  | jmpa (e : Exe) (t : BitVec 22)
  /-- R278: JMP wn jumps to a register address. -/
  | jmp (e : Exe) (n : Fin 16)
  /-- R279: CALLA pushes the return address to both stacks and jumps absolute. -/
  | calla (e : Exe) (t : BitVec 22)
  /-- R279: CALLR pushes the return address and jumps PC-relative. -/
  | callr (e : Exe) (off : BitVec 18)
  /-- R279: CALL wn pushes the return address and jumps to a register address. -/
  | call (e : Exe) (n : Fin 16)
  /-- R279: RET pops the return address after checking it against the shadow stack. -/
  | ret (e : Exe) (up : Fin 3)
  /-- R246: RPT #n repeats the next instruction n times. -/
  | rpt (e : Exe) (n : Syl)
  /-- R246: RPT wn repeats the next instruction wn bits 15:0 times. -/
  | rptWn (e : Exe) (n : Fin 16)
  /-- R246: One iteration of a repeated instruction executes as a complete instruction and counts down RC. -/
  | repeatIteration (e : Exe) (up : Fin 3)
  /-- R250: LOOP checks its body and starts zero-overhead passes, or skips the body when wc is 0. -/
  | loop (e : Exe) (wc : Fin 16) (len : Fin 64)
  /-- R250: At the end of a pass wc decrements; a non-zero result starts another pass, zero clears LP. -/
  | loopPassEnd (c : Who)
  /-- R281: MFS reads a special register under its privilege. -/
  | mfs (e : Exe) (d n : Fin 16)
  /-- R281: MTS writes a special register under R233 and R234. -/
  | mts (e : Exe) (n w : Fin 16)
  /-- R281: MFB reads a register or SP of another bank. -/
  | mfb (e : Exe) (d w : Fin 16) (b : Fin 8) (sp : Bool)
  /-- R281: MTB writes a register or SP of another bank. -/
  | mtb (e : Exe) (d w : Fin 16) (b : Fin 8) (sp : Bool)
  /-- R282: SPILL writes a bank's frame to the current stack. -/
  | spill (e : Exe) (b : Fin 16)
  /-- R282: FILL loads a bank from a stack frame. -/
  | fill (e : Exe) (b : Fin 16) (up : Fin 3)
  /-- R283: TRAP takes vector 32 + n. -/
  | trap (e : Exe) (n : Fin 64)
  /-- R284: RETX returns from an exception, restoring STAT and PC, or faults on bank or privilege. -/
  | retx (e : Exe)
  /-- R283: BRK takes vector 14. -/
  | brk (e : Exe)
  /-- R283: EI sets STAT.IE. -/
  | ei (e : Exe)
  /-- R283: DI clears STAT.IE. -/
  | di (e : Exe)
  /-- R283: WFI waits for any pending interrupt. -/
  | wfi (e : Exe)
  /-- R283: An interrupt becomes pending and a waiting WFI completes. -/
  | wfiWake (c : Who)
  /-- R283: FENCE waits until every earlier data access has completed. -/
  | fence (e : Exe)
  /-- R283: Every earlier access of the core completes and a waiting FENCE ends. -/
  | fenceComplete (c : Who)
  /-- R283: NOP does nothing. -/
  | nop (e : Exe)
  /-- R242: PMWR starts a program-memory line write through the write controller. -/
  | pmwr (e : Exe) (d w : Fin 16)
  /-- R242: A program-memory line write completes. -/
  | pmwrWriteDone (c : Who)
  /-- R244: PMSYNC waits for the write in flight, invalidates and flushes, and releases the old-line buffer. -/
  | pmsync (e : Exe)
  /-- R296: At an interrupt point with IE set the core takes the lowest pending vector. -/
  | interruptEntry (c : At)
  /-- R302: A write of TD_SSCTX selects bank-0 shadow contexts, refused while the core is in bank 0. -/
  | tdSsctxWrite (v : Word)
  /-- R302: A write of TD_SSCLR.GO empties a shadow context, refused if it is in use. -/
  | tdSsclr (v : Word)
  /-- R306: An instruction-cache miss fill returns program-MRAM lines. -/
  | icacheFill (b : Bool) (a : BitVec 22) (k : Fin 8) (up : Fin 3) (par : Bool)
  /-- R311: At each window end the comparator compares signatures and raises F_TANDEM_MISMATCH on a difference. -/
  | tandemWindowCompare (sigA sigB : BitVec 64) (ok : Bool)
  /-- R320: TIME µs pass without a kick and F_TANDEM_WDOG is raised. -/
  | watchdogExpire (b : Bool)
  /-- R320: A write of TD_WDKICK restarts the watchdog or raises F_TANDEM_WDOG for a wrong key. -/
  | wdkick (m : Master) (v : Word)
  /-- R321: A write of TD_CTRL.SRST requests a tandem-only reset. -/
  | tdSrst
  /-- R321: The cores issue their first instruction after a tandem-only reset. -/
  | tandemResetDone (injOk : Bool)
  /-- R322: TD_CLR.CNT clears the four TD counters. -/
  | tdClrCnt
  /-- R327: A write of YDnn_HAND starts a handover or is refused with WRERR. -/
  | yardHand (m : Master) (n : Fin 16) (v : Word)
  /-- R328: A write of YDnn_FORCE forces a handover whatever the owner. -/
  | yardForce (n : Fin 16) (v : Word)
  /-- R329: A handover completes, optionally after zeroing, and OWNER takes NEW. -/
  | handoverDone (n : Fin 16)
  /-- R333: At its interval the test engine saves and march-tests the next 64-byte window. -/
  | yardWindowTest (up : Option (Fin 16))
  /-- R335: A window test writes back its buffer and a failure raises F_YARD_TEST. -/
  | yardWindowTestDone (ok : Bool)
  /-- R337: The NV write controller starts the next queued line write. -/
  | nvLineWriteStart
  /-- R338: An NV yard line write completes atomically and counts wear. -/
  | nvLineWriteDone
  /-- R340: The scrubber reads the next program-MRAM line and rewrites or reports errors. -/
  | pmScrub (up : Fin 3)
  /-- R343: YD_CLR.ECC clears every ECC counter. -/
  | ydClrEcc
  /-- R343: YD_CLR.COLL clears every collision counter. -/
  | ydClrColl
  /-- R343: YD_CLR.CONF clears every wait counter. -/
  | ydClrConf
  /-- R344: PM_CLR.ECC1 clears PM_ECC1. -/
  | pmClrEcc1
  /-- R347: A filtered edge on a counter's GPA pin gives a count edge, trigger or gate change. -/
  | tcPinEdge (n : Fin 32) (p : Fin 64) (sample : PinSample)
  /-- R350: A counter takes a count edge and advances, reloads or stops per its mode. -/
  | countEdge (n : Fin 32)
  /-- R355: With CMPLATE a compare written at or below the count matches in the next cycle. -/
  | lateMatch (n : Fin 32) (k : Fin 2)
  /-- R351: ARM loads 0, clears DONE and arms a ONE-SHOT counter. -/
  | tcArm (n : Fin 32)
  /-- R352: RESTART loads 0 and restarts the prescaler. -/
  | tcRestart (n : Fin 32)
  /-- R352: CAPTURE copies the count of every chain member into CAP. -/
  | tcCapture (n : Fin 32)
  /-- R352: A hardware trigger from an event line or pin applies TRG.ACT at the next field-clock edge. -/
  | tcTrigger (n : Fin 32)
  /-- R357: A master's event acts on its slave at the next edge, or is ignored in service. -/
  | linkAction (n : Fin 32)
  /-- R360: A read of a chain's low-word CNT or CAP latches the upper members for the requester. -/
  | tcCntRead (m : Master) (n : Fin 32) (cap : Bool)
  /-- R353: A write of TCnn_CTL applies, refusing MODE, SRC and CNT changes while enabled. -/
  | tcCtlWrite (n : Fin 32) (v : Word)
  /-- R355: A write of CMPk takes effect from the next count edge. -/
  | tcCmpWrite (n : Fin 32) (k : Fin 2) (v : Word)
  /-- R359: A write of TC_GSTART.GO chooses the global-start edge. -/
  | tcGstart (v : Word)
  /-- R359: At the global-start edge selected waiting counters and units start together. -/
  | globalStart
  /-- R365: A host BAR0 access is served, forwarded without epoch, ignored, or aborted if misaligned. -/
  | hostBar0Access (off : BitVec 24) (size : BitVec 4) (w : Option Word)
  /-- R368: The upstream data link goes down and F_HOST_LINK_DOWN is raised. -/
  | hostDlDown
  /-- R368: The upstream link returns to L0 and waiting posted writes are sent. -/
  | hostLinkRetrain
  /-- R368: A function-level reset returns HQ, CS, MSI-X, LK_HIRQ and configuration space to reset. -/
  | functionLevelReset
  /-- R368: A hot reset acts as a function-level reset and the link retrains. -/
  | hotReset
  /-- R368: A link disable acts as a function-level reset and the link retrains. -/
  | linkDisable
  /-- R368: The function enters D3hot and BAR accesses complete with Unsupported Request. -/
  | d3hot
  /-- R366: A host snoop is answered with RspIHitI. -/
  | snoop
  /-- R367: Unmasking a vector with its pending bit set sends the message. -/
  | msixUnmask (v : Fin 64)
  /-- R369: Every INT ms the device sends a PTM request. -/
  | ptmDialogue
  /-- R369: A write of LK_PTMCTL.GO starts one PTM dialogue. -/
  | ptmGo
  /-- R369: A PTM response arrives and the time pair is stored or discarded as BAD. -/
  | ptmResponse (t2 t3 : BitVec 64)
  /-- R369: A read of LK_PTM_DT_L latches the other pair registers. -/
  | ptmDtRead (m : Master)
  /-- R370: Setting FAREN starts the far-memory port bring-up. -/
  | farBringup
  /-- R370: Far-memory bring-up completes and MEMACT sets, or CFGERR sets. -/
  | farBringupDone (bad : Bool) (cap : BitVec 16) (speed : Fin 6) (lanes : Fin 3)
  /-- R370: Memory_Active is not reached within 1 s and bring-up fails. -/
  | memoryActiveTimeout
  /-- R372: The far link goes down, MEMACT clears and F_FAR_LINK_DOWN is raised. -/
  | farDlDown
  /-- R372: The far link returns and bring-up runs again. -/
  | farLinkReturn
  /-- R372: A far access waits LK_FARTO µs in recovery and completes with error. -/
  | farAccessTimeout (c : Option At)
  /-- R374: A service-port frame arrives and is handled as debug or dropped and counted. -/
  | svcFrameRx (ether : BitVec 16) (ty : BitVec 8)
  /-- R374: Every PER ms the device sends a status frame. -/
  | svcStatusFrame
  /-- R378: A posthorn write advances a ring index or is refused with PHERR. -/
  | posthorn (v : Word)
  /-- R377: Setting a ring's EN zeroes its indices and sets a CQ's phase. -/
  | ringEnable (r : Fin 20) (v : Word)
  /-- R379: Writing 1 to SQn_CFG.STOP resumes fetching the failed waybill. -/
  | sqStopClear (q : Fin 8)
  /-- R379: A waybill arrives from host memory, or its read fails and the ring stops. -/
  | waybillFetch (q : Fin 8) (v : BitVec 512) (ok : FetchIn)
  /-- R383: At fetch DT + 1 µs a NEXT_UPDATE waybill resolves its t from the unit's boundary. -/
  | nextUpdateResolve
  /-- R383: An AT_ANGLE waybill not committed within 1 s is refused PAST. -/
  | atAngleTimeout
  /-- R384: At its instant t a waybill acts and its completion is written. -/
  | waybillEffect (hostOk : Bool) (img : Option (List Byte))
  /-- R389: The earlier waybills complete and the FENCE waybill completes, releasing fetching. -/
  | wbFenceDone
  /-- R481: The attestation signature completes, the report is observed and the ATTEST completes. -/
  | attestSigned (ok : Bool)
  /-- R392: At each DT multiple of PERIOD a consist stream is triggered. -/
  | consistPeriod (c : Fin 2)
  /-- R394: After the body is globally observed GEN is written and CSPUB raised. -/
  | consistPublish (c : Fin 2)
  /-- R399: A write of HQ_CCMPL completes the head inbox entry. -/
  | hqCcmpl (v : Word)
  /-- R401: HQ_CLR.CNT clears the host-queue counters. -/
  | hqClrCnt
  /-- R404: A fault reaches the guard, which sets its logbook bit, records it and starts its reaction. -/
  | faultArrival
  /-- R408: A write of GD_REACTn sets a reaction or is refused with REACTERR. -/
  | gdReactWrite (id : BitVec 8) (v : Word)
  /-- R408: A write of GD_CTRL.LOCK locks every reaction and RWL field. -/
  | gdLock
  /-- R411: A write of GD_REL clears named GSAFE bits unless their fault is still active. -/
  | gdRel (v : BitVec 24)
  /-- R410: GSAFE bits from the guard reach the field die and update FG_GSAFE. -/
  | gsafeUpdate
  /-- R412: VSUP below 5.5 V for 1 µs raises F_VSUP_UV and the field die enters limp with limp-lock. -/
  | vsupUv
  /-- R412: VSUP above 60 V for 1 µs raises F_VSUP_OV and the field die enters limp with limp-lock. -/
  | vsupOv
  /-- R407: The control-die supply leaves its window and F_CORE_SUPPLY is raised. -/
  | coreSupply
  /-- R407: The control-die temperature exceeds 135 °C and F_TEMP_CD is raised. -/
  | tempCd
  /-- R407: The field-die temperature exceeds 150 °C and F_TEMP_FD is raised. -/
  | tempFd
  /-- R413: At each DT multiple of 500 ns ERROUT_P/N toggle while the field die is not limp. -/
  | erroutToggle
  /-- R416: Every 1,000 ns the control side sends a heartbeat with CPL_EPOCH. -/
  | heartbeatSend
  /-- R416: A heartbeat reaches the field die and restarts the coupling watch when valid. -/
  | heartbeat
  /-- R416: 4,000 ns pass without a valid heartbeat; the field die enters limp and raises F_COUPLING_LOST. -/
  | couplingLoss
  /-- R416: Every 1 µs the field die sends STATUS. -/
  | statusSend
  /-- R416: A STATUS reaches the control side and updates CPL registers. -/
  | status
  /-- R416: No STATUS for 4 µs raises F_COUPLING_LOST instance 1. -/
  | statusTimeout
  /-- R419: A write of CPL_CTRL.CLAIM sends CLAIM with a new epoch, nonce and GSAFE bits. -/
  | cplClaim
  /-- R419: A CLAIM reaches the field die, which loads GSAFE and grants or refuses it. -/
  | claim
  /-- R419: A GRANT with its own nonce reaches the control side, which sets CPL_EPOCH and locks the guard. -/
  | grant
  /-- R419: A REFUSE reaches the control side and sets REASON and REFEV. -/
  | refuse
  /-- R419: A write of CPL_CTRL.RELEASE sends RELEASE_LIMP. -/
  | cplRelease
  /-- R419: A RELEASE_LIMP reaches the field die, which leaves limp if granted and sealed, or refuses. -/
  | releaseLimp
  /-- R419: RELEASED reaches the control side. -/
  | released
  /-- R419: A CLAIM or RELEASE_LIMP gets no answer in 2 µs and REASON takes TIMEOUT. -/
  | claimTimeout
  /-- R415: A REJECT notice reaches the control side and sets REJEV. -/
  | reject
  /-- R405: LIMP reaches the field die, which enters limp. -/
  | limp (o : StartOut)
  /-- R418: SAFE_ALL reaches the field die, which enters limp with limp-lock. -/
  | safeAllArrival
  /-- R435: SUSPEND reaches the field die, which enters limp without fault and stops expecting heartbeats. -/
  | suspend
  /-- R416: A limp notice reaches the control side. -/
  | limpNotice
  /-- R418: The limp-lock clear notice reaches the control side and clears SAFEALL and FLOCK. -/
  | limpLockClearNotice
  /-- R418: A core write of FG_LLCLR clears limp-lock, or is refused with LLREF. -/
  | fgLlclr (v : Word)
  /-- R422: Within 1 ms of a raise the guard writes the folded logbook record. -/
  | logbookRecordWrite
  /-- R423: A write of GD_LOGCLR.GO clears logbook bits if the key matches. -/
  | gdLogclr (v : Word)
  /-- R434: A write of PW_REQ requests a rung or is refused with a reason. -/
  | pwReq (v : Word)
  /-- R435: After the last WFI an accepted request drains, suspends and powers down into the rung. -/
  | rungEntry
  /-- R435: The domains reach their rung states and PW_STAT.RUNG shows the rung. -/
  | rungEntryDone
  /-- R436: A wake source becomes true, sets LN_WAKEPEND and wakes directly or via the lamplighter. -/
  | wakeSource (w : Machine.WakeEvent)
  /-- R441: At Park exit the resume and patch hashes are compared and the cores start at PW_RESVEC or SYS_ENTRY. -/
  | resumeCheckDone (o : StartOut)
  /-- R437: A lamplighter write of LN_WAKE wakes the device to Run or Shed. -/
  | lnWake (v : Word)
  /-- R439: A wake comparator samples its pin and sets its source after N true samples. -/
  | lwSample (n : Fin 8) (uv : BitVec 32)
  /-- R440: The RTC reaches LN_ALARM and sets the alarm wake source. -/
  | rtcAlarm
  /-- R440: A read of LN_RTC_L latches LN_RTC_H for the requester. -/
  | rtcRead (m : Master)
  /-- R442: In Lantern each RTC tick advances the stored DT by the tick period. -/
  | lanternDtTick
  /-- R443: When the link returns, queued field-die faults reach the guard with their DT. -/
  | faultQueueFlush
  /-- R444: LN_LLCTL.START resets and starts the lamplighter at 0x0000. -/
  | llStart
  /-- R444: LN_LLCTL.HALT halts the lamplighter. -/
  | llHalt
  /-- R445: A write of LN_PGDATA stores a syllable and advances LN_PGADDR, or sets WRERR while running. -/
  | lnPgdata (v : Word)
  /-- R445: A lamplighter write of LN_MBOX raises vector 242. -/
  | lnMbox (v : Word)
  /-- R497: PoDL power arrives or is lost and the supply source changes. -/
  | podlChange (present : Bool)
  /-- R497: VSUP rises above 6.0 V and takes over the supply. -/
  | vsupRise
  /-- R450: At each evaluation the odometer reads its monitors, steps the supply and updates margin state. -/
  | odEvaluate (slack : BitVec 32) (om : Fin 64) (ro : BitVec 16)
  /-- R450: A control-die supply step settles. -/
  | supplyStepSettled
  /-- R449: OD_CTRL.PCAP captures propagation baselines. -/
  | odPcap
  /-- R453: A write of OD_CLK.SEL = 1 selects 900 MHz or is refused with CLKREF. -/
  | odClkSel900
  /-- R454: A write of OD_CLK.SEL = 0 returns to 1.0 GHz while CODE < 15. -/
  | odClkSel1g
  /-- R453: The five bogies change clock together between two bogie cycles. -/
  | bogieClockSwitch
  /-- R459: Power arrives with PORST_N high and the cold-start steps run to the first core instruction. -/
  | coldStart (o : StartOut) (vsup podl : Bool)
  /-- R458: PORST_N held low for 1 µs causes a power-on reset. -/
  | porst
  /-- R458: VSUP below 4.5 V without PoDL causes a power-on reset. -/
  | powerLoss
  /-- R464: A write of SYS_CTRL.CDRST requests a control-die warm reset. -/
  | sysCdrst (o : StartOut)
  /-- R464: A write of SYS_CTRL.FDRST requests a field-die reset. -/
  | sysFdrst
  /-- R466: The field die is ready after its reset and its trims are rewritten from the calibration record. -/
  | fieldDieReady (vsel : BitVec 12)
  /-- R482: A CHAL_REQ frame is answered with a challenge nonce, or refused during lockout. -/
  | chalReq (src : BitVec 48)
  /-- R483: A TOKEN frame consumes the nonce and opens a debug session or answers BADTOKEN or DISABLED. -/
  | token (src : BitVec 48) (i n : BitVec 8) (bs : List Byte)
  /-- R484: A debug READ performs core-at-M reads. -/
  | read (src : BitVec 48) (a : BitVec 32) (n : BitVec 8)
  /-- R484: A debug WRITE performs permitted core-at-M writes. -/
  | write (src : BitVec 48) (a : BitVec 32) (ws : List Word)
  /-- R484: A debug HALT stops or resumes the cores. -/
  | halt (src : BitVec 48) (on : Bool)
  /-- R484: A debug WATCH sets or clears a watchpoint. -/
  | watch (src : BitVec 48) (i kind : BitVec 8) (a mask : BitVec 32)
  /-- R484: A debug LOCK ends the session. -/
  | lock (src : BitVec 48)
  /-- R484: The debug session time runs out and the session ends. -/
  | sessionExpiry
  /-- R485: A tamper source occurs, F_TAMPER is raised, SEALED clears and any debug session ends. -/
  | tamper (i : Fin 6)
  /-- R485: 60 s after eight BADTOKEN answers, CHAL is accepted again. -/
  | chalLockoutEnd
  /-- R487: A read of SC_RAND returns a fresh random word. -/
  | scRandRead (m : Master)
  /-- R257: A core or the lamplighter decodes an encoding marked illegal and takes vector 4 with no state changed. -/
  | illegalInstruction (e : Exe) (x y : Syl)
  /-- R366: The host writes configuration space (Cache_Enable, Bus Master Enable, MSI-X Enable, power state), starting or stopping the host-queue engine and leavi -/
  | hostConfigWrite (cacheEn bme msixEn d3 : Bool)
  /-- R368: The upstream data link comes up after DL_Down or after a reset and LK_UPSTAT.UP sets, letting consists and host traffic resume. -/
  | hostDlUp (speed : Fin 6) (lanes : Fin 3) (cxl : Bool)
  /-- R484: The service-port PHY link goes down, clearing LK_SVCSTAT.LINK and ending any open debug session. -/
  | serviceLinkDown
  /-- R407: The active condition of a fault ends (VSUP back in range, temperature below its limit, clock or supply restored), clearing its GD_ACT bit so that rele -/
  | faultConditionCleared (id inst : BitVec 8)
  /-- R409: The two compared copies of the guard's reaction logic disagree, the heartbeat stops and the field die later enters limp. -/
  | guardCopyDisagreement
  /-- R441: A rung exit from Stand, Shed or Lantern completes: domains are powered, the control die has restarted, the cores issue their first instruction and vec -/
  | rungExitDone (o : StartOut)
  /-- R485: The random-source health tests pass again and identity signing, blocked by tamper source 5, is unblocked. -/
  | randomSourceRecovery
  deriving DecidableEq, Repr

end Sys2Proof
end

