-- ==== Sys2Proof/Decode.lean ====
section
/-!
DEFINITION. Decoding: the opcode table gives its rows no bits, so no word of it spells a command; and the Felrad-14 decoder
with its encoder, both written from the encoding tables (R253–R257).
-/
namespace Sys2Proof

/-- No row of the opcode table has bits: no word spells a command. -/
def decodeTableWord (_nbits _w : Nat) : Option Instr := none

namespace Machine

/-- Opcodes 0x01–0x0F and 0x11–0x1D (R253). -/
def r2Of (op : Nat) : Option R2 :=
  match op with
  | 0x01 => some .mov | 0x02 => some .add | 0x03 => some .adc | 0x04 => some .sub | 0x05 => some .sbc
  | 0x06 => some .and_ | 0x07 => some .or_ | 0x08 => some .xor_ | 0x09 => some .andn | 0x0A => some .cmp
  | 0x0B => some .tst | 0x0C => some .shl | 0x0D => some .shr | 0x0E => some .asr | 0x0F => some .ror
  | 0x11 => some .mul | 0x12 => some .mulhs | 0x13 => some .mulhu | 0x14 => some .mulq | 0x15 => some .div
  | 0x16 => some .divu | 0x17 => some .mac0 | 0x18 => some .mac1 | 0x19 => some .msu0 | 0x1A => some .msu1
  | 0x1B => some .mfs | 0x1C => some .mts | 0x1D => some .pmwr | _ => none

def r2Code : R2 → Nat
  | .mov => 0x01 | .add => 0x02 | .adc => 0x03 | .sub => 0x04 | .sbc => 0x05 | .and_ => 0x06 | .or_ => 0x07
  | .xor_ => 0x08 | .andn => 0x09 | .cmp => 0x0A | .tst => 0x0B | .shl => 0x0C | .shr => 0x0D | .asr => 0x0E
  | .ror => 0x0F | .mul => 0x11 | .mulhs => 0x12 | .mulhu => 0x13 | .mulq => 0x14 | .div => 0x15 | .divu => 0x16
  | .mac0 => 0x17 | .mac1 => 0x18 | .msu0 => 0x19 | .msu1 => 0x1A | .mfs => 0x1B | .mts => 0x1C | .pmwr => 0x1D

/-- UNARY selectors (R255). -/
def u1Of (ws : Nat) : Option U1 :=
  match ws with
  | 0 => some .neg | 1 => some .not_ | 2 => some .abs | 3 => some .sexb | 4 => some .sexh | 5 => some .zexb
  | 6 => some .zexh | 7 => some .clz | 8 => some .bswap | _ => none

def u1Code : U1 → Nat
  | .neg => 0 | .not_ => 1 | .abs => 2 | .sexb => 3 | .sexh => 4 | .zexb => 5 | .zexh => 6 | .clz => 7 | .bswap => 8

/-- MISC selectors without an operand (R255). -/
def m0Of (wd : Nat) : Option M0 :=
  match wd with
  | 0 => some .nop | 1 => some .pmsync | 2 => some .retx | 3 => some .ret | 4 => some .ei | 5 => some .di
  | 11 => some .brk | 12 => some .wfi | 13 => some .fence | _ => none

def m0Code : M0 → Nat
  | .nop => 0 | .pmsync => 1 | .retx => 2 | .ret => 3 | .ei => 4 | .di => 5 | .brk => 11 | .wfi => 12 | .fence => 13

def imOf (op : Nat) : Option Im :=
  match op with | 0x22 => some .addi | 0x23 => some .andi | 0x24 => some .ori | 0x25 => some .xori | _ => none

def imCode : Im → Nat | .addi => 0x22 | .andi => 0x23 | .ori => 0x24 | .xori => 0x25

def rdOf (op : Nat) : Option Rd :=
  match op with
  | 0x28 => some .ldw | 0x29 => some .ldh | 0x2A => some .ldhu | 0x2B => some .ldb | 0x2C => some .ldbu
  | 0x2D => some .stw | 0x2E => some .sth | 0x2F => some .stb | 0x33 => some .ldrsv | 0x34 => some .stcnd
  | 0x35 => some .tas | _ => none

def rdCode : Rd → Nat
  | .ldw => 0x28 | .ldh => 0x29 | .ldhu => 0x2A | .ldb => 0x2B | .ldbu => 0x2C | .stw => 0x2D | .sth => 0x2E
  | .stb => 0x2F | .ldrsv => 0x33 | .stcnd => 0x34 | .tas => 0x35

def ddOf (op : Nat) : Option Dd :=
  match op with | 0x30 => some .ldd | 0x31 => some .lddu | 0x32 => some .std | _ => none

def ddCode : Dd → Nat | .ldd => 0x30 | .lddu => 0x31 | .std => 0x32

/-- Bits `hi:lo` of a syllable. -/
def sylBits (x : Syl) (hi lo : Nat) : Nat := (x.toNat >>> lo) % 2 ^ (hi + 1 - lo)

/-- A register field of a syllable. -/
def sylReg (x : Syl) (lo : Nat) : Fin 16 := ⟨(x.toNat >>> lo) % 16, Nat.mod_lt _ (by decide)⟩

/-- A one-syllable instruction (R253–R255); 0x00 MISC, 0x10 UNARY, 0x1E TRAP. -/
def decode1 (x : Syl) : Option Fel :=
  let op := sylBits x 13 8
  let d := sylReg x 4
  let s := sylReg x 0
  if op = 0 then
    match d.val with
    | 6 => some (.spill s)
    | 7 => some (.fill s)
    | 8 => some (.rptW s)
    | 9 => some (.jmp s)
    | 10 => some (.call s)
    | n => if s.val = 0 then (m0Of n).map .m0 else none
  else if op = 0x10 then (u1Of s.val).map (fun o => .u1 o d)
  else if op = 0x1E then
    if d.val < 4 then some (.trap ⟨(d.val % 4) * 16 + s.val, by omega⟩) else none
  else (r2Of op).map (fun o => .r2 o d s)

/-- A two-syllable instruction: `y` is X (R253, R254). -/
def decode2 (x y : Syl) : Option Fel :=
  let op := sylBits x 13 8
  let d := sylReg x 4
  let s := sylReg x 0
  let w18 : BitVec 18 := BitVec.ofNat 18 (s.val * 2 ^ 14 + y.toNat)
  let w22 : BitVec 22 := BitVec.ofNat 22 ((d.val * 16 + s.val) * 2 ^ 14 + y.toNat)
  if op = 0x20 then some (.movi d w18)
  else if op = 0x21 then (if s.val = 0 then some (.movsh d y) else none)
  else if op = 0x26 then (if s.val = 0 then some (.cmpi d y) else none)
  else if op = 0x27 then
    if sylBits y 11 6 = 0 then
      some (.shi d s ⟨y.toNat / 2 ^ 12 % 4, Nat.mod_lt _ (by decide)⟩ ⟨y.toNat % 64, Nat.mod_lt _ (by decide)⟩)
    else none
  else if op = 0x36 then some (.bcc d w18)
  else if op = 0x37 then some (.jmpa w22)
  else if op = 0x38 then some (.calla w22)
  else if op = 0x39 then (if d.val = 0 then some (.callr w18) else none)
  else if op = 0x3A then (if d.val = 0 ∧ s.val = 0 then some (.rptN y) else none)
  else if op = 0x3B then
    if d.val = 0 ∧ sylBits y 13 6 = 0 then some (.loop s ⟨y.toNat % 64, Nat.mod_lt _ (by decide)⟩) else none
  else if op = 0x3C ∨ op = 0x3D then
    if sylBits y 13 4 = 0 then
      let b : Fin 8 := ⟨y.toNat % 8, Nat.mod_lt _ (by decide)⟩
      some (if op = 0x3C then .mfb d s b (y.getLsbD 3) else .mtb d s b (y.getLsbD 3))
    else none
  else
    match imOf op, rdOf op, ddOf op with
    | some o, _, _ => some (.im o d s y)
    | _, some o, _ => some (.rd o d s y)
    | _, _, some o => some (.dd o d ⟨s.val / 4 % 4, Nat.mod_lt _ (by decide)⟩ ⟨s.val % 4, Nat.mod_lt _ (by decide)⟩ y)
    | _, _, _ => none

/-- The instruction that syllables `x`, `y` spell; `y` counts only when bit 13 of `x` is 1 (R229). None is an illegal
encoding (R257). -/
def decodeFel (x y : Syl) : Option Fel :=
  match (if x.getLsbD 13 then decode2 x y else decode1 x) with
  | some i => if i.legal then some i else none
  | none => none

/-- The first syllable of an encoding (R260). -/
def syl1 (op d s : Nat) : Syl := BitVec.ofNat 14 (op * 0x100 + d * 0x10 + s)

/-- The two syllables of an instruction; the second is 0 where it has none. -/
def encodeFel : Fel → Syl × Syl
  | .r2 op d s => (syl1 (r2Code op) d s, 0)
  | .u1 op d => (syl1 0x10 d (u1Code op), 0)
  | .m0 op => (syl1 0 (m0Code op) 0, 0)
  | .spill b => (syl1 0 6 b, 0)
  | .fill b => (syl1 0 7 b, 0)
  | .rptW n => (syl1 0 8 n, 0)
  | .jmp n => (syl1 0 9 n, 0)
  | .call n => (syl1 0 10 n, 0)
  | .trap n => (syl1 0x1E (n.val / 16) (n.val % 16), 0)
  | .movi d v => (syl1 0x20 d (v.toNat / 2 ^ 14), v.setWidth 14)
  | .movsh d x => (syl1 0x21 d 0, x)
  | .im op d s x => (syl1 (imCode op) d s, x)
  | .cmpi d x => (syl1 0x26 d 0, x)
  | .shi d s k n => (syl1 0x27 d s, BitVec.ofNat 14 (k.val * 2 ^ 12 + n.val))
  | .rd op d b x => (syl1 (rdCode op) d b, x)
  | .dd op d size db x => (syl1 (ddCode op) d (size.val * 4 + db.val), x)
  | .bcc c off => (syl1 0x36 c (off.toNat / 2 ^ 14), off.setWidth 14)
  | .jmpa t => (syl1 0x37 (t.toNat / 2 ^ 18) (t.toNat / 2 ^ 14 % 16), t.setWidth 14)
  | .calla t => (syl1 0x38 (t.toNat / 2 ^ 18) (t.toNat / 2 ^ 14 % 16), t.setWidth 14)
  | .callr off => (syl1 0x39 0 (off.toNat / 2 ^ 14), off.setWidth 14)
  | .rptN n => (syl1 0x3A 0 0, n)
  | .loop wc len => (syl1 0x3B 0 wc, BitVec.ofNat 14 len.val)
  | .mfb d s b sp => (syl1 0x3C d s, BitVec.ofNat 14 (sp.toNat * 8 + b.val))
  | .mtb d s b sp => (syl1 0x3D d s, BitVec.ofNat 14 (sp.toNat * 8 + b.val))

end Machine
end Sys2Proof
end

