-- ==== Sys2Proof/Config.lean ====
section
/-!
DEFINITION. What the manual leaves open: constants without a body, so that no proof can see their values
(assumptions 1 and 2), and the functions that it names but takes from other standards (assumption 3).
-/
namespace Sys2Proof.Config

/-- A free value: applied to a counter of the state that every use advances, so two uses are unrelated.
DESIGN CHOICE (assumption 1): the manual states no value where this one stands. -/
opaque freeBits : Nat → BitVec 64

/-- SHA-256 (R469, R472): the manual names the standard and does not restate it.  UNVERIFIED (assumption 3): no
statement rests on a property of it. -/
opaque sha256 : List (BitVec 8) → BitVec 256

/-- HSS verification of a message under the bytes of a public key, with the bytes from which the signature is taken
(R470–R472): named by the manual, not restated; so are the parameter sets of R471 (assumption 3). -/
opaque hssVerify : List (BitVec 8) → List (BitVec 8) → List (BitVec 8) → Bool

/-- Byte `i` of the identity key's signature with index `c` of a message (R479, R481; assumption 3). -/
opaque idSign : Nat → List (BitVec 8) → Nat → BitVec 8

/-- Byte `i` of the 60-byte identity public key (R479; assumption 3). -/
opaque idPub : Nat → BitVec 8

/-- What is programmed into the OTP when the device is made (R468): hashes of key slots 0–3, UNHITCH, DEBUG_DISABLE
(assumption 17). -/
opaque otpSlot : Nat → BitVec 256
opaque otpUnhitch : Bool
opaque otpDebugOff : Bool

/-- The bits of a NaN, or of another float result that IEEE 754 and the manual leave open, as a function of the operation
and its operands (assumption 1). -/
opaque nanBits : Nat → BitVec 32 → BitVec 32 → BitVec 32 → BitVec 32

/-- Which operand a float minimum or maximum takes where IEEE 754 leaves it open (assumption 1). -/
opaque freePick : Nat → BitVec 32 → BitVec 32 → Bool

/-- The CRC-32 that a Wenam transfer carries (R18), as a function of what it carries: the manual gives its width, and
neither polynomial nor the bits of a transfer (assumption 119). -/
opaque linkCrc {α : Type} : α → BitVec 32

/-- The selected edges of the clock of external modulator `n` (falling ones or rising ones) before an instant in EU: the
outside world's, in no unit's control (R66; assumption 126). -/
opaque sxEdges : Nat → Bool → Nat → Nat

/-- The taps of the compensation filter of the precise path, which the manual does not give (R78; assumption 9): tap `i` of
the first 16; the filter is symmetric. -/
opaque pFir : Nat → Int

/-- The words of the bogies' ROM that the manual does not give: the bodies of the twelve routines and the words between
the stubs (assumption 1). -/
opaque romWord : Nat → BitVec 144

/-- The gain of the second-order integrator of GRID_PLL, which the manual does not give (R210; assumption 16). -/
opaque sogiGain : BitVec 32

/-- Whether a ROM address lies in the routine of an ID: the manual gives the stubs alone (R193, R194; assumption 1). -/
opaque romHas : Nat → Nat → Bool

/-- The error of a CORDIC result or of another result that the manual gives within bounds only (R179), as a function of
the unit and its operands (assumption 1). -/
opaque errBits : Nat → BitVec 32 → BitVec 32 → BitVec 32 → BitVec 64

end Sys2Proof.Config
end

