-- ==== Sys2Proof/Machine/Bits.lean ====
section
/-!
DEFINITION. Bit fields, sign extension, rounding and saturation: the helpers that the meanings share.
-/
namespace Sys2Proof.Machine

/-- Bits `hi:lo` of a register word (R4, R10), as a number. -/
def bitsOf (w : Word) (hi lo : Nat) : Nat := (w.toNat >>> lo) % 2 ^ (hi + 1 - lo)

/-- Bit `b` of a register word. -/
def bitOf (w : Word) (b : Nat) : Bool := w.getLsbD b

/-- The word whose bits `hi:lo` are ones. -/
def fieldMask (hi lo : Nat) : Word := BitVec.ofNat 32 ((2 ^ (hi + 1 - lo) - 1) <<< lo)

/-- The word with bits `hi:lo` set to `v`. -/
def putBits (w : Word) (hi lo v : Nat) : Word :=
  (w &&& ~~~ fieldMask hi lo) ||| BitVec.ofNat 32 ((v % 2 ^ (hi + 1 - lo)) <<< lo)

/-- The word with bit `b` set to `v`. -/
def setBit (w : Word) (b : Nat) (v : Bool) : Word := putBits w b b v.toNat

/-- The low `n` bits of `v` as a two's complement number (R4). -/
def sxInt (n v : Nat) : Int :=
  let u := v % 2 ^ n
  if u < 2 ^ (n - 1) then (u : Int) else (u : Int) - 2 ^ n

/-- A number as an `n`-bit two's complement pattern. -/
def toBits (n : Nat) (v : Int) : Nat := (v % 2 ^ n).toNat

/-- A number as a 32-bit word. -/
def wordOf (v : Int) : Word := BitVec.ofNat 32 (toBits 32 v)

/-- `a / b` rounded to nearest, ties away from zero (R51, R67). -/
def roundDiv (a : Int) (b : Nat) : Int :=
  if 0 ≤ a then ((2 * a.toNat + b) / (2 * b) : Nat) else - (((2 * (-a).toNat + b) / (2 * b) : Nat) : Int)

/-- `v` limited to `lo` … `hi`. -/
def clampI (lo hi v : Int) : Int := if v < lo then lo else if hi < v then hi else v

/-- `v` limited to `lo` … `hi`. -/
def clampN (lo hi v : Nat) : Nat := if v < lo then lo else if hi < v then hi else v

/-- `⌈a / b⌉`. -/
def ceilDiv (a b : Nat) : Nat := (a + b - 1) / b

/-- The forward difference from angle `a` to angle `b` (R8). -/
def angDiff (a b : Nat) : Nat := (b + 2 ^ 32 - a % 2 ^ 32) % 2 ^ 32

/-- EU in one nanosecond (R5). -/
abbrev euPerNs : Nat := 20

/-- The instant of DT `dt` and edge unit `eu`, counted in EU. -/
def instant (dt eu : Nat) : Nat := dt * euPerNs + eu

/-- `f` applied to `0 … n-1` in rising order. -/
def forUpTo {σ : Type} (n : Nat) (f : Nat → σ → σ) (s : σ) : σ := (List.range n).foldl (fun s i => f i s) s

/-- `f` applied to the members of a list in order. -/
def forEach {α σ : Type} (l : List α) (f : α → σ → σ) (s : σ) : σ := l.foldl (fun s a => f a s) s

/-- The first element that `p` accepts, and the list without it. -/
def takeFirst {α β : Type} (p : α → Option β) : List α → Option (β × List α)
  | [] => none
  | a :: l =>
    match p a with
    | some b => some (b, l)
    | none => match takeFirst p l with
      | some (b, r) => some (b, a :: r)
      | none => none

end Sys2Proof.Machine
end

