-- ==== Sys2Proof/Machine/F32.lean ====
section
/-!
DEFINITION. IEEE 754 binary32: as the bogies compute it, round to nearest even with subnormals flushed to 0 (R178), and
as the map store does, round to nearest even with gradual underflow (R222).  Finite values are dyadic numbers `m · 2^e`; what the standard leaves open (the bits of a NaN, the
minimum of a NaN or of zeros) is a free value that depends on the operands (assumption 1).
-/
namespace Sys2Proof.Machine.F32

/-- A finite value `m · 2^e` (sign in `m`). -/
structure Dy where
  m : Int
  e : Int
  deriving DecidableEq, Repr

/-- The classes of a binary32 word, subnormals flushed (R178). -/
inductive Cls
  | nan
  | inf (neg : Bool)
  | fin (neg : Bool) (mag : Nat) (e : Int)
  deriving DecidableEq, Repr

/-- The class of a word. -/
def cls (w : Word) : Cls :=
  let s := bitOf w 31
  let e := bitsOf w 30 23
  let f := bitsOf w 22 0
  if e = 255 then (if f = 0 then .inf s else .nan)
  else if e = 0 then .fin s 0 0
  else .fin s (f + 2 ^ 23) ((e : Int) - 150)

def isNaN (w : Word) : Bool := bitsOf w 30 23 == 255 && bitsOf w 22 0 != 0
def isFinite (w : Word) : Bool := bitsOf w 30 23 != 255
def isZero (w : Word) : Bool := bitsOf w 30 23 == 0
def signOf (w : Word) : Bool := bitOf w 31

def zero (neg : Bool) : Word := if neg then 0x80000000 else 0
def infinity (neg : Bool) : Word := if neg then 0xFF800000 else 0x7F800000
def one : Word := 0x3F800000

/-- A quiet NaN whose other bits the manual leaves open: a function of the operation and its operands. -/
def nan (op : Nat) (a b c : Word) : Word := 0x7FC00000 ||| (Config.nanBits op a b c &&& 0x803FFFFF)

/-- `num · 2^e`, with `sticky` telling of a nonzero remainder below it, rounded to nearest even. -/
def pack (neg : Bool) (num : Nat) (e : Int) (sticky : Bool) : Word :=
  if num = 0 then zero neg
  else
    -- 26 or more bits, so that the remainder lies below the rounding bit
    let up := if num.log2 < 26 then 26 - num.log2 else 0
    let n := num * 2 ^ up
    let e1 := e - up
    let sh := n.log2 - 23
    let q := n / 2 ^ sh
    let r := n % 2 ^ sh
    let half := 2 ^ (sh - 1)
    let inc := decide (half < r) || (r == half && (sticky || q % 2 == 1))
    let q1 := if inc then q + 1 else q
    let e2 := e1 + sh
    let (q2, e3) := if q1 = 2 ^ 24 then (2 ^ 23, e2 + 1) else (q1, e2)
    let be := e3 + 150
    if 255 ≤ be then infinity neg
    else if be ≤ 0 then zero neg
    else BitVec.ofNat 32 ((if neg then 2 ^ 31 else 0) + be.toNat * 2 ^ 23 + (q2 - 2 ^ 23))

/-- The value of a finite word. -/
def dy (w : Word) : Dy :=
  match cls w with
  | .fin s m e => ⟨if s then -(m : Int) else m, e⟩
  | _ => ⟨0, 0⟩

/-- A dyadic number rounded; `z` is the sign of an exact zero. -/
def ofDy (d : Dy) (z : Bool := false) : Word :=
  if d.m = 0 then zero z else pack (d.m < 0) d.m.natAbs d.e false

def Dy.add (a b : Dy) : Dy :=
  if a.e ≤ b.e then ⟨a.m + b.m * 2 ^ (b.e - a.e).toNat, a.e⟩ else ⟨a.m * 2 ^ (a.e - b.e).toNat + b.m, b.e⟩
def Dy.mul (a b : Dy) : Dy := ⟨a.m * b.m, a.e + b.e⟩
def Dy.neg (a : Dy) : Dy := ⟨-a.m, a.e⟩
def Dy.lt (a b : Dy) : Bool := (a.add b.neg).m < 0

/-- `round(num / den)` for a positive denominator. -/
def ofFrac (num : Int) (den : Nat) : Word :=
  if num = 0 ∨ den = 0 then zero false
  else
    let n := num.natAbs * 2 ^ (den.log2 + 28)
    pack (num < 0) (n / den) (-(den.log2 + 28 : Nat)) (n % den ≠ 0)

/-- A value in units of 2^-32 (or another power) as a fraction: `⌊w · 2^k⌋` rounded to nearest, ties away from zero. -/
def toScaled (w : Word) (k : Nat) : Int :=
  let d := dy w
  let e := d.e + k
  if 0 ≤ e then d.m * 2 ^ e.toNat else roundDiv d.m (2 ^ (-e).toNat)

/-- Negation, magnitude: sign bits alone. -/
def neg (a : Word) : Word := a ^^^ 0x80000000
def abs (a : Word) : Word := a &&& 0x7FFFFFFF

/-- A word with a subnormal flushed. -/
def flush (a : Word) : Word := if isZero a then zero (signOf a) else a

/-- `a · b + c` with one rounding. -/
def fma (a b c : Word) : Word :=
  match cls a, cls b, cls c with
  | .nan, _, _ | _, .nan, _ | _, _, .nan => nan 1 a b c
  | .inf s, .fin t m _, .inf u => if m = 0 ∨ u ≠ (s != t) then nan 1 a b c else c
  | .fin t m _, .inf s, .inf u => if m = 0 ∨ u ≠ (s != t) then nan 1 a b c else c
  | .inf s, .inf t, .inf u => if u = (s != t) then c else nan 1 a b c
  | .inf s, .inf t, _ => infinity (s != t)
  | .inf s, .fin t m _, .fin .. => if m = 0 then nan 1 a b c else infinity (s != t)
  | .fin t m _, .inf s, .fin .. => if m = 0 then nan 1 a b c else infinity (s != t)
  | .fin .., .fin .., .inf _ => c
  | .fin s _ _, .fin t _ _, .fin u _ _ =>
    let p := (dy a).mul (dy b)
    -- an exact zero sum is +0 unless both terms are negative
    ofDy (p.add (dy c)) ((s != t) && u)

def add (a b : Word) : Word := fma a one b
def sub (a b : Word) : Word := add a (neg b)

def mul (a b : Word) : Word :=
  match cls a, cls b with
  | .nan, _ | _, .nan => nan 3 a b 0
  | .inf s, .inf t => infinity (s != t)
  | .inf s, .fin t m _ | .fin t m _, .inf s => if m = 0 then nan 3 a b 0 else infinity (s != t)
  | .fin s _ _, .fin t _ _ => ofDy ((dy a).mul (dy b)) (s != t)

def div (a b : Word) : Word :=
  match cls a, cls b with
  | .nan, _ | _, .nan => nan 4 a b 0
  | .inf _, .inf _ => nan 4 a b 0
  | .inf s, .fin t _ _ => infinity (s != t)
  | .fin s _ _, .inf t => zero (s != t)
  | .fin s m e, .fin t n f =>
    if n = 0 then (if m = 0 then nan 4 a b 0 else infinity (s != t))
    else
      let q := m * 2 ^ 30
      pack (s != t) (q / n) (e - f - 30) (q % n ≠ 0)

/-- The square root; a negative input gives NaN (R177). -/
def sqrt (a : Word) : Word :=
  match cls a with
  | .nan => nan 5 a 0 0
  | .inf s => if s then nan 5 a 0 0 else a
  | .fin s m e =>
    if m = 0 then zero s
    else if s then nan 5 a 0 0
    else
      let (n, x) := if e % 2 = 0 then (m * 2 ^ 40, e - 40) else (m * 2 ^ 41, e - 41)
      let r := Nat.sqrt n
      pack false r (x / 2) (r * r ≠ n)

/-- `a < b`; false when either is a NaN. -/
def lt (a b : Word) : Bool :=
  match cls a, cls b with
  | .nan, _ | _, .nan => false
  | .inf s, .inf t => s && ! t
  | .inf s, .fin .. => s
  | .fin .., .inf t => ! t
  | .fin .., .fin .. => (dy a).lt (dy b)

def le (a b : Word) : Bool := ! isNaN a && ! isNaN b && ! lt b a

/-- Minimum and maximum: with a NaN, or of equal zeros of different sign, the manual states no result. -/
def min (a b : Word) : Word :=
  if isNaN a ∨ isNaN b ∨ (isZero a ∧ isZero b ∧ signOf a ≠ signOf b) then
    (if isNaN a ∧ isNaN b then nan 6 a b 0
     else if isNaN a then (if Config.freePick 6 a b then b else nan 6 a b 0)
     else if isNaN b then (if Config.freePick 6 a b then a else nan 6 a b 0)
     else if Config.freePick 6 a b then flush a else flush b)
  else if lt b a then flush b else flush a

def max (a b : Word) : Word :=
  if isNaN a ∨ isNaN b ∨ (isZero a ∧ isZero b ∧ signOf a ≠ signOf b) then
    (if isNaN a ∧ isNaN b then nan 7 a b 0
     else if isNaN a then (if Config.freePick 7 a b then b else nan 7 a b 0)
     else if isNaN b then (if Config.freePick 7 a b then a else nan 7 a b 0)
     else if Config.freePick 7 a b then flush a else flush b)
  else if lt a b then flush b else flush a

/-- A signed integer as a float. -/
def ofInt (v : Int) : Word := ofDy ⟨v, 0⟩

/-- A float rounded to an integer, ties away from zero, saturated; NaN gives 0 (R178 FTOI). -/
def toInt (a : Word) : Int :=
  match cls a with
  | .nan => 0
  | .inf s => if s then -(2 ^ 31) else 2 ^ 31 - 1
  | .fin .. => clampI (-(2 ^ 31)) (2 ^ 31 - 1) (toScaled a 0)

/-- `a` limited to `lo` … `hi`, with what it met: 1 the lower, 2 the upper bound (R177 LIM). Of a NaN the
manual states no result. -/
def clamp (a lo hi : Word) : Word × Nat :=
  if isNaN a ∨ isNaN lo ∨ isNaN hi then (Config.nanBits 8 a lo hi, 0)
  else if lt hi a then (hi, 2) else if lt a lo then (lo, 1) else (flush a, 0)

/-! ### With gradual underflow: the lookups of the map store (R222) -/

/-- The class of a word, subnormals kept. -/
def clsG (w : Word) : Cls := if bitsOf w 30 23 = 0 then .fin (bitOf w 31) (bitsOf w 22 0) (-149) else cls w

/-- `num · 2^e`, with `sticky` telling of a nonzero remainder below it, rounded to nearest even; below 2^-126 in steps of
2^-149. -/
def packG (neg : Bool) (num : Nat) (e : Int) (sticky : Bool) : Word :=
  if num = 0 then zero neg
  else
    let up := if num.log2 < 26 then 26 - num.log2 else 0
    let n := num * 2 ^ up
    let e1 := e - up
    let sh := Nat.max (n.log2 - 23) (-149 - e1).toNat
    let q := n / 2 ^ sh
    let r := n % 2 ^ sh
    let half := 2 ^ (sh - 1)
    let inc := decide (half < r) || (r == half && (sticky || q % 2 == 1))
    let q1 := if inc then q + 1 else q
    let mag := (e1 + sh + 149).toNat * 2 ^ 23 + q1
    if 255 * 2 ^ 23 ≤ mag then infinity neg else BitVec.ofNat 32 ((if neg then 2 ^ 31 else 0) + mag)

/-- The value of a finite word. -/
def dyG (w : Word) : Dy :=
  match clsG w with
  | .fin s m e => ⟨if s then -(m : Int) else m, e⟩
  | _ => ⟨0, 0⟩

def ofDyG (d : Dy) (z : Bool := false) : Word := if d.m = 0 then zero z else packG (d.m < 0) d.m.natAbs d.e false

/-- `a · b + c` with one rounding: special cases as `fma` treats them. -/
def fmaG (a b c : Word) : Word :=
  match clsG a, clsG b, clsG c with
  | .fin s _ _, .fin t _ _, .fin u _ _ => ofDyG (((dyG a).mul (dyG b)).add (dyG c)) ((s != t) && u)
  | .fin s m _, .inf t, .fin .. | .inf t, .fin s m _, .fin .. => if m = 0 then nan 1 a b c else infinity (s != t)
  | .fin s m _, .inf t, .inf u | .inf t, .fin s m _, .inf u => if m = 0 ∨ u ≠ (s != t) then nan 1 a b c else c
  | _, _, _ => fma a b c

def addG (a b : Word) : Word := fmaG a one b
def subG (a b : Word) : Word := addG a (neg b)

def mulG (a b : Word) : Word :=
  match clsG a, clsG b with
  | .fin s _ _, .fin t _ _ => ofDyG ((dyG a).mul (dyG b)) (s != t)
  | .fin s m _, .inf t | .inf t, .fin s m _ => if m = 0 then nan 3 a b 0 else infinity (s != t)
  | _, _ => mul a b

def divG (a b : Word) : Word :=
  match clsG a, clsG b with
  | .fin s m e, .fin t n f =>
    if n = 0 then (if m = 0 then nan 4 a b 0 else infinity (s != t))
    else
      let q := m * 2 ^ 60
      packG (s != t) (q / n) (e - f - 60) (q % n ≠ 0)
  | _, _ => div a b

/-- `a < b`; false when either is a NaN. -/
def ltG (a b : Word) : Bool :=
  match clsG a, clsG b with
  | .fin .., .fin .. => (dyG a).lt (dyG b)
  | _, _ => lt a b

end Sys2Proof.Machine.F32
end

