-- ==== Sys2Proof/Machine/Addr.lean ====
section
/-!
DEFINITION. The addresses of the registers of the register map, one name per register (BLOCK_NAME of R10), with
the instance number as argument where the manual numbers instances.
-/
namespace Sys2Proof.Machine.A

def TT_CTRL : Nat := 0x80C0000
def TT_FIRED (n : Nat) : Nat := 0x80C0040 + n * 0x4
def TRK_CFG (n : Nat) : Nat := 0x80C0100 + n * 0x40
def TRK_ANG (n : Nat) : Nat := 0x80C0104 + n * 0x40
def TRK_SPD_I (n : Nat) : Nat := 0x80C0108 + n * 0x40
def TRK_SPD_F (n : Nat) : Nat := 0x80C010C + n * 0x40
def TRK_ACC (n : Nat) : Nat := 0x80C0110 + n * 0x40
def TRK_STAT (n : Nat) : Nat := 0x80C0114 + n * 0x40
def TRK_INC_I (n : Nat) : Nat := 0x80C0118 + n * 0x40
def TRK_INC_F (n : Nat) : Nat := 0x80C011C + n * 0x40
def TRK_OFFS (n : Nat) : Nat := 0x80C0120 + n * 0x40
def TRK_WDOG (n : Nat) : Nat := 0x80C0124 + n * 0x40
def TT_CTL (n : Nat) : Nat := 0x80C2000 + n * 0x20
def TT_TGT (n : Nat) : Nat := 0x80C2004 + n * 0x20
def TT_STRIDE (n : Nat) : Nat := 0x80C2008 + n * 0x20
def TT_FBDLY (n : Nat) : Nat := 0x80C200C + n * 0x20
def TT_STAT (n : Nat) : Nat := 0x80C2010 + n * 0x20
def TT_PRED_L (n : Nat) : Nat := 0x80C2014 + n * 0x20
def TT_PRED_H (n : Nat) : Nat := 0x80C2018 + n * 0x20
def TT_ERR (n : Nat) : Nat := 0x80C201C + n * 0x20
def IO_QE_CFG (n : Nat) : Nat := 0x8280000 + n * 0x4
def IO_HL_CFG (n : Nat) : Nat := 0x8280020 + n * 0x4
def IO_EXC_CFG (n : Nat) : Nat := 0x8280040 + n * 0x4
def SN_CFG (n : Nat) : Nat := 0x8220000 + n * 0x80
def SX_CFG (n : Nat) : Nat := 0x8221800 + n * 0x80
def SN_WCFG (n : Nat) : Nat := 0x8220004 + n * 0x80
def SN_WCTL (n : Nat) : Nat := 0x8220008 + n * 0x80
def SN_STAT (n : Nat) : Nat := 0x822000C + n * 0x80
def SN_WRES (n : Nat) : Nat := 0x8220010 + n * 0x80
def SN_WFLG (n : Nat) : Nat := 0x8220014 + n * 0x80
def SN_WLEN (n : Nat) : Nat := 0x8220018 + n * 0x80
def SN_WTS_L (n : Nat) : Nat := 0x822001C + n * 0x80
def SN_WTS_H (n : Nat) : Nat := 0x8220020 + n * 0x80
def SN_PCFG (n : Nat) : Nat := 0x8220024 + n * 0x80
def SN_PRES (n : Nat) : Nat := 0x8220028 + n * 0x80
def SN_FRES (n : Nat) : Nat := 0x822002C + n * 0x80
def SN_DIAG (n : Nat) : Nat := 0x8220030 + n * 0x80
def SN_TRIM0_OFS (n : Nat) : Nat := 0x8220040 + n * 0x80
def SN_TRIM0_GAIN (n : Nat) : Nat := 0x8220044 + n * 0x80
def SN_TRIM1_OFS (n : Nat) : Nat := 0x8220048 + n * 0x80
def SN_TRIM1_GAIN (n : Nat) : Nat := 0x822004C + n * 0x80
def SN_TRIM2_OFS (n : Nat) : Nat := 0x8220050 + n * 0x80
def SN_TRIM2_GAIN (n : Nat) : Nat := 0x8220054 + n * 0x80
def SN_TRIM3_OFS (n : Nat) : Nat := 0x8220058 + n * 0x80
def SN_TRIM3_GAIN (n : Nat) : Nat := 0x822005C + n * 0x80
def SN_CTRL : Nat := 0x8223000
def SN_PC_CFG (n : Nat) : Nat := 0x8223100 + n * 0x20
def SN_PC_K (n : Nat) : Nat := 0x8223104 + n * 0x20
def SN_PC_C0 (n : Nat) : Nat := 0x8223108 + n * 0x20
def SN_PC_TOL (n : Nat) : Nat := 0x822310C + n * 0x20
def SN_PC_STAT (n : Nat) : Nat := 0x8223110 + n * 0x20
def HK_CTRL : Nat := 0x8240000
def HK_STAT : Nat := 0x8240004
def HK_URG : Nat := 0x8240008
def HK_SLOT (n : Nat) : Nat := 0x8240040 + n * 0x4
def HK_RES (n : Nat) : Nat := 0x8240100 + n * 0x10
def HK_TS_L (n : Nat) : Nat := 0x8240104 + n * 0x10
def HK_TS_H (n : Nat) : Nat := 0x8240108 + n * 0x10
def HK_INF (n : Nat) : Nat := 0x824010C + n * 0x10
def PU_CTL (n : Nat) : Nat := 0x8200000 + n * 0x1000
def PU_STAT (n : Nat) : Nat := 0x8200004 + n * 0x1000
def PU_SEAL (n : Nat) : Nat := 0x8200008 + n * 0x1000
def PU_SETREQ (n : Nat) : Nat := 0x820000C + n * 0x1000
def PU_CNT (n : Nat) : Nat := 0x8200010 + n * 0x1000
def PU_PEREFF (n : Nat) : Nat := 0x8200014 + n * 0x1000
def PU_PERA (n : Nat) : Nat := 0x8200018 + n * 0x1000
def PU_IRQEN (n : Nat) : Nat := 0x820001C + n * 0x1000
def PU_PER (n : Nat) : Nat := 0x8200020 + n * 0x1000
def PU_CMPAU (n : Nat) : Nat := 0x8200024 + n * 0x1000
def PU_CMPAD (n : Nat) : Nat := 0x8200028 + n * 0x1000
def PU_CMPBU (n : Nat) : Nat := 0x820002C + n * 0x1000
def PU_CMPBD (n : Nat) : Nat := 0x8200030 + n * 0x1000
def PU_CMPCU (n : Nat) : Nat := 0x8200034 + n * 0x1000
def PU_CMPCD (n : Nat) : Nat := 0x8200038 + n * 0x1000
def PU_TRG0 (n : Nat) : Nat := 0x820003C + n * 0x1000
def PU_TRG1 (n : Nat) : Nat := 0x8200040 + n * 0x1000
def PU_DTRA (n : Nat) : Nat := 0x8200044 + n * 0x1000
def PU_DTFA (n : Nat) : Nat := 0x8200048 + n * 0x1000
def PU_DTRB (n : Nat) : Nat := 0x820004C + n * 0x1000
def PU_DTFB (n : Nat) : Nat := 0x8200050 + n * 0x1000
def PU_DTRC (n : Nat) : Nat := 0x8200054 + n * 0x1000
def PU_DTFC (n : Nat) : Nat := 0x8200058 + n * 0x1000
def PU_MINP (n : Nat) : Nat := 0x820005C + n * 0x1000
def PU_OUTCTL (n : Nat) : Nat := 0x8200060 + n * 0x1000
def PU_WMARK (n : Nat) : Nat := 0x8200064 + n * 0x1000
def PU_DTA_MARGIN (n : Nat) : Nat := 0x8200070 + n * 0x1000
def PU_DTA_MIN (n : Nat) : Nat := 0x8200074 + n * 0x1000
def PU_DTA_MAX (n : Nat) : Nat := 0x8200078 + n * 0x1000
def PU_SFCFG (n : Nat) : Nat := 0x820007C + n * 0x1000
def PU_SFSTAT (n : Nat) : Nat := 0x8200080 + n * 0x1000
def PU_PROP_AH (n : Nat) : Nat := 0x8200084 + n * 0x1000
def PU_PROP_AL (n : Nat) : Nat := 0x8200088 + n * 0x1000
def PU_PROP_BH (n : Nat) : Nat := 0x820008C + n * 0x1000
def PU_PROP_BL (n : Nat) : Nat := 0x8200090 + n * 0x1000
def PU_PROP_CH (n : Nat) : Nat := 0x8200094 + n * 0x1000
def PU_PROP_CL (n : Nat) : Nat := 0x8200098 + n * 0x1000
def PU_EVCFG0 (n : Nat) : Nat := 0x82000A0 + n * 0x1000
def PU_EVCFG1 (n : Nat) : Nat := 0x82000A4 + n * 0x1000
def PU_EVCFG2 (n : Nat) : Nat := 0x82000A8 + n * 0x1000
def PU_EVCFG3 (n : Nat) : Nat := 0x82000AC + n * 0x1000
def PU_ACT_PER (n : Nat) : Nat := 0x8200120 + n * 0x1000
def PU_ACT_CMPAU (n : Nat) : Nat := 0x8200124 + n * 0x1000
def PU_ACT_CMPAD (n : Nat) : Nat := 0x8200128 + n * 0x1000
def PU_ACT_CMPBU (n : Nat) : Nat := 0x820012C + n * 0x1000
def PU_ACT_CMPBD (n : Nat) : Nat := 0x8200130 + n * 0x1000
def PU_ACT_CMPCU (n : Nat) : Nat := 0x8200134 + n * 0x1000
def PU_ACT_CMPCD (n : Nat) : Nat := 0x8200138 + n * 0x1000
def PU_ACT_TRG0 (n : Nat) : Nat := 0x820013C + n * 0x1000
def PU_ACT_TRG1 (n : Nat) : Nat := 0x8200140 + n * 0x1000
def PU_ACT_DTRA (n : Nat) : Nat := 0x8200144 + n * 0x1000
def PU_ACT_DTFA (n : Nat) : Nat := 0x8200148 + n * 0x1000
def PU_ACT_DTRB (n : Nat) : Nat := 0x820014C + n * 0x1000
def PU_ACT_DTFB (n : Nat) : Nat := 0x8200150 + n * 0x1000
def PU_ACT_DTRC (n : Nat) : Nat := 0x8200154 + n * 0x1000
def PU_ACT_DTFC (n : Nat) : Nat := 0x8200158 + n * 0x1000
def PU_ACT_MINP (n : Nat) : Nat := 0x820015C + n * 0x1000
def PU_ACT_OUTCTL (n : Nat) : Nat := 0x8200160 + n * 0x1000
def GP_CTL (n : Nat) : Nat := 0x8210000 + n * 0x100
def GP_STAT (n : Nat) : Nat := 0x8210004 + n * 0x100
def GP_SEAL (n : Nat) : Nat := 0x8210008 + n * 0x100
def GP_SETREQ (n : Nat) : Nat := 0x821000C + n * 0x100
def GP_CNT (n : Nat) : Nat := 0x8210010 + n * 0x100
def GP_PEREFF (n : Nat) : Nat := 0x8210014 + n * 0x100
def GP_PERA (n : Nat) : Nat := 0x8210018 + n * 0x100
def GP_IRQEN (n : Nat) : Nat := 0x821001C + n * 0x100
def GP_PER (n : Nat) : Nat := 0x8210020 + n * 0x100
def GP_CMPU (n : Nat) : Nat := 0x8210024 + n * 0x100
def GP_CMPD (n : Nat) : Nat := 0x8210028 + n * 0x100
def GP_TRG0 (n : Nat) : Nat := 0x821002C + n * 0x100
def GP_TRG1 (n : Nat) : Nat := 0x8210030 + n * 0x100
def GP_MINP (n : Nat) : Nat := 0x8210034 + n * 0x100
def GP_OUTCTL (n : Nat) : Nat := 0x8210038 + n * 0x100
def GP_WMARK (n : Nat) : Nat := 0x821003C + n * 0x100
def GP_EVCFG0 (n : Nat) : Nat := 0x8210040 + n * 0x100
def GP_EVCFG1 (n : Nat) : Nat := 0x8210044 + n * 0x100
def GP_EVCFG2 (n : Nat) : Nat := 0x8210048 + n * 0x100
def GP_EVCFG3 (n : Nat) : Nat := 0x821004C + n * 0x100
def GP_ACT_PER (n : Nat) : Nat := 0x82100A0 + n * 0x100
def GP_ACT_CMPU (n : Nat) : Nat := 0x82100A4 + n * 0x100
def GP_ACT_CMPD (n : Nat) : Nat := 0x82100A8 + n * 0x100
def GP_ACT_TRG0 (n : Nat) : Nat := 0x82100AC + n * 0x100
def GP_ACT_TRG1 (n : Nat) : Nat := 0x82100B0 + n * 0x100
def GP_ACT_MINP (n : Nat) : Nat := 0x82100B4 + n * 0x100
def GP_ACT_OUTCTL (n : Nat) : Nat := 0x82100B8 + n * 0x100
def GP_GSEAL (n : Nat) : Nat := 0x8212000 + n * 0x4
def GP_IRQSRC : Nat := 0x8212020
def CW_CFG (n : Nat) : Nat := 0x8230000 + n * 0x10
def CW_THR (n : Nat) : Nat := 0x8230004 + n * 0x10
def CW_STAT (n : Nat) : Nat := 0x8230008 + n * 0x10
def DW_CFG (n : Nat) : Nat := 0x8230400 + n * 0x10
def DW_THR (n : Nat) : Nat := 0x8230404 + n * 0x10
def DW_STAT (n : Nat) : Nat := 0x8230408 + n * 0x10
def BL_STAT : Nat := 0x8230800
def BL_CLR : Nat := 0x8230804
def BL_IRQEN : Nat := 0x8230808
def BL_SRC (n : Nat) : Nat := 0x8230820 + n * 0x4
def BL_SS_CFG (n : Nat) : Nat := 0x8230A00 + n * 0x10
def BL_SS_ASC (n : Nat) : Nat := 0x8230A04 + n * 0x10
def BL_SS_HYS (n : Nat) : Nat := 0x8230A08 + n * 0x10
def BL_SS_STAT (n : Nat) : Nat := 0x8230A0C + n * 0x10
def CP_STCTL : Nat := 0x8230C00
def CP_STSTAT : Nat := 0x8230C04
def BG_CTRL : Nat := 0x8050000
def BG_RELIEF : Nat := 0x8050004
def BG_RELDT_L : Nat := 0x8050008
def BG_RELDT_H : Nat := 0x805000C
def BG_PPORT_ADDR : Nat := 0x8050010
def BG_PPORT_DATA : Nat := 0x8050014
def BG_PPORT_STAT : Nat := 0x8050018
def BG_IRQEN : Nat := 0x805001C
def BGn_STAT (n : Nat) : Nat := 0x8060000 + n * 0x10000
def BGn_UTIL (n : Nat) : Nat := 0x8060004 + n * 0x10000
def BGn_TGAP (n : Nat) : Nat := 0x8060008 + n * 0x10000
def BGn_OVRB (n : Nat) : Nat := 0x806000C + n * 0x10000
def BGn_CNT_LATE (n : Nat) : Nat := 0x8060010 + n * 0x10000
def BGn_CNT_TRAP (n : Nat) : Nat := 0x8060014 + n * 0x10000
def BGn_CNT_OVLP (n : Nat) : Nat := 0x8060018 + n * 0x10000
def BGn_CNT_SETREF (n : Nat) : Nat := 0x806001C + n * 0x10000
def BGn_CNT_ECC1 (n : Nat) : Nat := 0x8060020 + n * 0x10000
def BGn_CNT_STNW (n : Nat) : Nat := 0x8060024 + n * 0x10000
def BGn_CLR (n : Nat) : Nat := 0x8060028 + n * 0x10000
def BGn_IRQEN (n : Nat) : Nat := 0x806002C + n * 0x10000
def BGn_IRQST (n : Nat) : Nat := 0x8060030 + n * 0x10000
def BG_UC_STAT : Nat := 0x8050100
def BG_UC_PVER : Nat := 0x8050104
def BG_UC_MATCH_A (n : Nat) : Nat := 0x8050200 + n * 0x8
def BG_UC_MATCH_B (n : Nat) : Nat := 0x8050204 + n * 0x8
def BG_UC_K (n : Nat) : Nat := 0x8050400 + n * 0x4
def CTX_CSTAT (n : Nat) : Nat := 0x2000000 + n * 0x400
def CTX_CCTL (n : Nat) : Nat := 0x2000004 + n * 0x400
def CTX_BIND_UNIT (n : Nat) : Nat := 0x2000008 + n * 0x400
def CTX_BIND_SN0 (n : Nat) : Nat := 0x200000C + n * 0x400
def CTX_BIND_SN1 (n : Nat) : Nat := 0x2000010 + n * 0x400
def CTX_BIND_MAP (n : Nat) : Nat := 0x2000014 + n * 0x400
def CTX_TIMING (n : Nat) : Nat := 0x2000018 + n * 0x400
def CTX_DLREL (n : Nat) : Nat := 0x200001C + n * 0x400
def CTX_LIMITS (n : Nat) : Nat := 0x2000020 + n * 0x400
def CTX_REL_DT (n : Nat) : Nat := 0x2000024 + n * 0x400
def CTX_DL_DT (n : Nat) : Nat := 0x2000028 + n * 0x400
def CTX_CMT_DT (n : Nat) : Nat := 0x200002C + n * 0x400
def CTX_ITER (n : Nat) : Nat := 0x2000030 + n * 0x400
def CTX_WBSEQ (n : Nat) : Nat := 0x2000034 + n * 0x400
def CTX_STGMAP (n : Nat) : Nat := 0x2000038 + n * 0x400
def CTX_TPL0 (n : Nat) : Nat := 0x200003C + n * 0x400
def CTX_TPL1 (n : Nat) : Nat := 0x2000040 + n * 0x400
def CTX_TPL2 (n : Nat) : Nat := 0x2000044 + n * 0x400
def CTX_TPL3 (n : Nat) : Nat := 0x2000048 + n * 0x400
def CTX_TPL4 (n : Nat) : Nat := 0x200004C + n * 0x400
def CTX_TPL5 (n : Nat) : Nat := 0x2000050 + n * 0x400
def CTX_TPL6 (n : Nat) : Nat := 0x2000054 + n * 0x400
def CTX_TPL7 (n : Nat) : Nat := 0x2000058 + n * 0x400
def CTX_TPL8 (n : Nat) : Nat := 0x200005C + n * 0x400
def CTX_TPL9 (n : Nat) : Nat := 0x2000060 + n * 0x400
def CTX_TPL10 (n : Nat) : Nat := 0x2000064 + n * 0x400
def CTX_TPL11 (n : Nat) : Nat := 0x2000068 + n * 0x400
def CTX_TPL12 (n : Nat) : Nat := 0x200006C + n * 0x400
def CTX_TPL13 (n : Nat) : Nat := 0x2000070 + n * 0x400
def CTX_TPL14 (n : Nat) : Nat := 0x2000074 + n * 0x400
def CTX_TPL15 (n : Nat) : Nat := 0x2000078 + n * 0x400
def CTX_TPL16 (n : Nat) : Nat := 0x200007C + n * 0x400
def MP_CTRL : Nat := 0x80B0000
def MP_STAT : Nat := 0x80B0004
def MP_AREA_L : Nat := 0x80B0008
def MP_AREA_H : Nat := 0x80B000C
def MP_AREA_SIZE : Nat := 0x80B0010
def MP_PINUSE : Nat := 0x80B0014
def MP_BPUSE : Nat := 0x80B0018
def MP_CNT_HIT : Nat := 0x80B0020
def MP_CNT_MISS : Nat := 0x80B0024
def MP_CNT_FB : Nat := 0x80B0028
def MP_CNT_ECC1 : Nat := 0x80B002C
def MP_CNT_POISON : Nat := 0x80B0030
def MP_CLR : Nat := 0x80B0034
def MP_IRQEN : Nat := 0x80B0038
def MP_IRQST : Nat := 0x80B003C
def DIR_CFG (n : Nat) : Nat := 0x80B1000 + n * 0x40
def DIR_N12 (n : Nat) : Nat := 0x80B1004 + n * 0x40
def DIR_N3 (n : Nat) : Nat := 0x80B1008 + n * 0x40
def DIR_BUFA (n : Nat) : Nat := 0x80B100C + n * 0x40
def DIR_BUFB (n : Nat) : Nat := 0x80B1010 + n * 0x40
def DIR_FALLBACK (n : Nat) : Nat := 0x80B1014 + n * 0x40
def DIR_VERCUR (n : Nat) : Nat := 0x80B1018 + n * 0x40
def DIR_VERALT (n : Nat) : Nat := 0x80B101C + n * 0x40
def DIR_X0_1 (n : Nat) : Nat := 0x80B1020 + n * 0x40
def DIR_DX_1 (n : Nat) : Nat := 0x80B1024 + n * 0x40
def DIR_X0_2 (n : Nat) : Nat := 0x80B1028 + n * 0x40
def DIR_DX_2 (n : Nat) : Nat := 0x80B102C + n * 0x40
def DIR_X0_3 (n : Nat) : Nat := 0x80B1030 + n * 0x40
def DIR_DX_3 (n : Nat) : Nat := 0x80B1034 + n * 0x40
def TD_CTRL : Nat := 0x8020000
def TD_CFG : Nat := 0x8020004
def TD_STAT : Nat := 0x8020008
def TD_WDOG : Nat := 0x802000C
def TD_WDKICK : Nat := 0x8020010
def TD_ROUTE (n : Nat) : Nat := 0x8020020 + n * 0x4
def TD_CNT_HWSTALL : Nat := 0x8020040
def TD_CNT_ICMISSA : Nat := 0x8020044
def TD_CNT_ICMISSB : Nat := 0x8020048
def TD_CNT_ICPAR : Nat := 0x802004C
def TD_SIGA_L : Nat := 0x8020050
def TD_SIGA_H : Nat := 0x8020054
def TD_SIGB_L : Nat := 0x8020058
def TD_SIGB_H : Nat := 0x802005C
def TD_CLR : Nat := 0x8020060
def TD_SSCFG : Nat := 0x8020400
def TD_SSCTX : Nat := 0x8020404
def TD_SSSTAT : Nat := 0x8020408
def TD_SSCLR : Nat := 0x802040C
def TD_SSDEP (n : Nat) : Nat := 0x8020500 + n * 0x4
def YD_TESTCFG : Nat := 0x8030000
def YD_TESTSTAT : Nat := 0x8030004
def YD_TESTERR : Nat := 0x8030008
def YD_ACCERR : Nat := 0x8030010
def YD_ACCADDR : Nat := 0x8030014
def YD_ACCCNT : Nat := 0x8030018
def YD_NVCTL : Nat := 0x8030020
def YD_NVSTAT : Nat := 0x8030024
def YD_NVWEARSEL : Nat := 0x8030028
def YD_NVWEARTH : Nat := 0x8030034
def YD_IRQEN : Nat := 0x8030038
def YD_IRQST : Nat := 0x803003C
def YD_CLR : Nat := 0x8030074
def YD_NVWEARCNT : Nat := 0x803002C
def YD_NVWEARMAX : Nat := 0x8030030
def YD_CONF (n : Nat) : Nat := 0x8030040 + n * 0x4
def YD_NVECC : Nat := 0x8030078
def YD_OWN (n : Nat) : Nat := 0x8030100 + n * 0x20
def YD_HAND (n : Nat) : Nat := 0x8030104 + n * 0x20
def YD_FORCE (n : Nat) : Nat := 0x8030108 + n * 0x20
def YD_ECC (n : Nat) : Nat := 0x803010C + n * 0x20
def YD_COLL (n : Nat) : Nat := 0x8030110 + n * 0x20
def PM_STAT : Nat := 0x8040000
def PM_ECC1 : Nat := 0x8040004
def PM_ECC2ADDR : Nat := 0x8040008
def PM_WEARSEL : Nat := 0x804000C
def PM_WEARCNT : Nat := 0x8040010
def PM_WEARMAX : Nat := 0x8040014
def PM_WEARTH : Nat := 0x8040018
def PM_CLR : Nat := 0x804001C
def TC_CTL (n : Nat) : Nat := 0x8250000 + n * 0x40
def TC_STAT (n : Nat) : Nat := 0x8250004 + n * 0x40
def TC_CNT (n : Nat) : Nat := 0x8250008 + n * 0x40
def TC_LIVE (n : Nat) : Nat := 0x825000C + n * 0x40
def TC_END (n : Nat) : Nat := 0x8250010 + n * 0x40
def TC_RELOAD (n : Nat) : Nat := 0x8250014 + n * 0x40
def TC_CMP0 (n : Nat) : Nat := 0x8250018 + n * 0x40
def TC_CMP1 (n : Nat) : Nat := 0x825001C + n * 0x40
def TC_ACT (n : Nat) : Nat := 0x8250020 + n * 0x40
def TC_TRG (n : Nat) : Nat := 0x8250024 + n * 0x40
def TC_GATE (n : Nat) : Nat := 0x8250028 + n * 0x40
def TC_LINK (n : Nat) : Nat := 0x825002C + n * 0x40
def TC_CAP (n : Nat) : Nat := 0x8250030 + n * 0x40
def TC_IRQEN (n : Nat) : Nat := 0x8250034 + n * 0x40
def TC_CMD (n : Nat) : Nat := 0x8250038 + n * 0x40
def TC_MODE : Nat := 0x8250800
def TC_GSTART_TC : Nat := 0x8250804
def TC_GSTART_PU : Nat := 0x8250808
def TC_GSTART_GP : Nat := 0x825080C
def TC_GSTART : Nat := 0x8250810
def TC_GSTAT : Nat := 0x8250814
def TC_GSTS_L : Nat := 0x8250818
def TC_GSTS_H : Nat := 0x825081C
def LK_CTRL : Nat := 0x8130000
def LK_UPSTAT : Nat := 0x8130004
def LK_FARSTAT : Nat := 0x8130008
def LK_FARCAP : Nat := 0x813000C
def LK_FARBASE : Nat := 0x8130010
def LK_FARTO : Nat := 0x8130014
def LK_PTMCFG : Nat := 0x8130020
def LK_PTMCTL : Nat := 0x8130024
def LK_PTM_DT_L : Nat := 0x8130028
def LK_PTM_DT_H : Nat := 0x813002C
def LK_PTM_HT_L : Nat := 0x8130030
def LK_PTM_HT_H : Nat := 0x8130034
def LK_PTMSTAT : Nat := 0x8130038
def LK_SVCCFG : Nat := 0x8130040
def LK_SVCDST_L : Nat := 0x8130044
def LK_SVCDST_H : Nat := 0x8130048
def LK_SVCSTAT : Nat := 0x813004C
def LK_HIRQ : Nat := 0x8130050
def MSIX_ADDR_L (n : Nat) : Nat := 0x8131000 + n * 0x10
def MSIX_ADDR_H (n : Nat) : Nat := 0x8131004 + n * 0x10
def MSIX_DATA (n : Nat) : Nat := 0x8131008 + n * 0x10
def MSIX_CTRL (n : Nat) : Nat := 0x813100C + n * 0x10
def MSIX_PBA (n : Nat) : Nat := 0x8131800 + n * 0x4
def HQ_CTRL : Nat := 0x80D0000
def HQ_STAT : Nat := 0x80D0004
def HQ_IRQEN : Nat := 0x80D0008
def HQ_IRQST : Nat := 0x80D000C
def HQ_INSTAT : Nat := 0x80D0010
def HQ_CCMPL : Nat := 0x80D0014
def HQ_CNT_WB : Nat := 0x80D0020
def HQ_CNT_REF : Nat := 0x80D0024
def HQ_CNT_FMT : Nat := 0x80D0028
def HQ_CLR : Nat := 0x80D0030
def SQ_BASE_L (n : Nat) : Nat := 0x80D0100 + n * 0x20
def SQ_BASE_H (n : Nat) : Nat := 0x80D0104 + n * 0x20
def SQ_CFG (n : Nat) : Nat := 0x80D0108 + n * 0x20
def SQ_HEAD (n : Nat) : Nat := 0x80D010C + n * 0x20
def SQ_TAIL (n : Nat) : Nat := 0x80D0110 + n * 0x20
def CQ_BASE_L (n : Nat) : Nat := 0x80D0200 + n * 0x20
def CQ_BASE_H (n : Nat) : Nat := 0x80D0204 + n * 0x20
def CQ_CFG (n : Nat) : Nat := 0x80D0208 + n * 0x20
def CQ_HEAD (n : Nat) : Nat := 0x80D020C + n * 0x20
def CQ_TAIL (n : Nat) : Nat := 0x80D0210 + n * 0x20
def KQ_BASE_L (n : Nat) : Nat := 0x80D0300 + n * 0x20
def KQ_BASE_H (n : Nat) : Nat := 0x80D0304 + n * 0x20
def KQ_CFG (n : Nat) : Nat := 0x80D0308 + n * 0x20
def KQ_HEAD (n : Nat) : Nat := 0x80D030C + n * 0x20
def KQ_TAIL (n : Nat) : Nat := 0x80D0310 + n * 0x20
def KQ_DROP (n : Nat) : Nat := 0x80D0314 + n * 0x20
def HQ_INBOX (n : Nat) : Nat := 0x80D1000 + n * 0x4
def CS_BASE_L (n : Nat) : Nat := 0x80E0000 + n * 0x40
def CS_BASE_H (n : Nat) : Nat := 0x80E0004 + n * 0x40
def CS_SET_L (n : Nat) : Nat := 0x80E0008 + n * 0x40
def CS_SET_H (n : Nat) : Nat := 0x80E000C + n * 0x40
def CS_CFG (n : Nat) : Nat := 0x80E0010 + n * 0x40
def CS_PERIOD (n : Nat) : Nat := 0x80E0014 + n * 0x40
def CS_GEN (n : Nat) : Nat := 0x80E0018 + n * 0x40
def CS_DT_L (n : Nat) : Nat := 0x80E001C + n * 0x40
def CS_DT_H (n : Nat) : Nat := 0x80E0020 + n * 0x40
def CS_DROP (n : Nat) : Nat := 0x80E0024 + n * 0x40
def GD_CTRL : Nat := 0x8010000
def GD_STAT : Nat := 0x8010004
def GD_LAST : Nat := 0x8010008
def GD_LAST_DT_L : Nat := 0x801000C
def GD_LAST_DT_H : Nat := 0x8010010
def GD_REL : Nat := 0x8010014
def GD_LOGKEY : Nat := 0x8010018
def GD_LOGKEYIN : Nat := 0x801001C
def GD_LOGCLR : Nat := 0x8010020
def GD_LOGCNT : Nat := 0x8010024
def GD_BOOTNO : Nat := 0x8010028
def GD_IRQEN : Nat := 0x801002C
def GD_IRQST : Nat := 0x8010030
def GD_ACT (n : Nat) : Nat := 0x8010100 + n * 0x4
def GD_REACT_VSUP_UV : Nat := 0x8011004
def GD_REACT_VSUP_OV : Nat := 0x8011008
def GD_REACT_CORE_SUPPLY : Nat := 0x801100C
def GD_REACT_CLK_LOSS : Nat := 0x8011010
def GD_REACT_CLK_DRIFT : Nat := 0x8011014
def GD_REACT_TEMP_CD : Nat := 0x8011018
def GD_REACT_TEMP_FD : Nat := 0x801101C
def GD_REACT_TANDEM_MISMATCH : Nat := 0x8011040
def GD_REACT_TANDEM_STOP : Nat := 0x8011044
def GD_REACT_TANDEM_WDOG : Nat := 0x8011048
def GD_REACT_START_FAIL : Nat := 0x801104C
def GD_REACT_CORE_ECC : Nat := 0x8011050
def GD_REACT_BOGIE_RESIDUE : Nat := 0x8011080
def GD_REACT_BOGIE_UPARITY : Nat := 0x8011084
def GD_REACT_BOGIE_OVERRUN : Nat := 0x8011088
def GD_REACT_BOGIE_CTX_ECC : Nat := 0x801108C
def GD_REACT_BOGIE_LATE : Nat := 0x8011090
def GD_REACT_RELIEF_FAIL : Nat := 0x8011094
def GD_REACT_YARD_ECC2 : Nat := 0x8011100
def GD_REACT_YARD_TEST : Nat := 0x8011104
def GD_REACT_YARD_ACCESS : Nat := 0x8011108
def GD_REACT_PMEM_ECC2 : Nat := 0x801110C
def GD_REACT_MAP_ECC : Nat := 0x8011110
def GD_REACT_NVYARD_WEAR : Nat := 0x8011114
def GD_REACT_LINK_CRC : Nat := 0x8011140
def GD_REACT_COUPLING_LOST : Nat := 0x8011144
def GD_REACT_EPOCH_REJECT : Nat := 0x8011148
def GD_REACT_FIELD_RESET : Nat := 0x801114C
def GD_REACT_BRAKE : Nat := 0x8011180
def GD_REACT_SW_FEEDBACK : Nat := 0x8011184
def GD_REACT_DEADTIME_LIMIT : Nat := 0x8011188
def GD_REACT_SENSE_RANGE : Nat := 0x801118C
def GD_REACT_SENSE_PLAUS : Nat := 0x8011190
def GD_REACT_MOD_STALL : Nat := 0x8011194
def GD_REACT_TRACK_LOST : Nat := 0x8011198
def GD_REACT_COMP_SELFTEST : Nat := 0x801119C
def GD_REACT_HOST_LINK_DOWN : Nat := 0x8011200
def GD_REACT_FAR_LINK_DOWN : Nat := 0x8011204
def GD_REACT_FAR_POISON : Nat := 0x8011208
def GD_REACT_WAYBILL_FORMAT : Nat := 0x801120C
def GD_REACT_BOOT_AUTH : Nat := 0x8011240
def GD_REACT_PATCH_AUTH : Nat := 0x8011244
def GD_REACT_TAMPER : Nat := 0x8011248
def GD_REACT_LMS_STATE : Nat := 0x801124C
def GD_REACT_MARGIN_LOW : Nat := 0x8011280
def GD_REACT_MARGIN_EXHAUSTED : Nat := 0x8011284
def GD_LOGBITS (n : Nat) : Nat := 0x8012000 + n * 0x4
def CPL_CTRL : Nat := 0x8120000
def CPL_STAT : Nat := 0x8120004
def CPL_EPOCH : Nat := 0x8120008
def CPL_FEPOCH : Nat := 0x812000C
def CPL_REJCNT : Nat := 0x8120010
def CPL_NONCE : Nat := 0x8120014
def CPL_IRQEN : Nat := 0x8120018
def CPL_IRQST : Nat := 0x812001C
def FG_STAT : Nat := 0x8260000
def FG_EPOCH : Nat := 0x8260004
def FG_CFG : Nat := 0x8260008
def FG_REJCNT : Nat := 0x826000C
def FG_LOSSCNT : Nat := 0x8260010
def FG_LLCLR : Nat := 0x8260014
def PW_REQ : Nat := 0x8100000
def PW_STAT : Nat := 0x8100004
def PW_DOMSTAT0 : Nat := 0x8100008
def PW_DOMSTAT1 : Nat := 0x810000C
def PW_RESBASE : Nat := 0x8100010
def PW_RESVEC : Nat := 0x8100014
def PW_WAKESRC : Nat := 0x8100018
def PW_WAKEDT_L : Nat := 0x810001C
def PW_WAKEDT_H : Nat := 0x8100020
def PW_IRQEN : Nat := 0x8100024
def PW_IRQST : Nat := 0x8100028
def LN_STAT : Nat := 0x8270000
def LN_WAKEEN : Nat := 0x8270004
def LN_WAKEDIR : Nat := 0x8270008
def LN_WAKEPEND : Nat := 0x827000C
def LN_WAKE : Nat := 0x8270010
def LN_GPAWAKE : Nat := 0x8270014
def LN_LLCTL : Nat := 0x8270028
def LN_LLFPC : Nat := 0x827002C
def LN_PGADDR : Nat := 0x8270030
def LN_PGDATA : Nat := 0x8270034
def LN_MBOX : Nat := 0x8270038
def LN_RTC_L : Nat := 0x8270018
def LN_RTC_H : Nat := 0x827001C
def LN_ALARM_L : Nat := 0x8270020
def LN_ALARM_H : Nat := 0x8270024
def LN_LWCFG (n : Nat) : Nat := 0x8270040 + n * 0x4
def OD_CTRL : Nat := 0x8110000
def OD_CFG : Nat := 0x8110004
def OD_STAT : Nat := 0x8110008
def OD_VCD : Nat := 0x811000C
def OD_CLK : Nat := 0x8110010
def OD_SLACK : Nat := 0x8110014
def OD_SLACKMON : Nat := 0x8110018
def OD_SLACKTH : Nat := 0x811001C
def OD_SLACKLOW : Nat := 0x8110020
def OD_ROTH : Nat := 0x8110024
def OD_PTH : Nat := 0x8110028
def OD_IRQEN : Nat := 0x811002C
def OD_IRQST : Nat := 0x8110030
def OD_PDRIFT (n : Nat) : Nat := 0x8110100 + n * 0x4
def OD_PBASE (n : Nat) : Nat := 0x8110200 + n * 0x4
def SYS_CTRL : Nat := 0x8000000
def SYS_BOOTSTAT : Nat := 0x8000004
def SYS_RSTCAUSE : Nat := 0x8000008
def SYS_ENTRY : Nat := 0x800000C
def SC_STAT : Nat := 0x80F0000
def SC_ARB_L : Nat := 0x80F0004
def SC_ARB_H : Nat := 0x80F0008
def SC_MFVER : Nat := 0x80F000C
def SC_IDCNT : Nat := 0x80F0010
def SC_TAMPER : Nat := 0x80F0014
def SC_DBGSTAT : Nat := 0x80F0018
def SC_RAND : Nat := 0x80F001C
def SC_IRQEN : Nat := 0x80F0020
def SC_IRQST : Nat := 0x80F0024
def SC_IDPUB (n : Nat) : Nat := 0x80F0040 + n * 0x4

end Sys2Proof.Machine.A
end

