-- ==== Sys2Proof/Machine/RegMap.lean ====
section
/-!
DEFINITION. The register map: every register of the register tables of spec/ (R35, R36, R61, R63, R86, R88,
R119, R120, R139, R143, R164, R199, R227, R302, R322, R343, R344, R362, R365, R375, R401, R402, R426, R427, R429,
R446, R447, R457, R467, R487), one row per register or register array: name, address of instance 0, stride,
number of instances, and its fields with the columns of the manual (R10): high bit, low bit, name, type, reset.
Reserved bits have no field: they read 0 and ignore writes (R13).  The access types are those of R11.
-/
namespace Sys2Proof.Machine

/-- The access types of R11. -/
inductive Acc | rw | ro | wo | w1c | w1s | sc | rwl
  deriving DecidableEq, Repr

/-- One field of a register table (R10). -/
structure Fld where
  hi : Nat
  lo : Nat
  name : String
  ty : Acc
  reset : Nat
  deriving DecidableEq, Repr

/-- One register or register array. -/
structure RegRow where
  name : String
  base : Nat
  stride : Nat
  count : Nat
  flds : List Fld
  deriving DecidableEq, Repr

def rows_0200_0 : List RegRow := [
  ⟨"CTX_CSTAT", 0x2000000, 0x400, 64, [⟨31, 29, "MODE", .ro, 0⟩, ⟨28, 28, "LATE", .ro, 0⟩, ⟨27, 27, "LOST", .ro, 0⟩, ⟨26, 26, "PARTIAL", .ro, 0⟩, ⟨25, 25, "DROPPED", .ro, 0⟩, ⟨24, 24, "SETREF", .ro, 0⟩, ⟨23, 23, "RELIEVED", .ro, 0⟩, ⟨22, 22, "CFGERR", .ro, 0⟩, ⟨21, 21, "POISON", .ro, 0⟩, ⟨7, 0, "CSEQ", .ro, 0⟩]⟩,
  ⟨"CTX_CCTL", 0x2000004, 0x400, 64, [⟨31, 29, "MODE", .rw, 0⟩, ⟨28, 28, "DROPLATE", .rw, 0⟩, ⟨7, 0, "ROUTINE", .rw, 0⟩]⟩,
  ⟨"CTX_BIND_UNIT", 0x2000008, 0x400, 64, [⟨31, 30, "KIND", .rw, 0⟩, ⟨29, 26, "UNIT", .rw, 0⟩, ⟨25, 22, "TRK", .rw, 0⟩, ⟨21, 21, "TRKEN", .rw, 0⟩, ⟨20, 20, "EVEN", .rw, 0⟩, ⟨19, 18, "EVL", .rw, 0⟩]⟩,
  ⟨"CTX_BIND_SN0", 0x200000C, 0x400, 64, [⟨31, 0, "S3_S2_S1_S0", .rw, 0⟩]⟩,
  ⟨"CTX_BIND_SN1", 0x2000010, 0x400, 64, [⟨21, 16, "GATHER", .rw, 0⟩, ⟨15, 0, "S5_S4", .rw, 0⟩]⟩,
  ⟨"CTX_BIND_MAP", 0x2000014, 0x400, 64, [⟨31, 0, "M3_M2_M1_M0", .rw, 0⟩]⟩,
  ⟨"CTX_TIMING", 0x2000018, 0x400, 64, [⟨31, 16, "GATHERTO", .rw, 0⟩, ⟨15, 0, "SEALMARG", .rw, 0x28⟩]⟩,
  ⟨"CTX_DLREL", 0x200001C, 0x400, 64, [⟨31, 0, "DLREL", .rw, 0⟩]⟩,
  ⟨"CTX_LIMITS", 0x2000020, 0x400, 64, [⟨15, 8, "LATECNT", .ro, 0⟩, ⟨7, 0, "LATELIM", .rw, 0⟩]⟩,
  ⟨"CTX_REL_DT", 0x2000024, 0x400, 64, [⟨31, 0, "RELDT", .ro, 0⟩]⟩,
  ⟨"CTX_DL_DT", 0x2000028, 0x400, 64, [⟨31, 0, "DLDT", .ro, 0⟩]⟩,
  ⟨"CTX_CMT_DT", 0x200002C, 0x400, 64, [⟨31, 0, "CMTDT", .ro, 0⟩]⟩,
  ⟨"CTX_ITER", 0x2000030, 0x400, 64, [⟨31, 0, "ITER", .ro, 0⟩]⟩,
  ⟨"CTX_WBSEQ", 0x2000034, 0x400, 64, [⟨31, 0, "WBSEQ", .ro, 0⟩]⟩,
  ⟨"CTX_STGMAP", 0x2000038, 0x400, 64, [⟨29, 0, "P5toP0", .rw, 0xC520C41⟩]⟩,
  ⟨"CTX_TPL0", 0x200003C, 0x400, 64, [⟨31, 0, "TPL", .rw, 0⟩]⟩,
  ⟨"CTX_TPL1", 0x2000040, 0x400, 64, [⟨31, 0, "TPL", .rw, 0⟩]⟩,
  ⟨"CTX_TPL2", 0x2000044, 0x400, 64, [⟨31, 0, "TPL", .rw, 0⟩]⟩,
  ⟨"CTX_TPL3", 0x2000048, 0x400, 64, [⟨31, 0, "TPL", .rw, 0⟩]⟩,
  ⟨"CTX_TPL4", 0x200004C, 0x400, 64, [⟨31, 0, "TPL", .rw, 0⟩]⟩,
  ⟨"CTX_TPL5", 0x2000050, 0x400, 64, [⟨31, 0, "TPL", .rw, 0⟩]⟩,
  ⟨"CTX_TPL6", 0x2000054, 0x400, 64, [⟨31, 0, "TPL", .rw, 0⟩]⟩,
  ⟨"CTX_TPL7", 0x2000058, 0x400, 64, [⟨31, 0, "TPL", .rw, 0⟩]⟩,
  ⟨"CTX_TPL8", 0x200005C, 0x400, 64, [⟨31, 0, "TPL", .rw, 0⟩]⟩,
  ⟨"CTX_TPL9", 0x2000060, 0x400, 64, [⟨31, 0, "TPL", .rw, 0⟩]⟩,
  ⟨"CTX_TPL10", 0x2000064, 0x400, 64, [⟨31, 0, "TPL", .rw, 0⟩]⟩,
  ⟨"CTX_TPL11", 0x2000068, 0x400, 64, [⟨31, 0, "TPL", .rw, 0⟩]⟩,
  ⟨"CTX_TPL12", 0x200006C, 0x400, 64, [⟨31, 0, "TPL", .rw, 0⟩]⟩,
  ⟨"CTX_TPL13", 0x2000070, 0x400, 64, [⟨31, 0, "TPL", .rw, 0⟩]⟩,
  ⟨"CTX_TPL14", 0x2000074, 0x400, 64, [⟨31, 0, "TPL", .rw, 0⟩]⟩,
  ⟨"CTX_TPL15", 0x2000078, 0x400, 64, [⟨31, 0, "TPL", .rw, 0⟩]⟩,
  ⟨"CTX_TPL16", 0x200007C, 0x400, 64, [⟨31, 0, "TPL", .rw, 0⟩]⟩]

def rows_0200 : List RegRow := rows_0200_0

def rows_0800_0 : List RegRow := [
  ⟨"SYS_CTRL", 0x8000000, 0x0, 1, [⟨31, 31, "CDRST", .wo, 0⟩, ⟨30, 30, "FDRST", .wo, 0⟩]⟩,
  ⟨"SYS_BOOTSTAT", 0x8000004, 0x0, 1, [⟨31, 31, "DONE", .ro, 0⟩, ⟨30, 30, "HALT", .ro, 0⟩, ⟨29, 29, "CALDEF", .ro, 0⟩, ⟨28, 28, "ROMFAIL", .ro, 0⟩, ⟨3, 0, "STAGE", .ro, 0⟩]⟩,
  ⟨"SYS_RSTCAUSE", 0x8000008, 0x0, 1, [⟨31, 31, "POR", .w1c, 1⟩, ⟨30, 30, "PORST", .w1c, 0⟩, ⟨29, 29, "CDREACT", .w1c, 0⟩, ⟨28, 28, "CDWR", .w1c, 0⟩, ⟨27, 27, "TANDEM", .w1c, 0⟩, ⟨26, 26, "FLR", .w1c, 0⟩, ⟨25, 25, "FIELD", .w1c, 0⟩]⟩,
  ⟨"SYS_ENTRY", 0x800000C, 0x0, 1, [⟨23, 0, "PC", .ro, 0⟩]⟩]

def rows_0800 : List RegRow := rows_0800_0

def rows_0801_0 : List RegRow := [
  ⟨"GD_CTRL", 0x8010000, 0x0, 1, [⟨31, 31, "LOCK", .w1s, 0⟩, ⟨30, 30, "HOSTCLR", .rwl, 0⟩]⟩,
  ⟨"GD_STAT", 0x8010004, 0x0, 1, [⟨31, 31, "LOCKED", .ro, 0⟩, ⟨30, 30, "SAFEALL", .ro, 0⟩, ⟨29, 29, "RELERR", .w1c, 0⟩, ⟨28, 28, "CLRREF", .w1c, 0⟩, ⟨27, 27, "REACTERR", .w1c, 0⟩, ⟨23, 0, "GSAFE", .ro, 0⟩]⟩,
  ⟨"GD_LAST", 0x8010008, 0x0, 1, [⟨31, 31, "VALID", .ro, 0⟩, ⟨18, 16, "REACT", .ro, 0⟩, ⟨15, 8, "ID", .ro, 0⟩, ⟨7, 0, "INST", .ro, 0⟩]⟩,
  ⟨"GD_LAST_DT_L", 0x801000C, 0x0, 1, [⟨31, 0, "DT", .ro, 0⟩]⟩,
  ⟨"GD_LAST_DT_H", 0x8010010, 0x0, 1, [⟨31, 0, "DT", .ro, 0⟩]⟩,
  ⟨"GD_REL", 0x8010014, 0x0, 1, [⟨23, 0, "UNITS", .wo, 0⟩]⟩,
  ⟨"GD_LOGKEY", 0x8010018, 0x0, 1, [⟨31, 0, "KEY", .wo, 0⟩]⟩,
  ⟨"GD_LOGKEYIN", 0x801001C, 0x0, 1, [⟨31, 0, "KEY", .wo, 0⟩]⟩,
  ⟨"GD_LOGCLR", 0x8010020, 0x0, 1, [⟨31, 31, "GO", .wo, 0⟩, ⟨30, 30, "ALLINST", .wo, 0⟩, ⟨29, 29, "ALLID", .wo, 0⟩, ⟨15, 8, "ID", .wo, 0⟩, ⟨7, 0, "INST", .wo, 0⟩]⟩,
  ⟨"GD_LOGCNT", 0x8010024, 0x0, 1, [⟨16, 0, "CNT", .ro, 0⟩]⟩,
  ⟨"GD_BOOTNO", 0x8010028, 0x0, 1, [⟨31, 0, "NO", .ro, 0⟩]⟩,
  ⟨"GD_IRQEN", 0x801002C, 0x0, 1, [⟨8, 0, "IRQ", .rw, 0⟩]⟩,
  ⟨"GD_IRQST", 0x8010030, 0x0, 1, [⟨8, 0, "CAUSE", .w1c, 0⟩]⟩,
  ⟨"GD_ACT", 0x8010100, 0x4, 8, [⟨31, 0, "ACT", .ro, 0⟩]⟩,
  ⟨"GD_REACT_VSUP_UV", 0x8011004, 0x0, 1, [⟨6, 4, "MIN", .ro, 1⟩, ⟨2, 0, "REACT", .rwl, 5⟩]⟩,
  ⟨"GD_REACT_VSUP_OV", 0x8011008, 0x0, 1, [⟨6, 4, "MIN", .ro, 1⟩, ⟨2, 0, "REACT", .rwl, 5⟩]⟩,
  ⟨"GD_REACT_CORE_SUPPLY", 0x801100C, 0x0, 1, [⟨6, 4, "MIN", .ro, 6⟩, ⟨2, 0, "REACT", .rwl, 6⟩]⟩,
  ⟨"GD_REACT_CLK_LOSS", 0x8011010, 0x0, 1, [⟨6, 4, "MIN", .ro, 6⟩, ⟨2, 0, "REACT", .rwl, 6⟩]⟩,
  ⟨"GD_REACT_CLK_DRIFT", 0x8011014, 0x0, 1, [⟨6, 4, "MIN", .ro, 0⟩, ⟨2, 0, "REACT", .rwl, 1⟩]⟩,
  ⟨"GD_REACT_TEMP_CD", 0x8011018, 0x0, 1, [⟨6, 4, "MIN", .ro, 0⟩, ⟨2, 0, "REACT", .rwl, 1⟩]⟩,
  ⟨"GD_REACT_TEMP_FD", 0x801101C, 0x0, 1, [⟨6, 4, "MIN", .ro, 0⟩, ⟨2, 0, "REACT", .rwl, 1⟩]⟩,
  ⟨"GD_REACT_TANDEM_MISMATCH", 0x8011040, 0x0, 1, [⟨6, 4, "MIN", .ro, 2⟩, ⟨2, 0, "REACT", .rwl, 2⟩]⟩,
  ⟨"GD_REACT_TANDEM_STOP", 0x8011044, 0x0, 1, [⟨6, 4, "MIN", .ro, 2⟩, ⟨2, 0, "REACT", .rwl, 2⟩]⟩,
  ⟨"GD_REACT_TANDEM_WDOG", 0x8011048, 0x0, 1, [⟨6, 4, "MIN", .ro, 1⟩, ⟨2, 0, "REACT", .rwl, 2⟩]⟩,
  ⟨"GD_REACT_START_FAIL", 0x801104C, 0x0, 1, [⟨6, 4, "MIN", .ro, 5⟩, ⟨2, 0, "REACT", .rwl, 5⟩]⟩,
  ⟨"GD_REACT_CORE_ECC", 0x8011050, 0x0, 1, [⟨6, 4, "MIN", .ro, 2⟩, ⟨2, 0, "REACT", .rwl, 2⟩]⟩,
  ⟨"GD_REACT_BOGIE_RESIDUE", 0x8011080, 0x0, 1, [⟨6, 4, "MIN", .ro, 3⟩, ⟨2, 0, "REACT", .rwl, 3⟩]⟩,
  ⟨"GD_REACT_BOGIE_UPARITY", 0x8011084, 0x0, 1, [⟨6, 4, "MIN", .ro, 3⟩, ⟨2, 0, "REACT", .rwl, 3⟩]⟩,
  ⟨"GD_REACT_BOGIE_OVERRUN", 0x8011088, 0x0, 1, [⟨6, 4, "MIN", .ro, 3⟩, ⟨2, 0, "REACT", .rwl, 3⟩]⟩,
  ⟨"GD_REACT_BOGIE_CTX_ECC", 0x801108C, 0x0, 1, [⟨6, 4, "MIN", .ro, 3⟩, ⟨2, 0, "REACT", .rwl, 3⟩]⟩,
  ⟨"GD_REACT_BOGIE_LATE", 0x8011090, 0x0, 1, [⟨6, 4, "MIN", .ro, 0⟩, ⟨2, 0, "REACT", .rwl, 1⟩]⟩,
  ⟨"GD_REACT_RELIEF_FAIL", 0x8011094, 0x0, 1, [⟨6, 4, "MIN", .ro, 4⟩, ⟨2, 0, "REACT", .rwl, 4⟩]⟩,
  ⟨"GD_REACT_YARD_ECC2", 0x8011100, 0x0, 1, [⟨6, 4, "MIN", .ro, 0⟩, ⟨2, 0, "REACT", .rwl, 1⟩]⟩,
  ⟨"GD_REACT_YARD_TEST", 0x8011104, 0x0, 1, [⟨6, 4, "MIN", .ro, 0⟩, ⟨2, 0, "REACT", .rwl, 1⟩]⟩,
  ⟨"GD_REACT_YARD_ACCESS", 0x8011108, 0x0, 1, [⟨6, 4, "MIN", .ro, 0⟩, ⟨2, 0, "REACT", .rwl, 0⟩]⟩,
  ⟨"GD_REACT_PMEM_ECC2", 0x801110C, 0x0, 1, [⟨6, 4, "MIN", .ro, 0⟩, ⟨2, 0, "REACT", .rwl, 1⟩]⟩,
  ⟨"GD_REACT_MAP_ECC", 0x8011110, 0x0, 1, [⟨6, 4, "MIN", .ro, 0⟩, ⟨2, 0, "REACT", .rwl, 0⟩]⟩,
  ⟨"GD_REACT_NVYARD_WEAR", 0x8011114, 0x0, 1, [⟨6, 4, "MIN", .ro, 0⟩, ⟨2, 0, "REACT", .rwl, 1⟩]⟩,
  ⟨"GD_REACT_LINK_CRC", 0x8011140, 0x0, 1, [⟨6, 4, "MIN", .ro, 0⟩, ⟨2, 0, "REACT", .rwl, 1⟩]⟩,
  ⟨"GD_REACT_COUPLING_LOST", 0x8011144, 0x0, 1, [⟨6, 4, "MIN", .ro, 1⟩, ⟨2, 0, "REACT", .rwl, 1⟩]⟩]

def rows_0801_1 : List RegRow := [
  ⟨"GD_REACT_EPOCH_REJECT", 0x8011148, 0x0, 1, [⟨6, 4, "MIN", .ro, 0⟩, ⟨2, 0, "REACT", .rwl, 0⟩]⟩,
  ⟨"GD_REACT_FIELD_RESET", 0x801114C, 0x0, 1, [⟨6, 4, "MIN", .ro, 1⟩, ⟨2, 0, "REACT", .rwl, 1⟩]⟩,
  ⟨"GD_REACT_BRAKE", 0x8011180, 0x0, 1, [⟨6, 4, "MIN", .ro, 0⟩, ⟨2, 0, "REACT", .rwl, 1⟩]⟩,
  ⟨"GD_REACT_SW_FEEDBACK", 0x8011184, 0x0, 1, [⟨6, 4, "MIN", .ro, 1⟩, ⟨2, 0, "REACT", .rwl, 4⟩]⟩,
  ⟨"GD_REACT_DEADTIME_LIMIT", 0x8011188, 0x0, 1, [⟨6, 4, "MIN", .ro, 0⟩, ⟨2, 0, "REACT", .rwl, 1⟩]⟩,
  ⟨"GD_REACT_SENSE_RANGE", 0x801118C, 0x0, 1, [⟨6, 4, "MIN", .ro, 0⟩, ⟨2, 0, "REACT", .rwl, 1⟩]⟩,
  ⟨"GD_REACT_SENSE_PLAUS", 0x8011190, 0x0, 1, [⟨6, 4, "MIN", .ro, 0⟩, ⟨2, 0, "REACT", .rwl, 1⟩]⟩,
  ⟨"GD_REACT_MOD_STALL", 0x8011194, 0x0, 1, [⟨6, 4, "MIN", .ro, 1⟩, ⟨2, 0, "REACT", .rwl, 4⟩]⟩,
  ⟨"GD_REACT_TRACK_LOST", 0x8011198, 0x0, 1, [⟨6, 4, "MIN", .ro, 0⟩, ⟨2, 0, "REACT", .rwl, 1⟩]⟩,
  ⟨"GD_REACT_COMP_SELFTEST", 0x801119C, 0x0, 1, [⟨6, 4, "MIN", .ro, 1⟩, ⟨2, 0, "REACT", .rwl, 1⟩]⟩,
  ⟨"GD_REACT_HOST_LINK_DOWN", 0x8011200, 0x0, 1, [⟨6, 4, "MIN", .ro, 0⟩, ⟨2, 0, "REACT", .rwl, 1⟩]⟩,
  ⟨"GD_REACT_FAR_LINK_DOWN", 0x8011204, 0x0, 1, [⟨6, 4, "MIN", .ro, 0⟩, ⟨2, 0, "REACT", .rwl, 1⟩]⟩,
  ⟨"GD_REACT_FAR_POISON", 0x8011208, 0x0, 1, [⟨6, 4, "MIN", .ro, 0⟩, ⟨2, 0, "REACT", .rwl, 0⟩]⟩,
  ⟨"GD_REACT_WAYBILL_FORMAT", 0x801120C, 0x0, 1, [⟨6, 4, "MIN", .ro, 0⟩, ⟨2, 0, "REACT", .rwl, 0⟩]⟩,
  ⟨"GD_REACT_BOOT_AUTH", 0x8011240, 0x0, 1, [⟨6, 4, "MIN", .ro, 5⟩, ⟨2, 0, "REACT", .rwl, 5⟩]⟩,
  ⟨"GD_REACT_PATCH_AUTH", 0x8011244, 0x0, 1, [⟨6, 4, "MIN", .ro, 1⟩, ⟨2, 0, "REACT", .rwl, 1⟩]⟩,
  ⟨"GD_REACT_TAMPER", 0x8011248, 0x0, 1, [⟨6, 4, "MIN", .ro, 1⟩, ⟨2, 0, "REACT", .rwl, 5⟩]⟩,
  ⟨"GD_REACT_LMS_STATE", 0x801124C, 0x0, 1, [⟨6, 4, "MIN", .ro, 1⟩, ⟨2, 0, "REACT", .rwl, 1⟩]⟩,
  ⟨"GD_REACT_MARGIN_LOW", 0x8011280, 0x0, 1, [⟨6, 4, "MIN", .ro, 0⟩, ⟨2, 0, "REACT", .rwl, 1⟩]⟩,
  ⟨"GD_REACT_MARGIN_EXHAUSTED", 0x8011284, 0x0, 1, [⟨6, 4, "MIN", .ro, 0⟩, ⟨2, 0, "REACT", .rwl, 1⟩]⟩,
  ⟨"GD_LOGBITS", 0x8012000, 0x4, 2048, [⟨31, 0, "BITS", .ro, 0⟩]⟩]

def rows_0801 : List RegRow := rows_0801_0 ++ rows_0801_1

def rows_0802_0 : List RegRow := [
  ⟨"TD_CTRL", 0x8020000, 0x0, 1, [⟨31, 31, "SRST", .wo, 0⟩]⟩,
  ⟨"TD_CFG", 0x8020004, 0x0, 1, [⟨31, 31, "CBIST", .rwl, 1⟩, ⟨2, 0, "WIN", .rwl, 2⟩]⟩,
  ⟨"TD_STAT", 0x8020008, 0x0, 1, [⟨31, 31, "UNHITCHED", .ro, 0⟩, ⟨30, 30, "INJOK", .ro, 0⟩, ⟨29, 29, "INJFAIL", .ro, 0⟩, ⟨28, 28, "CFGERR", .ro, 0⟩, ⟨27, 27, "MISMATCH", .w1c, 0⟩, ⟨26, 26, "HWFULL", .w1c, 0⟩, ⟨25, 25, "STOPA", .ro, 0⟩, ⟨24, 24, "STOPB", .ro, 0⟩, ⟨5, 0, "HWCNT", .ro, 0⟩]⟩,
  ⟨"TD_WDOG", 0x802000C, 0x0, 1, [⟨31, 31, "EN", .rwl, 0⟩, ⟨15, 0, "TIME", .rwl, 0⟩]⟩,
  ⟨"TD_WDKICK", 0x8020010, 0x0, 1, [⟨15, 0, "KEY", .wo, 0⟩]⟩,
  ⟨"TD_ROUTE", 0x8020020, 0x4, 8, [⟨31, 0, "CORE", .rw, 0⟩]⟩,
  ⟨"TD_CNT_HWSTALL", 0x8020040, 0x0, 1, [⟨31, 0, "CNT", .ro, 0⟩]⟩,
  ⟨"TD_CNT_ICMISSA", 0x8020044, 0x0, 1, [⟨31, 0, "CNT", .ro, 0⟩]⟩,
  ⟨"TD_CNT_ICMISSB", 0x8020048, 0x0, 1, [⟨31, 0, "CNT", .ro, 0⟩]⟩,
  ⟨"TD_CNT_ICPAR", 0x802004C, 0x0, 1, [⟨31, 0, "CNT", .ro, 0⟩]⟩,
  ⟨"TD_SIGA_L", 0x8020050, 0x0, 1, [⟨31, 0, "SIG", .ro, 0⟩]⟩,
  ⟨"TD_SIGA_H", 0x8020054, 0x0, 1, [⟨31, 0, "SIG", .ro, 0⟩]⟩,
  ⟨"TD_SIGB_L", 0x8020058, 0x0, 1, [⟨31, 0, "SIG", .ro, 0⟩]⟩,
  ⟨"TD_SIGB_H", 0x802005C, 0x0, 1, [⟨31, 0, "SIG", .ro, 0⟩]⟩,
  ⟨"TD_CLR", 0x8020060, 0x0, 1, [⟨0, 0, "CNT", .wo, 0⟩]⟩,
  ⟨"TD_SSCFG", 0x8020400, 0x0, 1, [⟨31, 31, "EN", .rwl, 0⟩, ⟨30, 30, "CFGERR", .ro, 0⟩, ⟨21, 10, "BASE", .rwl, 0⟩, ⟨3, 0, "K", .rwl, 6⟩]⟩,
  ⟨"TD_SSCTX", 0x8020404, 0x0, 1, [⟨19, 16, "CTXB", .rw, 0⟩, ⟨3, 0, "CTXA", .rw, 0⟩]⟩,
  ⟨"TD_SSSTAT", 0x8020408, 0x0, 1, [⟨31, 31, "WRERR", .w1c, 0⟩, ⟨30, 30, "OVFA", .w1c, 0⟩, ⟨29, 29, "OVFB", .w1c, 0⟩]⟩,
  ⟨"TD_SSCLR", 0x802040C, 0x0, 1, [⟨31, 31, "GO", .wo, 0⟩, ⟨5, 0, "CTX", .wo, 0⟩]⟩,
  ⟨"TD_SSDEP", 0x8020500, 0x4, 40, [⟨10, 0, "DEPTH", .ro, 0⟩]⟩]

def rows_0802 : List RegRow := rows_0802_0

def rows_0803_0 : List RegRow := [
  ⟨"YD_TESTCFG", 0x8030000, 0x0, 1, [⟨31, 31, "EN", .rwl, 1⟩, ⟨9, 0, "SWEEP", .rwl, 0x64⟩]⟩,
  ⟨"YD_TESTSTAT", 0x8030004, 0x0, 1, [⟨31, 31, "RUN", .ro, 0⟩, ⟨30, 30, "FAIL", .w1c, 0⟩, ⟨29, 29, "CFGERR", .ro, 0⟩, ⟨19, 16, "YARD", .ro, 0⟩, ⟨11, 0, "WIN", .ro, 0⟩]⟩,
  ⟨"YD_TESTERR", 0x8030008, 0x0, 1, [⟨31, 31, "VALID", .w1c, 0⟩, ⟨30, 30, "SPARED", .ro, 0⟩, ⟨21, 18, "YARD", .ro, 0⟩, ⟨17, 6, "WIN", .ro, 0⟩]⟩,
  ⟨"YD_ACCERR", 0x8030010, 0x0, 1, [⟨31, 31, "VALID", .w1c, 0⟩, ⟨30, 30, "WR", .ro, 0⟩, ⟨7, 4, "MASTER", .ro, 0⟩, ⟨3, 0, "YARD", .ro, 0⟩]⟩,
  ⟨"YD_ACCADDR", 0x8030014, 0x0, 1, [⟨31, 0, "ADDR", .ro, 0⟩]⟩,
  ⟨"YD_ACCCNT", 0x8030018, 0x0, 1, [⟨31, 0, "CNT", .ro, 0⟩]⟩,
  ⟨"YD_NVCTL", 0x8030020, 0x0, 1, [⟨31, 31, "CALWE", .rwl, 0⟩]⟩,
  ⟨"YD_NVSTAT", 0x8030024, 0x0, 1, [⟨31, 31, "BUSY", .ro, 0⟩, ⟨30, 30, "WEAR", .w1c, 0⟩, ⟨29, 26, "CQ", .ro, 0⟩, ⟨25, 23, "GQ", .ro, 0⟩, ⟨10, 0, "MBLK", .ro, 0⟩]⟩,
  ⟨"YD_NVWEARSEL", 0x8030028, 0x0, 1, [⟨10, 0, "BLK", .rw, 0⟩]⟩,
  ⟨"YD_NVWEARTH", 0x8030034, 0x0, 1, [⟨31, 0, "TH", .rwl, 0x17D78400⟩]⟩,
  ⟨"YD_IRQEN", 0x8030038, 0x0, 1, [⟨5, 0, "IRQ", .rw, 0⟩]⟩,
  ⟨"YD_IRQST", 0x803003C, 0x0, 1, [⟨5, 0, "CAUSE", .w1c, 0⟩]⟩,
  ⟨"YD_CLR", 0x8030074, 0x0, 1, [⟨2, 2, "ECC", .wo, 0⟩, ⟨1, 1, "COLL", .wo, 0⟩, ⟨0, 0, "CONF", .wo, 0⟩]⟩,
  ⟨"YD_NVWEARCNT", 0x803002C, 0x0, 1, [⟨31, 0, "CNT", .ro, 0⟩]⟩,
  ⟨"YD_NVWEARMAX", 0x8030030, 0x0, 1, [⟨31, 0, "CNT", .ro, 0⟩]⟩,
  ⟨"YD_CONF", 0x8030040, 0x4, 13, [⟨31, 0, "CNT", .ro, 0⟩]⟩,
  ⟨"YD_NVECC", 0x8030078, 0x0, 1, [⟨31, 16, "ECC2", .ro, 0⟩, ⟨15, 0, "ECC1", .ro, 0⟩]⟩,
  ⟨"YD15_OWN", 0x80302E0, 0x0, 1, [⟨31, 31, "BUSY", .ro, 0⟩, ⟨30, 30, "FORCED", .ro, 0⟩, ⟨29, 29, "WRERR", .w1c, 0⟩, ⟨3, 0, "OWNER", .ro, 0xA⟩]⟩,
  ⟨"YD_OWN", 0x8030100, 0x20, 16, [⟨31, 31, "BUSY", .ro, 0⟩, ⟨30, 30, "FORCED", .ro, 0⟩, ⟨29, 29, "WRERR", .w1c, 0⟩, ⟨3, 0, "OWNER", .ro, 0⟩]⟩,
  ⟨"YD_HAND", 0x8030104, 0x20, 16, [⟨4, 4, "ZERO", .wo, 0⟩, ⟨3, 0, "NEW", .wo, 0⟩]⟩,
  ⟨"YD_FORCE", 0x8030108, 0x20, 16, [⟨4, 4, "ZERO", .wo, 0⟩, ⟨3, 0, "NEW", .wo, 0⟩]⟩,
  ⟨"YD_ECC", 0x803010C, 0x20, 16, [⟨31, 16, "ECC2", .ro, 0⟩, ⟨15, 0, "ECC1", .ro, 0⟩]⟩,
  ⟨"YD_COLL", 0x8030110, 0x20, 16, [⟨31, 0, "CNT", .ro, 0⟩]⟩]

def rows_0803 : List RegRow := rows_0803_0

def rows_0804_0 : List RegRow := [
  ⟨"PM_STAT", 0x8040000, 0x0, 1, [⟨31, 31, "ECC2", .w1c, 0⟩, ⟨30, 30, "WEAR", .w1c, 0⟩, ⟨13, 0, "MBLK", .ro, 0⟩]⟩,
  ⟨"PM_ECC1", 0x8040004, 0x0, 1, [⟨31, 0, "CNT", .ro, 0⟩]⟩,
  ⟨"PM_ECC2ADDR", 0x8040008, 0x0, 1, [⟨23, 0, "ADDR", .ro, 0⟩]⟩,
  ⟨"PM_WEARSEL", 0x804000C, 0x0, 1, [⟨13, 0, "BLK", .rw, 0⟩]⟩,
  ⟨"PM_WEARCNT", 0x8040010, 0x0, 1, [⟨31, 0, "CNT", .ro, 0⟩]⟩,
  ⟨"PM_WEARMAX", 0x8040014, 0x0, 1, [⟨31, 0, "CNT", .ro, 0⟩]⟩,
  ⟨"PM_WEARTH", 0x8040018, 0x0, 1, [⟨31, 0, "TH", .rwl, 0x17D78400⟩]⟩,
  ⟨"PM_CLR", 0x804001C, 0x0, 1, [⟨0, 0, "ECC1", .wo, 0⟩]⟩]

def rows_0804 : List RegRow := rows_0804_0

def rows_0805_0 : List RegRow := [
  ⟨"BG_CTRL", 0x8050000, 0x0, 1, [⟨31, 31, "RELEN", .rwl, 1⟩]⟩,
  ⟨"BG_RELIEF", 0x8050004, 0x0, 1, [⟨31, 29, "STATE", .ro, 0⟩, ⟨28, 27, "FROM", .ro, 0⟩]⟩,
  ⟨"BG_RELDT_L", 0x8050008, 0x0, 1, [⟨31, 0, "DT", .ro, 0⟩]⟩,
  ⟨"BG_RELDT_H", 0x805000C, 0x0, 1, [⟨31, 0, "DT", .ro, 0⟩]⟩,
  ⟨"BG_PPORT_ADDR", 0x8050010, 0x0, 1, [⟨13, 8, "CH", .rw, 0⟩, ⟨7, 0, "WORD", .rw, 0⟩]⟩,
  ⟨"BG_PPORT_DATA", 0x8050014, 0x0, 1, [⟨31, 0, "DATA", .wo, 0⟩]⟩,
  ⟨"BG_PPORT_STAT", 0x8050018, 0x0, 1, [⟨31, 31, "OVF", .w1c, 0⟩, ⟨30, 30, "WERR", .w1c, 0⟩, ⟨6, 0, "PEND", .ro, 0⟩]⟩,
  ⟨"BG_IRQEN", 0x805001C, 0x0, 1, [⟨1, 1, "DONE", .rw, 0⟩, ⟨0, 0, "START", .rw, 0⟩]⟩,
  ⟨"BG_UC_STAT", 0x8050100, 0x0, 1, [⟨31, 31, "LOADED", .ro, 0⟩, ⟨30, 30, "PFAIL", .ro, 0⟩, ⟨29, 29, "ROMOK", .ro, 0⟩, ⟨28, 28, "ROMFAIL", .ro, 0⟩, ⟨25, 16, "NWORDS", .ro, 0⟩, ⟨5, 0, "NMATCH", .ro, 0⟩]⟩,
  ⟨"BG_UC_PVER", 0x8050104, 0x0, 1, [⟨31, 0, "VERSION", .ro, 0⟩]⟩,
  ⟨"BG_UC_MATCH_A", 0x8050200, 0x8, 32, [⟨31, 31, "EN", .ro, 0⟩, ⟨13, 0, "ADDR", .ro, 0⟩]⟩,
  ⟨"BG_UC_MATCH_B", 0x8050204, 0x8, 32, [⟨24, 16, "BASE", .ro, 0⟩, ⟨9, 0, "LEN", .ro, 0⟩]⟩,
  ⟨"BG_UC_K0", 0x8050400, 0x0, 1, [⟨31, 0, "K", .ro, 0⟩]⟩,
  ⟨"BG_UC_K1", 0x8050404, 0x0, 1, [⟨31, 0, "K", .ro, 0x3F800000⟩]⟩,
  ⟨"BG_UC_K2", 0x8050408, 0x0, 1, [⟨31, 0, "K", .ro, 0x3F000000⟩]⟩,
  ⟨"BG_UC_K3", 0x805040C, 0x0, 1, [⟨31, 0, "K", .ro, 0x40000000⟩]⟩,
  ⟨"BG_UC_K4", 0x8050410, 0x0, 1, [⟨31, 0, "K", .ro, 0x3F5DB3D7⟩]⟩,
  ⟨"BG_UC_K5", 0x8050414, 0x0, 1, [⟨31, 0, "K", .ro, 0x3F13CD3A⟩]⟩,
  ⟨"BG_UC_K6", 0x8050418, 0x0, 1, [⟨31, 0, "K", .ro, 0x3F2AAAAB⟩]⟩,
  ⟨"BG_UC_K7", 0x805041C, 0x0, 1, [⟨31, 0, "K", .ro, 0x3EAAAAAB⟩]⟩,
  ⟨"BG_UC_K8", 0x8050420, 0x0, 1, [⟨31, 0, "K", .ro, 0x40C90FDB⟩]⟩,
  ⟨"BG_UC_K9", 0x8050424, 0x0, 1, [⟨31, 0, "K", .ro, 0x4E22F983⟩]⟩,
  ⟨"BG_UC_K10", 0x8050428, 0x0, 1, [⟨31, 0, "K", .ro, 0x30C90FDB⟩]⟩,
  ⟨"BG_UC_K11", 0x805042C, 0x0, 1, [⟨31, 0, "K", .ro, 0x2AAAAAAB⟩]⟩,
  ⟨"BG_UC_K12", 0x8050430, 0x0, 1, [⟨31, 0, "K", .ro, 0x34000000⟩]⟩,
  ⟨"BG_UC_K13", 0x8050434, 0x0, 1, [⟨31, 0, "K", .ro, 0x3F3504F3⟩]⟩,
  ⟨"BG_UC_K14", 0x8050438, 0x0, 1, [⟨31, 0, "K", .ro, 0x7FFFFFFF⟩]⟩,
  ⟨"BG_UC_K15", 0x805043C, 0x0, 1, [⟨31, 0, "K", .ro, 0x80000000⟩]⟩,
  ⟨"BG_UC_K", 0x8050400, 0x4, 64, [⟨31, 0, "K", .ro, 0⟩]⟩]

def rows_0805 : List RegRow := rows_0805_0

def rows_0806_0 : List RegRow := [
  ⟨"BGn_STAT", 0x8060000, 0x10000, 5, [⟨31, 30, "STATE", .ro, 0⟩, ⟨29, 26, "FAULT", .ro, 0⟩, ⟨23, 18, "RUNCH", .ro, 0⟩, ⟨17, 17, "BUSY", .ro, 0⟩, ⟨4, 0, "QDEPTH", .ro, 0⟩]⟩,
  ⟨"BGn_UTIL", 0x8060004, 0x10000, 5, [⟨25, 16, "PEAK", .ro, 0⟩, ⟨9, 0, "UTIL", .ro, 0⟩]⟩,
  ⟨"BGn_TGAP", 0x8060008, 0x10000, 5, [⟨15, 0, "TGAP", .ro, 0⟩]⟩,
  ⟨"BGn_OVRB", 0x806000C, 0x10000, 5, [⟨10, 0, "OVRB", .rwl, 0x7D0⟩]⟩,
  ⟨"BGn_CNT_LATE", 0x8060010, 0x10000, 5, [⟨31, 0, "CNT", .ro, 0⟩]⟩,
  ⟨"BGn_CNT_TRAP", 0x8060014, 0x10000, 5, [⟨31, 0, "CNT", .ro, 0⟩]⟩,
  ⟨"BGn_CNT_OVLP", 0x8060018, 0x10000, 5, [⟨31, 0, "CNT", .ro, 0⟩]⟩,
  ⟨"BGn_CNT_SETREF", 0x806001C, 0x10000, 5, [⟨31, 0, "CNT", .ro, 0⟩]⟩,
  ⟨"BGn_CNT_ECC1", 0x8060020, 0x10000, 5, [⟨31, 0, "CNT", .ro, 0⟩]⟩,
  ⟨"BGn_CNT_STNW", 0x8060024, 0x10000, 5, [⟨31, 0, "CNT", .ro, 0⟩]⟩,
  ⟨"BGn_CLR", 0x8060028, 0x10000, 5, [⟨2, 2, "CNT", .wo, 0⟩, ⟨1, 1, "TGAP", .wo, 0⟩, ⟨0, 0, "PEAK", .wo, 0⟩]⟩,
  ⟨"BGn_IRQEN", 0x806002C, 0x10000, 5, [⟨21, 16, "IRQ1", .rw, 0⟩, ⟨5, 0, "IRQ0", .rw, 0⟩]⟩,
  ⟨"BGn_IRQST", 0x8060030, 0x10000, 5, [⟨5, 0, "CAUSE", .w1c, 0⟩]⟩]

def rows_0806 : List RegRow := rows_0806_0

def rows_080B_0 : List RegRow := [
  ⟨"MP_CTRL", 0x80B0000, 0x0, 1, [⟨31, 31, "EN", .rw, 0⟩]⟩,
  ⟨"MP_STAT", 0x80B0004, 0x0, 1, [⟨31, 31, "READY", .ro, 0⟩, ⟨30, 30, "WRERR", .w1c, 0⟩, ⟨29, 29, "CFGERR", .ro, 0⟩]⟩,
  ⟨"MP_AREA_L", 0x80B0008, 0x0, 1, [⟨31, 16, "BASEL", .rw, 0⟩]⟩,
  ⟨"MP_AREA_H", 0x80B000C, 0x0, 1, [⟨3, 0, "BASEH", .rw, 0⟩]⟩,
  ⟨"MP_AREA_SIZE", 0x80B0010, 0x0, 1, [⟨26, 0, "SIZE", .rw, 0⟩]⟩,
  ⟨"MP_PINUSE", 0x80B0014, 0x0, 1, [⟨14, 0, "LINES", .ro, 0⟩]⟩,
  ⟨"MP_BPUSE", 0x80B0018, 0x0, 1, [⟨14, 0, "BP", .ro, 0⟩]⟩,
  ⟨"MP_CNT_HIT", 0x80B0020, 0x0, 1, [⟨31, 0, "CNT", .ro, 0⟩]⟩,
  ⟨"MP_CNT_MISS", 0x80B0024, 0x0, 1, [⟨31, 0, "CNT", .ro, 0⟩]⟩,
  ⟨"MP_CNT_FB", 0x80B0028, 0x0, 1, [⟨31, 0, "CNT", .ro, 0⟩]⟩,
  ⟨"MP_CNT_ECC1", 0x80B002C, 0x0, 1, [⟨31, 0, "CNT", .ro, 0⟩]⟩,
  ⟨"MP_CNT_POISON", 0x80B0030, 0x0, 1, [⟨31, 0, "CNT", .ro, 0⟩]⟩,
  ⟨"MP_CLR", 0x80B0034, 0x0, 1, [⟨0, 0, "CNT", .wo, 0⟩]⟩,
  ⟨"MP_IRQEN", 0x80B0038, 0x0, 1, [⟨3, 0, "IRQ", .rw, 0⟩]⟩,
  ⟨"MP_IRQST", 0x80B003C, 0x0, 1, [⟨3, 0, "CAUSE", .w1c, 0⟩]⟩,
  ⟨"DIR_CFG", 0x80B1000, 0x40, 256, [⟨31, 29, "STATE", .ro, 0⟩, ⟨28, 28, "CUR", .ro, 0⟩, ⟨27, 27, "HASCUR", .ro, 0⟩, ⟨26, 26, "PIN", .ro, 0⟩, ⟨25, 24, "AXES", .ro, 0⟩, ⟨23, 23, "INTERP", .ro, 0⟩, ⟨22, 22, "FMT", .ro, 0⟩, ⟨21, 17, "FRAC", .ro, 0⟩, ⟨16, 14, "TAB", .ro, 0⟩]⟩,
  ⟨"DIR_N12", 0x80B1004, 0x40, 256, [⟨27, 16, "N2M1", .ro, 0⟩, ⟨11, 0, "N1M1", .ro, 0⟩]⟩,
  ⟨"DIR_N3", 0x80B1008, 0x40, 256, [⟨11, 0, "N3M1", .ro, 0⟩]⟩,
  ⟨"DIR_BUFA", 0x80B100C, 0x40, 256, [⟨31, 0, "OFS", .ro, 0⟩]⟩,
  ⟨"DIR_BUFB", 0x80B1010, 0x40, 256, [⟨31, 0, "OFS", .ro, 0⟩]⟩,
  ⟨"DIR_FALLBACK", 0x80B1014, 0x40, 256, [⟨31, 0, "FB", .ro, 0⟩]⟩,
  ⟨"DIR_VERCUR", 0x80B1018, 0x40, 256, [⟨31, 0, "VER", .ro, 0⟩]⟩,
  ⟨"DIR_VERALT", 0x80B101C, 0x40, 256, [⟨31, 0, "VER", .ro, 0⟩]⟩,
  ⟨"DIR_X0_1", 0x80B1020, 0x40, 256, [⟨31, 0, "X", .ro, 0⟩]⟩,
  ⟨"DIR_DX_1", 0x80B1024, 0x40, 256, [⟨31, 0, "X", .ro, 0⟩]⟩,
  ⟨"DIR_X0_2", 0x80B1028, 0x40, 256, [⟨31, 0, "X", .ro, 0⟩]⟩,
  ⟨"DIR_DX_2", 0x80B102C, 0x40, 256, [⟨31, 0, "X", .ro, 0⟩]⟩,
  ⟨"DIR_X0_3", 0x80B1030, 0x40, 256, [⟨31, 0, "X", .ro, 0⟩]⟩,
  ⟨"DIR_DX_3", 0x80B1034, 0x40, 256, [⟨31, 0, "X", .ro, 0⟩]⟩]

def rows_080B : List RegRow := rows_080B_0

def rows_080C_0 : List RegRow := [
  ⟨"TT_CTRL", 0x80C0000, 0x0, 1, [⟨0, 0, "EN", .rw, 0⟩]⟩,
  ⟨"TT_FIRED", 0x80C0040, 0x4, 16, [⟨31, 0, "FIRED", .w1c, 0⟩]⟩,
  ⟨"TRK0_CFG", 0x80C0100, 0x0, 1, [⟨31, 31, "EN", .ro, 1⟩, ⟨30, 28, "SRC", .ro, 0⟩, ⟨27, 24, "INST", .ro, 0⟩, ⟨21, 16, "WRCH", .ro, 0⟩, ⟨15, 14, "AVG", .ro, 0⟩, ⟨13, 13, "ZREQ", .ro, 1⟩, ⟨12, 12, "ZEN", .ro, 0⟩, ⟨7, 0, "STALL", .ro, 0⟩]⟩,
  ⟨"TRK_CFG", 0x80C0100, 0x40, 16, [⟨31, 31, "EN", .rw, 0⟩, ⟨30, 28, "SRC", .rw, 0⟩, ⟨27, 24, "INST", .rw, 0⟩, ⟨21, 16, "WRCH", .rw, 0⟩, ⟨15, 14, "AVG", .rw, 0⟩, ⟨13, 13, "ZREQ", .rw, 1⟩, ⟨12, 12, "ZEN", .rw, 0⟩, ⟨7, 0, "STALL", .rw, 0⟩]⟩,
  ⟨"TRK_ANG", 0x80C0104, 0x40, 16, [⟨31, 0, "ANGLE", .ro, 0⟩]⟩,
  ⟨"TRK_SPD_I", 0x80C0108, 0x40, 16, [⟨31, 0, "SPDI", .ro, 0⟩]⟩,
  ⟨"TRK_SPD_F", 0x80C010C, 0x40, 16, [⟨31, 0, "SPDF", .ro, 0⟩]⟩,
  ⟨"TRK_ACC", 0x80C0110, 0x40, 16, [⟨31, 0, "ACC", .ro, 0⟩]⟩,
  ⟨"TRK0_STAT", 0x80C0114, 0x0, 1, [⟨31, 31, "LOST", .ro, 0⟩, ⟨30, 30, "DIR", .ro, 0⟩, ⟨29, 29, "STALL", .ro, 0⟩, ⟨28, 28, "LOSTEV", .w1c, 0⟩, ⟨27, 27, "ZSEEN", .ro, 0⟩, ⟨26, 26, "RECOV", .w1c, 0⟩, ⟨25, 25, "WRREJ", .w1c, 0⟩]⟩,
  ⟨"TRK_STAT", 0x80C0114, 0x40, 16, [⟨31, 31, "LOST", .ro, 1⟩, ⟨30, 30, "DIR", .ro, 0⟩, ⟨29, 29, "STALL", .ro, 0⟩, ⟨28, 28, "LOSTEV", .w1c, 0⟩, ⟨27, 27, "ZSEEN", .ro, 0⟩, ⟨26, 26, "RECOV", .w1c, 0⟩, ⟨25, 25, "WRREJ", .w1c, 0⟩]⟩,
  ⟨"TRK_INC_I", 0x80C0118, 0x40, 16, [⟨31, 0, "INCI", .rw, 0⟩]⟩,
  ⟨"TRK_INC_F", 0x80C011C, 0x40, 16, [⟨31, 0, "INCF", .rw, 0⟩]⟩,
  ⟨"TRK_OFFS", 0x80C0120, 0x40, 16, [⟨31, 0, "OFFS", .rw, 0⟩]⟩,
  ⟨"TRK_WDOG", 0x80C0124, 0x40, 16, [⟨15, 0, "WDOG", .rw, 0⟩]⟩,
  ⟨"TT_CTL", 0x80C2000, 0x20, 512, [⟨31, 31, "EN", .rw, 0⟩, ⟨29, 28, "DIR", .rw, 0⟩, ⟨27, 24, "TRK", .rw, 0⟩, ⟨23, 20, "ACT", .rw, 0⟩, ⟨19, 12, "DIV", .rw, 0⟩, ⟨11, 4, "DEST", .rw, 0⟩, ⟨3, 0, "ARG", .rw, 0⟩]⟩,
  ⟨"TT_TGT", 0x80C2004, 0x20, 512, [⟨31, 0, "TGT", .rw, 0⟩]⟩,
  ⟨"TT_STRIDE", 0x80C2008, 0x20, 512, [⟨31, 0, "STRIDE", .rw, 0⟩]⟩,
  ⟨"TT_FBDLY", 0x80C200C, 0x20, 512, [⟨31, 0, "FBDLY", .rw, 0⟩]⟩,
  ⟨"TT_STAT", 0x80C2010, 0x20, 512, [⟨31, 31, "FIRED", .w1c, 0⟩, ⟨30, 30, "COMMITTED", .ro, 0⟩, ⟨29, 29, "REVFIRE", .w1c, 0⟩, ⟨28, 28, "LOSTFIRE", .w1c, 0⟩, ⟨27, 27, "NEAR", .w1c, 0⟩, ⟨26, 26, "LATEFIRE", .w1c, 0⟩, ⟨25, 25, "HELD", .ro, 0⟩, ⟨24, 24, "CFGERR", .ro, 0⟩, ⟨23, 23, "CANCEL", .w1c, 0⟩, ⟨22, 15, "SKIP", .ro, 0⟩, ⟨4, 0, "PREDEU", .ro, 0⟩]⟩,
  ⟨"TT_PRED_L", 0x80C2014, 0x20, 512, [⟨31, 0, "PREDL", .ro, 0xFFFFFFFF⟩]⟩,
  ⟨"TT_PRED_H", 0x80C2018, 0x20, 512, [⟨31, 0, "PREDH", .ro, 0xFFFFFFFF⟩]⟩,
  ⟨"TT_ERR", 0x80C201C, 0x20, 512, [⟨31, 0, "ERR", .ro, 0⟩]⟩]

def rows_080C : List RegRow := rows_080C_0

def rows_080D_0 : List RegRow := [
  ⟨"HQ_CTRL", 0x80D0000, 0x0, 1, [⟨31, 31, "ENABLE", .rw, 0⟩, ⟨3, 0, "YARD", .rw, 0⟩]⟩,
  ⟨"HQ_STAT", 0x80D0004, 0x0, 1, [⟨31, 31, "RUN", .ro, 0⟩, ⟨30, 30, "YDERR", .ro, 0⟩, ⟨29, 29, "PHERR", .w1c, 0⟩, ⟨28, 28, "FMT", .w1c, 0⟩, ⟨23, 16, "STOPPED", .ro, 0⟩, ⟨6, 0, "PEND", .ro, 0⟩]⟩,
  ⟨"HQ_IRQEN", 0x80D0008, 0x0, 1, [⟨5, 0, "IRQ", .rw, 0⟩]⟩,
  ⟨"HQ_IRQST", 0x80D000C, 0x0, 1, [⟨5, 0, "CAUSE", .w1c, 0⟩]⟩,
  ⟨"HQ_INSTAT", 0x80D0010, 0x0, 1, [⟨20, 16, "COUNT", .ro, 0⟩, ⟨3, 0, "HEAD", .ro, 0⟩]⟩,
  ⟨"HQ_CCMPL", 0x80D0014, 0x0, 1, [⟨31, 31, "GO", .wo, 0⟩, ⟨23, 20, "REASON", .wo, 0⟩, ⟨7, 0, "STATUS", .wo, 0⟩]⟩,
  ⟨"HQ_CNT_WB", 0x80D0020, 0x0, 1, [⟨31, 0, "CNT", .ro, 0⟩]⟩,
  ⟨"HQ_CNT_REF", 0x80D0024, 0x0, 1, [⟨31, 0, "CNT", .ro, 0⟩]⟩,
  ⟨"HQ_CNT_FMT", 0x80D0028, 0x0, 1, [⟨31, 0, "CNT", .ro, 0⟩]⟩,
  ⟨"HQ_CLR", 0x80D0030, 0x0, 1, [⟨0, 0, "CNT", .wo, 0⟩]⟩,
  ⟨"SQ_BASE_L", 0x80D0100, 0x20, 8, [⟨31, 6, "ADDR", .rw, 0⟩]⟩,
  ⟨"SQ_BASE_H", 0x80D0104, 0x20, 8, [⟨31, 0, "ADDR", .rw, 0⟩]⟩,
  ⟨"SQ_CFG", 0x80D0108, 0x20, 8, [⟨31, 31, "EN", .rw, 0⟩, ⟨30, 30, "STOP", .w1c, 0⟩, ⟨11, 8, "SIZE", .rw, 4⟩, ⟨6, 4, "CQ", .rw, 0⟩, ⟨0, 0, "CS", .rw, 0⟩]⟩,
  ⟨"SQ_HEAD", 0x80D010C, 0x20, 8, [⟨11, 0, "INDEX", .ro, 0⟩]⟩,
  ⟨"SQ_TAIL", 0x80D0110, 0x20, 8, [⟨11, 0, "INDEX", .ro, 0⟩]⟩,
  ⟨"CQ_BASE_L", 0x80D0200, 0x20, 8, [⟨31, 6, "ADDR", .rw, 0⟩]⟩,
  ⟨"CQ_BASE_H", 0x80D0204, 0x20, 8, [⟨31, 0, "ADDR", .rw, 0⟩]⟩,
  ⟨"CQ_CFG", 0x80D0208, 0x20, 8, [⟨31, 31, "EN", .rw, 0⟩, ⟨30, 30, "IRQ", .rw, 0⟩, ⟨11, 8, "SIZE", .rw, 4⟩, ⟨5, 0, "VEC", .rw, 0⟩]⟩,
  ⟨"CQ_HEAD", 0x80D020C, 0x20, 8, [⟨11, 0, "INDEX", .ro, 0⟩]⟩,
  ⟨"CQ_TAIL", 0x80D0210, 0x20, 8, [⟨31, 31, "PHASE", .ro, 1⟩, ⟨11, 0, "INDEX", .ro, 0⟩]⟩,
  ⟨"KQ_BASE_L", 0x80D0300, 0x20, 4, [⟨31, 6, "ADDR", .rw, 0⟩]⟩,
  ⟨"KQ_BASE_H", 0x80D0304, 0x20, 4, [⟨31, 0, "ADDR", .rw, 0⟩]⟩,
  ⟨"KQ_CFG", 0x80D0308, 0x20, 4, [⟨31, 31, "EN", .rw, 0⟩, ⟨30, 30, "IRQ", .rw, 0⟩, ⟨29, 29, "RUN", .ro, 0⟩, ⟨11, 8, "SIZE", .rw, 4⟩, ⟨5, 0, "VEC", .rw, 0⟩]⟩,
  ⟨"KQ_HEAD", 0x80D030C, 0x20, 4, [⟨11, 0, "INDEX", .ro, 0⟩]⟩,
  ⟨"KQ_TAIL", 0x80D0310, 0x20, 4, [⟨11, 0, "INDEX", .ro, 0⟩]⟩,
  ⟨"KQ_DROP", 0x80D0314, 0x20, 4, [⟨31, 0, "CNT", .ro, 0⟩]⟩,
  ⟨"HQ_INBOX", 0x80D1000, 0x4, 256, [⟨31, 0, "WORD", .ro, 0⟩]⟩]

def rows_080D : List RegRow := rows_080D_0

def rows_080E_0 : List RegRow := [
  ⟨"CS_BASE_L", 0x80E0000, 0x40, 2, [⟨31, 6, "ADDR", .rw, 0⟩]⟩,
  ⟨"CS_BASE_H", 0x80E0004, 0x40, 2, [⟨31, 0, "ADDR", .rw, 0⟩]⟩,
  ⟨"CS_SET_L", 0x80E0008, 0x40, 2, [⟨31, 0, "SET", .rw, 0⟩]⟩,
  ⟨"CS_SET_H", 0x80E000C, 0x40, 2, [⟨31, 0, "SET", .rw, 0⟩]⟩,
  ⟨"CS_CFG", 0x80E0010, 0x40, 2, [⟨31, 31, "EN", .rw, 0⟩, ⟨30, 30, "IRQ", .rw, 0⟩, ⟨29, 29, "CFGERR", .ro, 0⟩, ⟨13, 8, "VEC", .rw, 0⟩, ⟨6, 0, "NSLOT", .rw, 2⟩]⟩,
  ⟨"CS_PERIOD", 0x80E0014, 0x40, 2, [⟨31, 0, "PERIOD", .rw, 0⟩]⟩,
  ⟨"CS_GEN", 0x80E0018, 0x40, 2, [⟨31, 0, "GEN", .ro, 0⟩]⟩,
  ⟨"CS_DT_L", 0x80E001C, 0x40, 2, [⟨31, 0, "DT", .ro, 0⟩]⟩,
  ⟨"CS_DT_H", 0x80E0020, 0x40, 2, [⟨31, 0, "DT", .ro, 0⟩]⟩,
  ⟨"CS_DROP", 0x80E0024, 0x40, 2, [⟨31, 0, "CNT", .ro, 0⟩]⟩]

def rows_080E : List RegRow := rows_080E_0

def rows_080F_0 : List RegRow := [
  ⟨"SC_STAT", 0x80F0000, 0x0, 1, [⟨31, 31, "FULLBOOT", .ro, 0⟩, ⟨30, 30, "FASTBOOT", .ro, 0⟩, ⟨29, 29, "SEALED", .ro, 0⟩, ⟨28, 28, "ARBFULL", .ro, 0⟩, ⟨27, 27, "DBGOPEN", .ro, 0⟩, ⟨26, 26, "IDBLOCK", .ro, 0⟩, ⟨25, 22, "REVOKED", .ro, 0⟩, ⟨21, 18, "PROG", .ro, 0⟩, ⟨17, 16, "BSLOT", .ro, 0⟩, ⟨2, 0, "FAILINST", .ro, 0⟩]⟩,
  ⟨"SC_ARB_L", 0x80F0004, 0x0, 1, [⟨31, 0, "ARB", .ro, 0⟩]⟩,
  ⟨"SC_ARB_H", 0x80F0008, 0x0, 1, [⟨31, 0, "ARB", .ro, 0⟩]⟩,
  ⟨"SC_MFVER", 0x80F000C, 0x0, 1, [⟨31, 0, "VER", .ro, 0⟩]⟩,
  ⟨"SC_IDCNT", 0x80F0010, 0x0, 1, [⟨20, 0, "NEXT", .ro, 0⟩]⟩,
  ⟨"SC_TAMPER", 0x80F0014, 0x0, 1, [⟨5, 0, "SRC", .w1c, 0⟩]⟩,
  ⟨"SC_DBGSTAT", 0x80F0018, 0x0, 1, [⟨31, 28, "PERM", .ro, 0⟩, ⟨21, 0, "REM", .ro, 0⟩]⟩,
  ⟨"SC_RAND", 0x80F001C, 0x0, 1, [⟨31, 0, "RND", .ro, 0⟩]⟩,
  ⟨"SC_IRQEN", 0x80F0020, 0x0, 1, [⟨3, 0, "IRQ", .rw, 0⟩]⟩,
  ⟨"SC_IRQST", 0x80F0024, 0x0, 1, [⟨3, 0, "CAUSE", .w1c, 0⟩]⟩,
  ⟨"SC_IDPUB", 0x80F0040, 0x4, 15, [⟨31, 0, "KEY", .ro, 0⟩]⟩]

def rows_080F : List RegRow := rows_080F_0

def rows_0810_0 : List RegRow := [
  ⟨"PW_REQ", 0x8100000, 0x0, 1, [⟨31, 31, "GO", .wo, 0⟩, ⟨2, 0, "RUNG", .wo, 0⟩]⟩,
  ⟨"PW_STAT", 0x8100004, 0x0, 1, [⟨31, 29, "RUNG", .ro, 0⟩, ⟨28, 26, "LAST", .ro, 0⟩, ⟨25, 25, "REFUSED", .w1c, 0⟩, ⟨24, 22, "REASON", .ro, 0⟩, ⟨21, 21, "ABORT", .w1c, 0⟩, ⟨20, 20, "RESUMEOK", .ro, 0⟩, ⟨19, 19, "RESFAIL", .w1c, 0⟩, ⟨18, 18, "FORCED", .w1c, 0⟩]⟩,
  ⟨"PW_DOMSTAT0", 0x8100008, 0x0, 1, [⟨31, 0, "CD", .ro, 0⟩]⟩,
  ⟨"PW_DOMSTAT1", 0x810000C, 0x0, 1, [⟨15, 0, "FD", .ro, 0⟩]⟩,
  ⟨"PW_RESBASE", 0x8100010, 0x0, 1, [⟨31, 31, "EN", .rw, 0⟩, ⟨21, 16, "BASE", .rw, 0⟩]⟩,
  ⟨"PW_RESVEC", 0x8100014, 0x0, 1, [⟨23, 0, "PC", .rw, 0⟩]⟩,
  ⟨"PW_WAKESRC", 0x8100018, 0x0, 1, [⟨15, 0, "SRC", .ro, 0⟩]⟩,
  ⟨"PW_WAKEDT_L", 0x810001C, 0x0, 1, [⟨31, 0, "DT", .ro, 0⟩]⟩,
  ⟨"PW_WAKEDT_H", 0x8100020, 0x0, 1, [⟨31, 0, "DT", .ro, 0⟩]⟩,
  ⟨"PW_IRQEN", 0x8100024, 0x0, 1, [⟨3, 0, "IRQ", .rw, 0⟩]⟩,
  ⟨"PW_IRQST", 0x8100028, 0x0, 1, [⟨3, 0, "CAUSE", .w1c, 0⟩]⟩]

def rows_0810 : List RegRow := rows_0810_0

def rows_0811_0 : List RegRow := [
  ⟨"OD_CTRL", 0x8110000, 0x0, 1, [⟨31, 31, "AUTO", .rwl, 1⟩, ⟨30, 30, "PCAP", .wo, 0⟩]⟩,
  ⟨"OD_CFG", 0x8110004, 0x0, 1, [⟨6, 0, "PER", .rwl, 0xA⟩]⟩,
  ⟨"OD_STAT", 0x8110008, 0x0, 1, [⟨31, 30, "MARGIN", .ro, 0⟩, ⟨29, 29, "CONSENT", .ro, 0⟩, ⟨28, 28, "CLKREF", .w1c, 0⟩]⟩,
  ⟨"OD_VCD", 0x811000C, 0x0, 1, [⟨11, 8, "FLOOR", .rwl, 0⟩, ⟨3, 0, "CODE", .ro, 0⟩]⟩,
  ⟨"OD_CLK", 0x8110010, 0x0, 1, [⟨0, 0, "SEL", .rw, 0⟩]⟩,
  ⟨"OD_SLACK", 0x8110014, 0x0, 1, [⟨31, 0, "PS", .ro, 0⟩]⟩,
  ⟨"OD_SLACKMON", 0x8110018, 0x0, 1, [⟨5, 0, "OM", .ro, 0⟩]⟩,
  ⟨"OD_SLACKTH", 0x811001C, 0x0, 1, [⟨19, 12, "HYS", .rwl, 0x14⟩, ⟨7, 0, "TARGET", .rwl, 0x3C⟩]⟩,
  ⟨"OD_SLACKLOW", 0x8110020, 0x0, 1, [⟨7, 0, "LOW", .rwl, 0x1E⟩]⟩,
  ⟨"OD_ROTH", 0x8110024, 0x0, 1, [⟨15, 0, "TH", .rwl, 0x1F4⟩]⟩,
  ⟨"OD_PTH", 0x8110028, 0x0, 1, [⟨16, 0, "TH", .rwl, 0x7D0⟩]⟩,
  ⟨"OD_IRQEN", 0x811002C, 0x0, 1, [⟨2, 0, "IRQ", .rw, 0⟩]⟩,
  ⟨"OD_IRQST", 0x8110030, 0x0, 1, [⟨2, 0, "CAUSE", .w1c, 0⟩]⟩,
  ⟨"OD_PDRIFT", 0x8110100, 0x4, 16, [⟨26, 24, "OUT", .ro, 0⟩, ⟨23, 0, "EU", .ro, 0⟩]⟩,
  ⟨"OD_PBASE", 0x8110200, 0x4, 96, [⟨23, 0, "TOFF", .ro, 0⟩]⟩]

def rows_0811 : List RegRow := rows_0811_0

def rows_0812_0 : List RegRow := [
  ⟨"CPL_CTRL", 0x8120000, 0x0, 1, [⟨31, 31, "CLAIM", .sc, 0⟩, ⟨30, 30, "RELEASE", .sc, 0⟩, ⟨29, 29, "HBEN", .rwl, 1⟩]⟩,
  ⟨"CPL_STAT", 0x8120004, 0x0, 1, [⟨31, 31, "GRANTED", .ro, 0⟩, ⟨30, 30, "FLIMP", .ro, 1⟩, ⟨29, 29, "FLOCK", .ro, 0⟩, ⟨28, 28, "REFEV", .w1c, 0⟩, ⟨27, 27, "REJEV", .w1c, 0⟩, ⟨2, 0, "REASON", .ro, 0⟩]⟩,
  ⟨"CPL_EPOCH", 0x8120008, 0x0, 1, [⟨31, 0, "E", .ro, 0⟩]⟩,
  ⟨"CPL_FEPOCH", 0x812000C, 0x0, 1, [⟨31, 0, "E", .ro, 0⟩]⟩,
  ⟨"CPL_REJCNT", 0x8120010, 0x0, 1, [⟨31, 0, "CNT", .ro, 0⟩]⟩,
  ⟨"CPL_NONCE", 0x8120014, 0x0, 1, [⟨31, 0, "N", .ro, 0⟩]⟩,
  ⟨"CPL_IRQEN", 0x8120018, 0x0, 1, [⟨4, 0, "IRQ", .rw, 0⟩]⟩,
  ⟨"CPL_IRQST", 0x812001C, 0x0, 1, [⟨4, 0, "CAUSE", .w1c, 0⟩]⟩]

def rows_0812 : List RegRow := rows_0812_0

def rows_0813_0 : List RegRow := [
  ⟨"LK_CTRL", 0x8130000, 0x0, 1, [⟨31, 31, "UPEN", .rwl, 1⟩, ⟨30, 30, "FAREN", .rw, 0⟩]⟩,
  ⟨"LK_UPSTAT", 0x8130004, 0x0, 1, [⟨31, 31, "UP", .ro, 0⟩, ⟨30, 30, "CXL", .ro, 0⟩, ⟨29, 29, "CACHEEN", .ro, 0⟩, ⟨28, 28, "BME", .ro, 0⟩, ⟨27, 27, "DOWNEV", .w1c, 0⟩, ⟨7, 6, "PM", .ro, 0⟩, ⟨5, 3, "SPEED", .ro, 0⟩, ⟨2, 0, "WIDTH", .ro, 0⟩]⟩,
  ⟨"LK_FARSTAT", 0x8130008, 0x0, 1, [⟨31, 31, "UP", .ro, 0⟩, ⟨30, 30, "MEMACT", .ro, 0⟩, ⟨29, 29, "CFGERR", .ro, 0⟩, ⟨28, 28, "TRUNC", .ro, 0⟩, ⟨27, 27, "DOWNEV", .w1c, 0⟩, ⟨5, 3, "SPEED", .ro, 0⟩, ⟨2, 0, "WIDTH", .ro, 0⟩]⟩,
  ⟨"LK_FARCAP", 0x813000C, 0x0, 1, [⟨8, 0, "CAP", .ro, 0⟩]⟩,
  ⟨"LK_FARBASE", 0x8130010, 0x0, 1, [⟨7, 0, "BASE", .rw, 0⟩]⟩,
  ⟨"LK_FARTO", 0x8130014, 0x0, 1, [⟨15, 0, "TO", .rw, 0x64⟩]⟩,
  ⟨"LK_PTMCFG", 0x8130020, 0x0, 1, [⟨31, 31, "EN", .rw, 0⟩, ⟨7, 0, "INT", .rw, 0xA⟩]⟩,
  ⟨"LK_PTMCTL", 0x8130024, 0x0, 1, [⟨0, 0, "GO", .sc, 0⟩]⟩,
  ⟨"LK_PTM_DT_L", 0x8130028, 0x0, 1, [⟨31, 0, "DT", .ro, 0⟩]⟩,
  ⟨"LK_PTM_DT_H", 0x813002C, 0x0, 1, [⟨31, 0, "DT", .ro, 0⟩]⟩,
  ⟨"LK_PTM_HT_L", 0x8130030, 0x0, 1, [⟨31, 0, "HT", .ro, 0⟩]⟩,
  ⟨"LK_PTM_HT_H", 0x8130034, 0x0, 1, [⟨31, 0, "HT", .ro, 0⟩]⟩,
  ⟨"LK_PTMSTAT", 0x8130038, 0x0, 1, [⟨31, 31, "VALID", .ro, 0⟩, ⟨30, 30, "BAD", .w1c, 0⟩, ⟨29, 16, "DELAY", .ro, 0⟩, ⟨15, 0, "SEQ", .ro, 0⟩]⟩,
  ⟨"LK_SVCCFG", 0x8130040, 0x0, 1, [⟨31, 31, "EN", .rw, 0⟩, ⟨7, 0, "PER", .rw, 0xA⟩]⟩,
  ⟨"LK_SVCDST_L", 0x8130044, 0x0, 1, [⟨31, 0, "MAC", .rw, 0⟩]⟩,
  ⟨"LK_SVCDST_H", 0x8130048, 0x0, 1, [⟨15, 0, "MAC", .rw, 0⟩]⟩,
  ⟨"LK_SVCSTAT", 0x813004C, 0x0, 1, [⟨31, 31, "LINK", .ro, 0⟩, ⟨30, 30, "PODL", .ro, 0⟩, ⟨15, 0, "DROP", .ro, 0⟩]⟩,
  ⟨"LK_HIRQ", 0x8130050, 0x0, 1, [⟨31, 31, "FARDOWN", .rw, 0⟩, ⟨30, 30, "PTM", .rw, 0⟩, ⟨5, 0, "VEC", .rw, 0⟩]⟩,
  ⟨"MSIX_ADDR_L", 0x8131000, 0x10, 64, [⟨31, 2, "ADDR", .rw, 0⟩]⟩,
  ⟨"MSIX_ADDR_H", 0x8131004, 0x10, 64, [⟨31, 0, "ADDR", .rw, 0⟩]⟩,
  ⟨"MSIX_DATA", 0x8131008, 0x10, 64, [⟨31, 0, "DATA", .rw, 0⟩]⟩,
  ⟨"MSIX_CTRL", 0x813100C, 0x10, 64, [⟨0, 0, "MASK", .rw, 1⟩]⟩,
  ⟨"MSIX_PBA", 0x8131800, 0x4, 2, [⟨31, 0, "PEND", .ro, 0⟩]⟩]

def rows_0813 : List RegRow := rows_0813_0

def rows_0820_0 : List RegRow := [
  ⟨"PU_CTL", 0x8200000, 0x1000, 16, [⟨31, 31, "EN", .rw, 0⟩, ⟨30, 30, "GSWAIT", .rw, 0⟩, ⟨29, 28, "MODE", .rw, 0⟩, ⟨27, 27, "ANGLE", .rw, 0⟩, ⟨26, 23, "TRK", .rw, 0⟩, ⟨22, 21, "UPD", .rw, 0⟩, ⟨20, 20, "MINPM", .rw, 0⟩, ⟨19, 17, "DTAUTO", .rw, 0⟩]⟩,
  ⟨"PU_STAT", 0x8200004, 0x1000, 16, [⟨31, 31, "RUN", .ro, 0⟩, ⟨30, 30, "CDOWN", .ro, 0⟩, ⟨29, 29, "SEALPEND", .ro, 0⟩, ⟨28, 28, "SEAL_REFUSED", .w1c, 0⟩, ⟨27, 27, "LATE_SEAL", .w1c, 0⟩, ⟨26, 26, "OVERSEAL", .w1c, 0⟩, ⟨25, 25, "SETERR", .w1c, 0⟩, ⟨24, 24, "SYNCMISS", .w1c, 0⟩, ⟨23, 23, "SYNCIGN", .w1c, 0⟩, ⟨22, 22, "DTLIMIT", .w1c, 0⟩, ⟨21, 21, "SWFB", .w1c, 0⟩, ⟨20, 20, "MINPEV", .w1c, 0⟩, ⟨19, 19, "OVRERR", .w1c, 0⟩, ⟨18, 18, "WRERR", .w1c, 0⟩, ⟨17, 17, "CFGERR", .ro, 0⟩, ⟨15, 8, "SSEQ", .ro, 0⟩, ⟨7, 0, "ASEQ", .ro, 0⟩]⟩,
  ⟨"PU_SEAL", 0x8200008, 0x1000, 16, [⟨7, 0, "SEQ", .wo, 0⟩]⟩,
  ⟨"PU_SETREQ", 0x820000C, 0x1000, 16, [⟨16, 0, "MASK", .rw, 0⟩]⟩,
  ⟨"PU_CNT", 0x8200010, 0x1000, 16, [⟨31, 0, "CNT", .ro, 0⟩]⟩,
  ⟨"PU_PEREFF", 0x8200014, 0x1000, 16, [⟨31, 0, "PEREFF", .ro, 0⟩]⟩,
  ⟨"PU_PERA", 0x8200018, 0x1000, 16, [⟨31, 0, "PERA", .rw, 0⟩]⟩,
  ⟨"PU_IRQEN", 0x820001C, 0x1000, 16, [⟨26, 16, "IRQ1", .rw, 0⟩, ⟨10, 0, "IRQ0", .rw, 0⟩]⟩,
  ⟨"PU_PER", 0x8200020, 0x1000, 16, [⟨31, 0, "PER", .rw, 0⟩]⟩,
  ⟨"PU_CMPAU", 0x8200024, 0x1000, 16, [⟨31, 0, "CMP", .rw, 0⟩]⟩,
  ⟨"PU_CMPAD", 0x8200028, 0x1000, 16, [⟨31, 0, "CMP", .rw, 0⟩]⟩,
  ⟨"PU_CMPBU", 0x820002C, 0x1000, 16, [⟨31, 0, "CMP", .rw, 0⟩]⟩,
  ⟨"PU_CMPBD", 0x8200030, 0x1000, 16, [⟨31, 0, "CMP", .rw, 0⟩]⟩,
  ⟨"PU_CMPCU", 0x8200034, 0x1000, 16, [⟨31, 0, "CMP", .rw, 0⟩]⟩,
  ⟨"PU_CMPCD", 0x8200038, 0x1000, 16, [⟨31, 0, "CMP", .rw, 0⟩]⟩,
  ⟨"PU_TRG0", 0x820003C, 0x1000, 16, [⟨31, 0, "TRG", .rw, 0⟩]⟩,
  ⟨"PU_TRG1", 0x8200040, 0x1000, 16, [⟨31, 0, "TRG", .rw, 0⟩]⟩,
  ⟨"PU_DTRA", 0x8200044, 0x1000, 16, [⟨16, 0, "DT", .rw, 0⟩]⟩,
  ⟨"PU_DTFA", 0x8200048, 0x1000, 16, [⟨16, 0, "DT", .rw, 0⟩]⟩,
  ⟨"PU_DTRB", 0x820004C, 0x1000, 16, [⟨16, 0, "DT", .rw, 0⟩]⟩,
  ⟨"PU_DTFB", 0x8200050, 0x1000, 16, [⟨16, 0, "DT", .rw, 0⟩]⟩,
  ⟨"PU_DTRC", 0x8200054, 0x1000, 16, [⟨16, 0, "DT", .rw, 0⟩]⟩,
  ⟨"PU_DTFC", 0x8200058, 0x1000, 16, [⟨16, 0, "DT", .rw, 0⟩]⟩,
  ⟨"PU_MINP", 0x820005C, 0x1000, 16, [⟨19, 0, "MINP", .rw, 0⟩]⟩,
  ⟨"PU_OUTCTL", 0x8200060, 0x1000, 16, [⟨17, 6, "OVR", .rw, 0⟩, ⟨5, 0, "POL", .rw, 0⟩]⟩,
  ⟨"PU_WMARK", 0x8200064, 0x1000, 16, [⟨16, 0, "WMARK", .ro, 0⟩]⟩,
  ⟨"PU_DTA_MARGIN", 0x8200070, 0x1000, 16, [⟨16, 0, "MARGIN", .rw, 0⟩]⟩,
  ⟨"PU_DTA_MIN", 0x8200074, 0x1000, 16, [⟨16, 0, "MIN", .rw, 0⟩]⟩,
  ⟨"PU_DTA_MAX", 0x8200078, 0x1000, 16, [⟨16, 0, "MAX", .rw, 0x18E70⟩]⟩,
  ⟨"PU_SFCFG", 0x820007C, 0x1000, 16, [⟨27, 16, "SFWIN", .rw, 0⟩, ⟨11, 6, "INV", .rw, 0⟩, ⟨5, 0, "EN", .rw, 0⟩]⟩,
  ⟨"PU_SFSTAT", 0x8200080, 0x1000, 16, [⟨13, 8, "DISAG", .w1c, 0⟩, ⟨5, 0, "LEVEL", .ro, 0⟩]⟩,
  ⟨"PU_PROP_AH", 0x8200084, 0x1000, 16, [⟨31, 24, "NMEAS", .ro, 0⟩, ⟨23, 0, "TOFF", .ro, 0⟩]⟩,
  ⟨"PU_PROP_AL", 0x8200088, 0x1000, 16, [⟨31, 24, "NMEAS", .ro, 0⟩, ⟨23, 0, "TOFF", .ro, 0⟩]⟩,
  ⟨"PU_PROP_BH", 0x820008C, 0x1000, 16, [⟨31, 24, "NMEAS", .ro, 0⟩, ⟨23, 0, "TOFF", .ro, 0⟩]⟩,
  ⟨"PU_PROP_BL", 0x8200090, 0x1000, 16, [⟨31, 24, "NMEAS", .ro, 0⟩, ⟨23, 0, "TOFF", .ro, 0⟩]⟩,
  ⟨"PU_PROP_CH", 0x8200094, 0x1000, 16, [⟨31, 24, "NMEAS", .ro, 0⟩, ⟨23, 0, "TOFF", .ro, 0⟩]⟩,
  ⟨"PU_PROP_CL", 0x8200098, 0x1000, 16, [⟨31, 24, "NMEAS", .ro, 0⟩, ⟨23, 0, "TOFF", .ro, 0⟩]⟩,
  ⟨"PU_EVCFG0", 0x82000A0, 0x1000, 16, [⟨31, 31, "EN", .rw, 0⟩, ⟨30, 29, "DIRSEL", .rw, 0⟩, ⟨11, 8, "PRESC", .rw, 0⟩, ⟨3, 0, "SRC", .rw, 0⟩]⟩,
  ⟨"PU_EVCFG1", 0x82000A4, 0x1000, 16, [⟨31, 31, "EN", .rw, 0⟩, ⟨30, 29, "DIRSEL", .rw, 0⟩, ⟨11, 8, "PRESC", .rw, 0⟩, ⟨3, 0, "SRC", .rw, 0⟩]⟩,
  ⟨"PU_EVCFG2", 0x82000A8, 0x1000, 16, [⟨31, 31, "EN", .rw, 0⟩, ⟨30, 29, "DIRSEL", .rw, 0⟩, ⟨11, 8, "PRESC", .rw, 0⟩, ⟨3, 0, "SRC", .rw, 0⟩]⟩]

def rows_0820_1 : List RegRow := [
  ⟨"PU_EVCFG3", 0x82000AC, 0x1000, 16, [⟨31, 31, "EN", .rw, 0⟩, ⟨30, 29, "DIRSEL", .rw, 0⟩, ⟨11, 8, "PRESC", .rw, 0⟩, ⟨3, 0, "SRC", .rw, 0⟩]⟩,
  ⟨"PU_ACT_PER", 0x8200120, 0x1000, 16, [⟨31, 0, "PER", .ro, 0⟩]⟩,
  ⟨"PU_ACT_CMPAU", 0x8200124, 0x1000, 16, [⟨31, 0, "CMP", .ro, 0⟩]⟩,
  ⟨"PU_ACT_CMPAD", 0x8200128, 0x1000, 16, [⟨31, 0, "CMP", .ro, 0⟩]⟩,
  ⟨"PU_ACT_CMPBU", 0x820012C, 0x1000, 16, [⟨31, 0, "CMP", .ro, 0⟩]⟩,
  ⟨"PU_ACT_CMPBD", 0x8200130, 0x1000, 16, [⟨31, 0, "CMP", .ro, 0⟩]⟩,
  ⟨"PU_ACT_CMPCU", 0x8200134, 0x1000, 16, [⟨31, 0, "CMP", .ro, 0⟩]⟩,
  ⟨"PU_ACT_CMPCD", 0x8200138, 0x1000, 16, [⟨31, 0, "CMP", .ro, 0⟩]⟩,
  ⟨"PU_ACT_TRG0", 0x820013C, 0x1000, 16, [⟨31, 0, "TRG", .ro, 0⟩]⟩,
  ⟨"PU_ACT_TRG1", 0x8200140, 0x1000, 16, [⟨31, 0, "TRG", .ro, 0⟩]⟩,
  ⟨"PU_ACT_DTRA", 0x8200144, 0x1000, 16, [⟨16, 0, "DT", .ro, 0⟩]⟩,
  ⟨"PU_ACT_DTFA", 0x8200148, 0x1000, 16, [⟨16, 0, "DT", .ro, 0⟩]⟩,
  ⟨"PU_ACT_DTRB", 0x820014C, 0x1000, 16, [⟨16, 0, "DT", .ro, 0⟩]⟩,
  ⟨"PU_ACT_DTFB", 0x8200150, 0x1000, 16, [⟨16, 0, "DT", .ro, 0⟩]⟩,
  ⟨"PU_ACT_DTRC", 0x8200154, 0x1000, 16, [⟨16, 0, "DT", .ro, 0⟩]⟩,
  ⟨"PU_ACT_DTFC", 0x8200158, 0x1000, 16, [⟨16, 0, "DT", .ro, 0⟩]⟩,
  ⟨"PU_ACT_MINP", 0x820015C, 0x1000, 16, [⟨19, 0, "MINP", .ro, 0⟩]⟩,
  ⟨"PU_ACT_OUTCTL", 0x8200160, 0x1000, 16, [⟨17, 6, "OVR", .ro, 0⟩, ⟨5, 0, "POL", .ro, 0⟩]⟩]

def rows_0820 : List RegRow := rows_0820_0 ++ rows_0820_1

def rows_0821_0 : List RegRow := [
  ⟨"GP_CTL", 0x8210000, 0x100, 32, [⟨31, 31, "EN", .rw, 0⟩, ⟨30, 30, "GSWAIT", .rw, 0⟩, ⟨29, 28, "MODE", .rw, 0⟩, ⟨27, 27, "ANGLE", .rw, 0⟩, ⟨26, 23, "TRK", .rw, 0⟩, ⟨22, 21, "UPD", .rw, 0⟩, ⟨20, 20, "MINPM", .rw, 0⟩, ⟨16, 16, "SHARE", .rw, 0⟩]⟩,
  ⟨"GP_STAT", 0x8210004, 0x100, 32, [⟨31, 31, "RUN", .ro, 0⟩, ⟨30, 30, "CDOWN", .ro, 0⟩, ⟨29, 29, "SEALPEND", .ro, 0⟩, ⟨28, 28, "SEAL_REFUSED", .w1c, 0⟩, ⟨27, 27, "LATE_SEAL", .w1c, 0⟩, ⟨26, 26, "OVERSEAL", .w1c, 0⟩, ⟨25, 25, "SETERR", .w1c, 0⟩, ⟨24, 24, "SYNCMISS", .w1c, 0⟩, ⟨23, 23, "SYNCIGN", .w1c, 0⟩, ⟨20, 20, "MINPEV", .w1c, 0⟩, ⟨18, 18, "WRERR", .w1c, 0⟩, ⟨17, 17, "CFGERR", .ro, 0⟩, ⟨15, 8, "SSEQ", .ro, 0⟩, ⟨7, 0, "ASEQ", .ro, 0⟩]⟩,
  ⟨"GP_SEAL", 0x8210008, 0x100, 32, [⟨7, 0, "SEQ", .wo, 0⟩]⟩,
  ⟨"GP_SETREQ", 0x821000C, 0x100, 32, [⟨6, 0, "MASK", .rw, 0⟩]⟩,
  ⟨"GP_CNT", 0x8210010, 0x100, 32, [⟨31, 0, "CNT", .ro, 0⟩]⟩,
  ⟨"GP_PEREFF", 0x8210014, 0x100, 32, [⟨31, 0, "PEREFF", .ro, 0⟩]⟩,
  ⟨"GP_PERA", 0x8210018, 0x100, 32, [⟨31, 0, "PERA", .rw, 0⟩]⟩,
  ⟨"GP_IRQEN", 0x821001C, 0x100, 32, [⟨10, 0, "IRQ", .rw, 0⟩]⟩,
  ⟨"GP_PER", 0x8210020, 0x100, 32, [⟨31, 0, "PER", .rw, 0⟩]⟩,
  ⟨"GP_CMPU", 0x8210024, 0x100, 32, [⟨31, 0, "CMP", .rw, 0⟩]⟩,
  ⟨"GP_CMPD", 0x8210028, 0x100, 32, [⟨31, 0, "CMP", .rw, 0⟩]⟩,
  ⟨"GP_TRG0", 0x821002C, 0x100, 32, [⟨31, 0, "TRG", .rw, 0⟩]⟩,
  ⟨"GP_TRG1", 0x8210030, 0x100, 32, [⟨31, 0, "TRG", .rw, 0⟩]⟩,
  ⟨"GP_MINP", 0x8210034, 0x100, 32, [⟨19, 0, "MINP", .rw, 0⟩]⟩,
  ⟨"GP_OUTCTL", 0x8210038, 0x100, 32, [⟨2, 1, "OVR", .rw, 0⟩, ⟨0, 0, "POL", .rw, 0⟩]⟩,
  ⟨"GP_WMARK", 0x821003C, 0x100, 32, [⟨6, 0, "WMARK", .ro, 0⟩]⟩,
  ⟨"GP_EVCFG0", 0x8210040, 0x100, 32, [⟨31, 31, "EN", .rw, 0⟩, ⟨30, 29, "DIRSEL", .rw, 0⟩, ⟨11, 8, "PRESC", .rw, 0⟩, ⟨3, 0, "SRC", .rw, 0⟩]⟩,
  ⟨"GP_EVCFG1", 0x8210044, 0x100, 32, [⟨31, 31, "EN", .rw, 0⟩, ⟨30, 29, "DIRSEL", .rw, 0⟩, ⟨11, 8, "PRESC", .rw, 0⟩, ⟨3, 0, "SRC", .rw, 0⟩]⟩,
  ⟨"GP_EVCFG2", 0x8210048, 0x100, 32, [⟨31, 31, "EN", .rw, 0⟩, ⟨30, 29, "DIRSEL", .rw, 0⟩, ⟨11, 8, "PRESC", .rw, 0⟩, ⟨3, 0, "SRC", .rw, 0⟩]⟩,
  ⟨"GP_EVCFG3", 0x821004C, 0x100, 32, [⟨31, 31, "EN", .rw, 0⟩, ⟨30, 29, "DIRSEL", .rw, 0⟩, ⟨11, 8, "PRESC", .rw, 0⟩, ⟨3, 0, "SRC", .rw, 0⟩]⟩,
  ⟨"GP_ACT_PER", 0x82100A0, 0x100, 32, [⟨31, 0, "PER", .ro, 0⟩]⟩,
  ⟨"GP_ACT_CMPU", 0x82100A4, 0x100, 32, [⟨31, 0, "CMP", .ro, 0⟩]⟩,
  ⟨"GP_ACT_CMPD", 0x82100A8, 0x100, 32, [⟨31, 0, "CMP", .ro, 0⟩]⟩,
  ⟨"GP_ACT_TRG0", 0x82100AC, 0x100, 32, [⟨31, 0, "TRG", .ro, 0⟩]⟩,
  ⟨"GP_ACT_TRG1", 0x82100B0, 0x100, 32, [⟨31, 0, "TRG", .ro, 0⟩]⟩,
  ⟨"GP_ACT_MINP", 0x82100B4, 0x100, 32, [⟨19, 0, "MINP", .ro, 0⟩]⟩,
  ⟨"GP_ACT_OUTCTL", 0x82100B8, 0x100, 32, [⟨2, 1, "OVR", .ro, 0⟩, ⟨0, 0, "POL", .ro, 0⟩]⟩,
  ⟨"GP_GSEAL", 0x8212000, 0x4, 8, [⟨7, 0, "SEQ", .wo, 0⟩]⟩,
  ⟨"GP_IRQSRC", 0x8212020, 0x0, 1, [⟨31, 0, "SRC", .w1c, 0⟩]⟩]

def rows_0821 : List RegRow := rows_0821_0

def rows_0822_0 : List RegRow := [
  ⟨"SN_CFG", 0x8220000, 0x80, 48, [⟨31, 31, "EN", .rw, 0⟩, ⟨30, 29, "RANGE", .rw, 0⟩, ⟨27, 27, "INV", .rw, 0⟩]⟩,
  ⟨"SX_CFG", 0x8221800, 0x80, 24, [⟨31, 31, "EN", .rw, 0⟩, ⟨28, 28, "SXEDGE", .rw, 0⟩, ⟨27, 27, "INV", .rw, 0⟩]⟩,
  ⟨"SN_WCFG", 0x8220004, 0x80, 72, [⟨31, 31, "WEN", .rw, 0⟩, ⟨30, 30, "CHAIN", .rw, 0⟩, ⟨29, 27, "TAPER", .rw, 0⟩, ⟨26, 26, "DLVEN", .rw, 0⟩, ⟨25, 20, "DLVCH", .rw, 0⟩, ⟨19, 14, "STUNIT", .rw, 0x3F⟩, ⟨13, 12, "STLINE", .rw, 0⟩, ⟨11, 6, "ENUNIT", .rw, 0x3F⟩, ⟨5, 4, "ENLINE", .rw, 0⟩]⟩,
  ⟨"SN_WCTL", 0x8220008, 0x80, 72, [⟨1, 1, "END", .wo, 0⟩, ⟨0, 0, "START", .wo, 0⟩]⟩,
  ⟨"SN_STAT", 0x822000C, 0x80, 72, [⟨31, 31, "OPEN", .ro, 0⟩, ⟨30, 30, "SETTLING", .ro, 0⟩, ⟨29, 29, "STALL", .ro, 0⟩, ⟨28, 28, "RNG", .ro, 0⟩, ⟨27, 27, "CFGERR", .ro, 0⟩, ⟨26, 26, "XSTART", .w1c, 0⟩, ⟨25, 25, "XEND", .w1c, 0⟩, ⟨24, 24, "SHORT", .w1c, 0⟩, ⟨23, 23, "LONGEV", .w1c, 0⟩, ⟨22, 22, "STALLEV", .w1c, 0⟩, ⟨21, 21, "RNGEV", .w1c, 0⟩, ⟨20, 20, "WRERR", .w1c, 0⟩]⟩,
  ⟨"SN_WRES", 0x8220010, 0x80, 72, [⟨31, 0, "MEAN", .ro, 0⟩]⟩,
  ⟨"SN_WFLG", 0x8220014, 0x80, 72, [⟨31, 31, "VALID", .ro, 0⟩, ⟨30, 30, "SAT", .ro, 0⟩, ⟨29, 29, "LONG", .ro, 0⟩, ⟨28, 28, "SETTLE", .ro, 0⟩, ⟨27, 27, "STALL", .ro, 0⟩, ⟨15, 0, "SEQ", .ro, 0⟩]⟩,
  ⟨"SN_WLEN", 0x8220018, 0x80, 72, [⟨31, 0, "L", .ro, 0⟩]⟩,
  ⟨"SN_WTS_L", 0x822001C, 0x80, 72, [⟨31, 0, "TSL", .ro, 0⟩]⟩,
  ⟨"SN_WTS_H", 0x8220020, 0x80, 72, [⟨31, 0, "TSH", .ro, 0⟩]⟩,
  ⟨"SN_PCFG", 0x8220024, 0x80, 72, [⟨31, 31, "PEN", .rw, 0⟩, ⟨15, 0, "PDEC", .rw, 0xFA0⟩]⟩,
  ⟨"SN_PRES", 0x8220028, 0x80, 72, [⟨31, 0, "PSAMP", .ro, 0⟩]⟩,
  ⟨"SN_FRES", 0x822002C, 0x80, 72, [⟨31, 31, "FVALID", .ro, 0⟩, ⟨15, 0, "FSAMP", .ro, 0⟩]⟩,
  ⟨"SN_DIAG", 0x8220030, 0x80, 72, [⟨31, 31, "STALLEN", .rw, 1⟩, ⟨30, 30, "RNGEN", .rw, 1⟩, ⟨3, 0, "RNGN", .rw, 4⟩]⟩,
  ⟨"SN_TRIM0_OFS", 0x8220040, 0x80, 72, [⟨23, 0, "OFS", .rwl, 0⟩]⟩,
  ⟨"SN_TRIM0_GAIN", 0x8220044, 0x80, 72, [⟨23, 0, "GAIN", .rwl, 0x400000⟩]⟩,
  ⟨"SN_TRIM1_OFS", 0x8220048, 0x80, 72, [⟨23, 0, "OFS", .rwl, 0⟩]⟩,
  ⟨"SN_TRIM1_GAIN", 0x822004C, 0x80, 72, [⟨23, 0, "GAIN", .rwl, 0x400000⟩]⟩,
  ⟨"SN_TRIM2_OFS", 0x8220050, 0x80, 72, [⟨23, 0, "OFS", .rwl, 0⟩]⟩,
  ⟨"SN_TRIM2_GAIN", 0x8220054, 0x80, 72, [⟨23, 0, "GAIN", .rwl, 0x400000⟩]⟩,
  ⟨"SN_TRIM3_OFS", 0x8220058, 0x80, 72, [⟨23, 0, "OFS", .rwl, 0⟩]⟩,
  ⟨"SN_TRIM3_GAIN", 0x822005C, 0x80, 72, [⟨23, 0, "GAIN", .rwl, 0x400000⟩]⟩,
  ⟨"SN_CTRL", 0x8223000, 0x0, 1, [⟨31, 31, "EVIRQ", .rw, 0⟩, ⟨0, 0, "PSYNC", .sc, 0⟩]⟩,
  ⟨"SN_PC_CFG", 0x8223100, 0x20, 16, [⟨31, 31, "EN", .rw, 0⟩, ⟨30, 29, "MODE", .rw, 0⟩, ⟨28, 22, "A", .rw, 0⟩, ⟨21, 15, "B", .rw, 0⟩, ⟨14, 8, "C", .rw, 0⟩, ⟨3, 0, "N", .rw, 1⟩]⟩,
  ⟨"SN_PC_K", 0x8223104, 0x20, 16, [⟨31, 0, "K", .rw, 0⟩]⟩,
  ⟨"SN_PC_C0", 0x8223108, 0x20, 16, [⟨31, 0, "C0", .rw, 0⟩]⟩,
  ⟨"SN_PC_TOL", 0x822310C, 0x20, 16, [⟨31, 0, "TOL", .rw, 0⟩]⟩,
  ⟨"SN_PC_STAT", 0x8223110, 0x20, 16, [⟨31, 31, "TRIP", .w1c, 0⟩, ⟨30, 30, "CFGERR", .ro, 0⟩, ⟨3, 0, "CNT", .ro, 0⟩]⟩]

def rows_0822 : List RegRow := rows_0822_0

def rows_0823_0 : List RegRow := [
  ⟨"CW_CFG", 0x8230000, 0x10, 64, [⟨31, 31, "EN", .rw, 0⟩, ⟨30, 29, "COND", .rw, 0⟩, ⟨28, 27, "RANGE", .rw, 0⟩, ⟨26, 25, "HYS", .rw, 0⟩, ⟨22, 16, "SRC_CH", .rw, 0⟩, ⟨15, 8, "FILT", .rw, 0⟩, ⟨7, 0, "LINES", .rw, 0⟩]⟩,
  ⟨"CW_THR", 0x8230004, 0x10, 64, [⟨25, 16, "UPPER", .rw, 0x1FF⟩, ⟨9, 0, "LOWER", .rw, 0x200⟩]⟩,
  ⟨"CW_STAT", 0x8230008, 0x10, 64, [⟨31, 31, "RAW", .ro, 0⟩, ⟨30, 30, "FILTQ", .ro, 0⟩, ⟨29, 29, "EV", .w1c, 0⟩, ⟨28, 28, "STFAIL", .ro, 0⟩, ⟨27, 27, "CFGERR", .ro, 0⟩]⟩,
  ⟨"DW_CFG", 0x8230400, 0x10, 48, [⟨31, 31, "EN", .rw, 0⟩, ⟨30, 29, "COND", .rw, 0⟩, ⟨22, 16, "SRC_CH", .rw, 0⟩, ⟨15, 8, "FILT", .rw, 0⟩, ⟨7, 0, "LINES", .rw, 0⟩]⟩,
  ⟨"DW_THR", 0x8230404, 0x10, 48, [⟨25, 16, "UPPER", .rw, 0x1FF⟩, ⟨9, 0, "LOWER", .rw, 0x200⟩]⟩,
  ⟨"DW_STAT", 0x8230408, 0x10, 48, [⟨31, 31, "RAW", .ro, 0⟩, ⟨30, 30, "FILTQ", .ro, 0⟩, ⟨29, 29, "EV", .w1c, 0⟩, ⟨28, 28, "STFAIL", .ro, 0⟩, ⟨27, 27, "CFGERR", .ro, 0⟩]⟩,
  ⟨"BL_STAT", 0x8230800, 0x0, 1, [⟨23, 16, "REFUSED", .w1c, 0⟩, ⟨15, 8, "SRCACT", .ro, 0⟩, ⟨7, 0, "LATCH", .ro, 0⟩]⟩,
  ⟨"BL_CLR", 0x8230804, 0x0, 1, [⟨7, 0, "CLR", .wo, 0⟩]⟩,
  ⟨"BL_IRQEN", 0x8230808, 0x0, 1, [⟨7, 0, "IRQ", .rw, 0⟩]⟩,
  ⟨"BL_SRC", 0x8230820, 0x4, 8, [⟨31, 31, "VALID", .ro, 0⟩, ⟨6, 0, "SRC", .ro, 0⟩]⟩,
  ⟨"BL_SS_CFG", 0x8230A00, 0x10, 24, [⟨16, 16, "LOSTSEL", .rw, 0⟩, ⟨15, 8, "LINES", .rw, 0⟩, ⟨6, 4, "SS", .rw, 0⟩, ⟨3, 0, "TRK", .rw, 0⟩]⟩,
  ⟨"BL_SS_ASC", 0x8230A04, 0x10, 24, [⟨31, 0, "ASC", .rw, 0xFFFFFFFF⟩]⟩,
  ⟨"BL_SS_HYS", 0x8230A08, 0x10, 24, [⟨31, 0, "HYS", .rw, 0⟩]⟩,
  ⟨"BL_SS_STAT", 0x8230A0C, 0x10, 24, [⟨31, 31, "SAFE", .ro, 0⟩, ⟨30, 28, "APPLIED", .ro, 0⟩, ⟨27, 27, "WRERR", .w1c, 0⟩, ⟨26, 26, "CFGERR", .ro, 0⟩, ⟨25, 25, "FBWAIT", .ro, 0⟩, ⟨24, 24, "SPDLOST", .ro, 0⟩]⟩,
  ⟨"CP_STCTL", 0x8230C00, 0x0, 1, [⟨31, 31, "BGEN", .rw, 1⟩, ⟨6, 0, "SWEEP", .rw, 0x32⟩]⟩,
  ⟨"CP_STSTAT", 0x8230C04, 0x0, 1, [⟨31, 31, "STDONE", .ro, 0⟩, ⟨30, 30, "STFAIL", .ro, 0⟩, ⟨29, 29, "BGFAIL", .w1c, 0⟩, ⟨28, 28, "CFGERR", .ro, 0⟩, ⟨6, 0, "FAILID", .ro, 0⟩]⟩]

def rows_0823 : List RegRow := rows_0823_0

def rows_0824_0 : List RegRow := [
  ⟨"HK_CTRL", 0x8240000, 0x0, 1, [⟨31, 31, "EN", .rw, 0⟩, ⟨30, 30, "SCAN", .rw, 0⟩, ⟨29, 29, "IRQ", .rw, 0⟩, ⟨4, 0, "SLOTS", .rw, 1⟩]⟩,
  ⟨"HK_STAT", 0x8240004, 0x0, 1, [⟨31, 31, "BUSY", .ro, 0⟩, ⟨30, 30, "URGPEND", .ro, 0⟩, ⟨29, 29, "URGREF", .w1c, 0⟩, ⟨28, 28, "CFGERR", .ro, 0⟩, ⟨27, 27, "DONE", .w1c, 0⟩, ⟨26, 26, "URGDONE", .w1c, 0⟩, ⟨11, 6, "CUR", .ro, 0⟩, ⟨5, 3, "CURK", .ro, 0⟩]⟩,
  ⟨"HK_URG", 0x8240008, 0x0, 1, [⟨31, 31, "GO", .wo, 0⟩, ⟨8, 6, "K", .wo, 0⟩, ⟨5, 0, "INPUT", .wo, 0⟩]⟩,
  ⟨"HK_SLOT", 0x8240040, 0x4, 16, [⟨8, 6, "K", .rw, 0⟩, ⟨5, 0, "INPUT", .rw, 0⟩]⟩,
  ⟨"HK_RES", 0x8240100, 0x10, 40, [⟨31, 31, "VALID", .ro, 0⟩, ⟨23, 0, "CODE", .ro, 0⟩]⟩,
  ⟨"HK_TS_L", 0x8240104, 0x10, 40, [⟨31, 0, "TSL", .ro, 0⟩]⟩,
  ⟨"HK_TS_H", 0x8240108, 0x10, 40, [⟨31, 0, "TSH", .ro, 0⟩]⟩,
  ⟨"HK_INF", 0x824010C, 0x10, 40, [⟨31, 31, "URG", .ro, 0⟩, ⟨18, 16, "K", .ro, 0⟩, ⟨15, 0, "SEQ", .ro, 0⟩]⟩]

def rows_0824 : List RegRow := rows_0824_0

def rows_0825_0 : List RegRow := [
  ⟨"TC_CTL", 0x8250000, 0x40, 32, [⟨31, 31, "EN", .rw, 0⟩, ⟨30, 30, "GSWAIT", .rw, 0⟩, ⟨29, 29, "MODE", .rw, 0⟩, ⟨28, 27, "SRC", .rw, 0⟩, ⟨26, 25, "EDGE", .rw, 0⟩, ⟨24, 24, "CMPLATE", .rw, 0⟩, ⟨23, 16, "PRESC", .rw, 0⟩, ⟨13, 8, "PIN", .rw, 0⟩, ⟨7, 0, "FILT", .rw, 0⟩]⟩,
  ⟨"TC_STAT", 0x8250004, 0x40, 32, [⟨31, 31, "RUN", .ro, 0⟩, ⟨30, 30, "ARMED", .ro, 0⟩, ⟨29, 29, "GWAIT", .ro, 0⟩, ⟨28, 28, "DONE", .ro, 0⟩, ⟨27, 27, "OVF", .w1c, 0⟩, ⟨26, 26, "M0", .w1c, 0⟩, ⟨25, 25, "M1", .w1c, 0⟩, ⟨24, 24, "LATE", .w1c, 0⟩, ⟨23, 23, "CAPEV", .w1c, 0⟩, ⟨22, 22, "REARM", .w1c, 0⟩, ⟨21, 21, "WRERR", .w1c, 0⟩, ⟨20, 20, "LINKIGN", .w1c, 0⟩, ⟨19, 19, "CFGERR", .ro, 0⟩]⟩,
  ⟨"TC_CNT", 0x8250008, 0x40, 32, [⟨31, 0, "CNT", .rw, 0⟩]⟩,
  ⟨"TC_LIVE", 0x825000C, 0x40, 32, [⟨31, 0, "CNT", .ro, 0⟩]⟩,
  ⟨"TC_END", 0x8250010, 0x40, 32, [⟨31, 0, "END", .rw, 0xFFFFFFFF⟩]⟩,
  ⟨"TC_RELOAD", 0x8250014, 0x40, 32, [⟨31, 0, "RELOAD", .rw, 0xFFFFFFFF⟩]⟩,
  ⟨"TC_CMP0", 0x8250018, 0x40, 32, [⟨31, 0, "CMP", .rw, 0⟩]⟩,
  ⟨"TC_CMP1", 0x825001C, 0x40, 32, [⟨31, 0, "CMP", .rw, 0⟩]⟩,
  ⟨"TC_ACT", 0x8250020, 0x40, 32, [⟨31, 30, "PACT1", .rw, 0⟩, ⟨29, 24, "PIN1", .rw, 0⟩, ⟨23, 23, "TRG1", .rw, 0⟩, ⟨15, 14, "PACT0", .rw, 0⟩, ⟨13, 8, "PIN0", .rw, 0⟩, ⟨7, 7, "TRG0", .rw, 0⟩]⟩,
  ⟨"TC_TRG", 0x8250024, 0x40, 32, [⟨31, 31, "EN", .rw, 0⟩, ⟨30, 28, "SRC", .rw, 0⟩, ⟨27, 26, "ACT", .rw, 0⟩, ⟨25, 24, "EDGE", .rw, 0⟩, ⟨23, 18, "UNIT", .rw, 0⟩, ⟨17, 16, "LINE", .rw, 0⟩, ⟨13, 8, "PIN", .rw, 0⟩, ⟨4, 0, "MASTER", .rw, 0⟩]⟩,
  ⟨"TC_GATE", 0x8250028, 0x40, 32, [⟨31, 31, "EN", .rw, 0⟩, ⟨30, 30, "LEVEL", .rw, 0⟩, ⟨29, 29, "SRC", .rw, 0⟩, ⟨13, 8, "PIN", .rw, 0⟩, ⟨4, 0, "MASTER", .rw, 0⟩]⟩,
  ⟨"TC_LINK", 0x825002C, 0x40, 32, [⟨31, 31, "EN", .rw, 0⟩, ⟨30, 29, "KIND", .rw, 0⟩, ⟨28, 27, "EVENT", .rw, 0⟩, ⟨4, 0, "MASTER", .rw, 0⟩]⟩,
  ⟨"TC_CAP", 0x8250030, 0x40, 32, [⟨31, 0, "CAP", .ro, 0⟩]⟩,
  ⟨"TC_IRQEN", 0x8250034, 0x40, 32, [⟨5, 0, "IRQ", .rw, 0⟩]⟩,
  ⟨"TC_CMD", 0x8250038, 0x40, 32, [⟨2, 2, "CAPTURE", .wo, 0⟩, ⟨1, 1, "RESTART", .wo, 0⟩, ⟨0, 0, "ARM", .wo, 0⟩]⟩,
  ⟨"TC_MODE", 0x8250800, 0x0, 1, [⟨0, 0, "SERVICE", .rw, 0⟩]⟩,
  ⟨"TC_GSTART_TC", 0x8250804, 0x0, 1, [⟨31, 0, "SEL", .rw, 0⟩]⟩,
  ⟨"TC_GSTART_PU", 0x8250808, 0x0, 1, [⟨15, 0, "SEL", .rw, 0⟩]⟩,
  ⟨"TC_GSTART_GP", 0x825080C, 0x0, 1, [⟨31, 0, "SEL", .rw, 0⟩]⟩,
  ⟨"TC_GSTART", 0x8250810, 0x0, 1, [⟨0, 0, "GO", .wo, 0⟩]⟩,
  ⟨"TC_GSTAT", 0x8250814, 0x0, 1, [⟨31, 31, "DONE", .w1c, 0⟩, ⟨30, 30, "MISS", .w1c, 0⟩]⟩,
  ⟨"TC_GSTS_L", 0x8250818, 0x0, 1, [⟨31, 0, "DT", .ro, 0⟩]⟩,
  ⟨"TC_GSTS_H", 0x825081C, 0x0, 1, [⟨31, 0, "DT", .ro, 0⟩]⟩]

def rows_0825 : List RegRow := rows_0825_0

def rows_0826_0 : List RegRow := [
  ⟨"FG_STAT", 0x8260000, 0x0, 1, [⟨31, 31, "LIMP", .ro, 1⟩, ⟨30, 30, "LIMPLOCK", .ro, 0⟩, ⟨29, 29, "CLAIMED", .ro, 0⟩, ⟨28, 28, "LLREF", .w1c, 0⟩, ⟨23, 0, "GSAFE", .ro, 0⟩]⟩,
  ⟨"FG_EPOCH", 0x8260004, 0x0, 1, [⟨31, 0, "E", .ro, 0⟩]⟩,
  ⟨"FG_CFG", 0x8260008, 0x0, 1, [⟨3, 0, "LOCKN", .rw, 3⟩]⟩,
  ⟨"FG_REJCNT", 0x826000C, 0x0, 1, [⟨31, 0, "CNT", .ro, 0⟩]⟩,
  ⟨"FG_LOSSCNT", 0x8260010, 0x0, 1, [⟨31, 0, "CNT", .ro, 0⟩]⟩,
  ⟨"FG_LLCLR", 0x8260014, 0x0, 1, [⟨15, 0, "KEY", .wo, 0⟩]⟩]

def rows_0826 : List RegRow := rows_0826_0

def rows_0827_0 : List RegRow := [
  ⟨"LN_STAT", 0x8270000, 0x0, 1, [⟨31, 31, "PODL", .ro, 0⟩, ⟨30, 30, "VSUP", .ro, 0⟩, ⟨29, 29, "LLRUN", .ro, 0⟩, ⟨28, 28, "LLWFI", .ro, 0⟩, ⟨27, 27, "LLFAULT", .w1c, 0⟩, ⟨26, 26, "FQOVF", .w1c, 0⟩, ⟨25, 25, "WAKEHELD", .w1c, 0⟩, ⟨24, 24, "WRERR", .w1c, 0⟩]⟩,
  ⟨"LN_WAKEEN", 0x8270004, 0x0, 1, [⟨15, 0, "EN", .rw, 0⟩]⟩,
  ⟨"LN_WAKEDIR", 0x8270008, 0x0, 1, [⟨15, 0, "DIR", .rw, 0⟩]⟩,
  ⟨"LN_WAKEPEND", 0x827000C, 0x0, 1, [⟨15, 0, "PEND", .w1c, 0⟩]⟩,
  ⟨"LN_WAKE", 0x8270010, 0x0, 1, [⟨31, 31, "GO", .wo, 0⟩, ⟨2, 0, "RUNG", .wo, 0⟩]⟩,
  ⟨"LN_GPAWAKE", 0x8270014, 0x0, 1, [⟨7, 0, "PINS", .rw, 0⟩]⟩,
  ⟨"LN_LLCTL", 0x8270028, 0x0, 1, [⟨31, 31, "START", .wo, 0⟩, ⟨30, 30, "HALT", .wo, 0⟩]⟩,
  ⟨"LN_LLFPC", 0x827002C, 0x0, 1, [⟨23, 0, "PC", .ro, 0⟩]⟩,
  ⟨"LN_PGADDR", 0x8270030, 0x0, 1, [⟨13, 0, "ADDR", .rw, 0⟩]⟩,
  ⟨"LN_PGDATA", 0x8270034, 0x0, 1, [⟨13, 0, "SYL", .wo, 0⟩]⟩,
  ⟨"LN_MBOX", 0x8270038, 0x0, 1, [⟨31, 0, "MSG", .rw, 0⟩]⟩,
  ⟨"LN_RTC_L", 0x8270018, 0x0, 1, [⟨31, 0, "TICKS", .ro, 0⟩]⟩,
  ⟨"LN_RTC_H", 0x827001C, 0x0, 1, [⟨15, 0, "TICKS", .ro, 0⟩]⟩,
  ⟨"LN_ALARM_L", 0x8270020, 0x0, 1, [⟨31, 0, "TICKS", .rw, 0xFFFFFFFF⟩]⟩,
  ⟨"LN_ALARM_H", 0x8270024, 0x0, 1, [⟨15, 0, "TICKS", .rw, 0xFFFF⟩]⟩,
  ⟨"LN_LWCFG", 0x8270040, 0x4, 8, [⟨31, 31, "EN", .rw, 0⟩, ⟨30, 30, "COND", .rw, 0⟩, ⟨29, 27, "RATE", .rw, 0⟩, ⟨26, 23, "N", .rw, 1⟩, ⟨22, 18, "PIN", .rw, 0⟩, ⟨9, 0, "THR", .rw, 0x3FF⟩]⟩]

def rows_0827 : List RegRow := rows_0827_0

def rows_0828_0 : List RegRow := [
  ⟨"IO_QE_CFG", 0x8280000, 0x4, 8, [⟨9, 9, "SWAPAB", .rw, 0⟩, ⟨8, 8, "INVZ", .rw, 0⟩, ⟨7, 0, "FILT", .rw, 8⟩]⟩,
  ⟨"IO_HL_CFG", 0x8280020, 0x4, 8, [⟨8, 8, "INV", .rw, 0⟩, ⟨7, 0, "FILT", .rw, 0x40⟩]⟩,
  ⟨"IO_EXC_CFG", 0x8280040, 0x4, 2, [⟨31, 31, "EN", .rw, 0⟩, ⟨30, 30, "CFGERR", .ro, 0⟩, ⟨21, 16, "AMP", .rw, 0⟩, ⟨15, 0, "FREQ", .rw, 0⟩]⟩]

def rows_0828 : List RegRow := rows_0828_0

/-- The rows of the 64 KiB block an address lies in (R35, R36; BG0–BG4 share one table). -/
def blockRows (blk : Nat) : List RegRow :=
  match blk with
  | 0x200 => rows_0200
  | 0x800 => rows_0800
  | 0x801 => rows_0801
  | 0x802 => rows_0802
  | 0x803 => rows_0803
  | 0x804 => rows_0804
  | 0x805 => rows_0805
  | 0x806 => rows_0806
  | 0x807 => rows_0806
  | 0x808 => rows_0806
  | 0x809 => rows_0806
  | 0x80A => rows_0806
  | 0x80B => rows_080B
  | 0x80C => rows_080C
  | 0x80D => rows_080D
  | 0x80E => rows_080E
  | 0x80F => rows_080F
  | 0x810 => rows_0810
  | 0x811 => rows_0811
  | 0x812 => rows_0812
  | 0x813 => rows_0813
  | 0x820 => rows_0820
  | 0x821 => rows_0821
  | 0x822 => rows_0822
  | 0x823 => rows_0823
  | 0x824 => rows_0824
  | 0x825 => rows_0825
  | 0x826 => rows_0826
  | 0x827 => rows_0827
  | 0x828 => rows_0828
  | _ => []

end Sys2Proof.Machine
end

