-- ==== Sys2Proof/Machine/StBogie.lean ====
section
/-!
DEFINITION. Plain-data records of the hidden state of the bogies, the parameter port and the map store, beside their
registers and contexts.
-/
namespace Sys2Proof.Machine

/-- A sense slot of a loop channel (R144): the newest result delivered to it. -/
structure Slot where
  valid : Bool := false
  code : Word := 0
  flags : Word := 0
  len : Nat := 0
  seq : Nat := 0
  ts : Nat := 0
  deriving DecidableEq, Repr, Inhabited

/-- Where a task stands (R154). -/
inductive TaskSt | queued | running | preempted
  deriving DecidableEq, Repr, Inhabited

/-- A task (R145, R154). -/
structure Task where
  ch : Nat
  rel : Nat
  dl : Nat
  cause : Nat
  part : Bool
  catchup : Bool := false
  st : TaskSt := .queued
  /-- gated slots that a gather timeout left undelivered (R201) -/
  und : Nat := 0
  /-- running time since the first dispatch, not counting time spent preempted (R157) -/
  ran : Nat := 0
  /-- DT of the present dispatch -/
  since : Nat := 0
  deriving DecidableEq, Repr, Inhabited

/-- An open gather (R145): DT of opening and the slots that have delivered. -/
structure Gather where
  opened : Nat
  got : Nat
  deriving DecidableEq, Repr, Inhabited

/-- The newest unit notice (R152): boundary in EU, period in EU, MODE, UPD. -/
structure Notice where
  b : Nat := 0
  per : Nat := 0
  mode : Nat := 0
  upd : Nat := 0
  deriving DecidableEq, Repr, Inhabited

/-- A parameter write held by the port (R148): the bits that it writes, its effect instant, and the rank and sequence of
its waybill when it comes from the host queue. -/
structure PWrite where
  ch : Nat
  word : Nat
  val : Word
  mask : Word
  at_ : Nat
  wb : Option (Nat × Word)
  /-- the DT at which it reached the port -/
  arr : Nat := 0
  deriving DecidableEq, Repr, Inhabited

/-- A lookup in a reservation station (R142, R180, R222): the version of the map that the task reads, and its keys. -/
structure Lookup where
  map : Nat
  buf : Bool
  keys : List Word
  deriving DecidableEq, Repr, Inhabited

/-- A reservation station (R142, R189): `due` in ninths of a nanosecond. -/
structure Station where
  ch : Nat
  tag : Nat
  due : Nat
  /-- the instant of issue, in ninths of a nanosecond -/
  iss : Nat := 0
  /-- the lookup waits for line fetches -/
  miss : Bool := false
  /-- the result, once it has been found, with its fallback flag -/
  res : Option (Word × Bool) := none
  /-- the result has been written to f(tag) -/
  taken : Bool := false
  look : Lookup := ⟨0, false, []⟩
  deriving DecidableEq, Repr, Inhabited

/-- The units of R141 and R177 whose operations complete later than the word that starts them. -/
inductive Fu | fma | rot | div | svu | yld
  deriving DecidableEq, Repr, Inhabited

/-- An operation in flight (R141): `due` in ninths of a nanosecond. -/
structure InFlight where
  fu : Fu
  due : Nat
  /-- the instant of issue -/
  iss : Nat := 0
  /-- results: (true, n) is fn, (false, n) is tn -/
  dsts : List (Bool × Nat × Word)
  /-- FMA flags N, Z, NAN to be set -/
  fmaFl : Option Nat := none
  /-- sector and HI of an SVU operation -/
  sector : Option Nat := none
  /-- HI of an SVU operation (R176) -/
  svHi : Bool := false
  deriving DecidableEq, Repr, Inhabited

/-- A task of a ROM routine (R200–R206): what stood at its start. -/
structure REnv where
  ch : Nat
  task : Task
  /-- the routine ID -/
  rid : Nat
  /-- the task runs under RAMPDOWN_SAFE, and is the first one that does (R212) -/
  rd : Bool
  rdFirst : Bool
  /-- first task since STANDBY or RUN was entered, and not a catch-up (R205) -/
  first : Bool
  /-- the channel is in STANDBY (R205) -/
  standby : Bool
  /-- the quantity that RAMPDOWN_SAFE ramps, as the last task left it (R212) -/
  ramp : Option Word
  /-- the slots as the task found them when it started (R156) -/
  slots : List Slot
  /-- DT of the first word's issue -/
  start : Nat
  deriving DecidableEq, Repr, Inhabited

/-- What a micro-trap keeps of a task beside its 40-word save slot (R155): the working copy of its context, its staged
track write and consist fields, and what the conditions of R184 and R186 look at. -/
structure TaskHid where
  /-- micro-PC, return register, and the LIM flags HI LO (bits 0 and 1), the sector and MAPFLAGS below -/
  pc : Nat := 0
  ret : Option Nat := none
  /-- ALU0 and ALU1 flags Z N C V in bits 7:0 (bit 0 Z of ALU0), FMA flags N Z NAN, LIM flags HI LO -/
  alu : Nat := 0
  fma : Nat := 0
  lim : Nat := 0
  sector : Nat := 0
  mapFlags : Nat := 0
  /-- t0–t15 (R171) -/
  t : Sparse Word := []
  /-- f0–f15 (R171) -/
  f : Sparse Word := []
  /-- staged: 0–5 s0–s5, 6–10 track write, 11–14 consist fields -/
  stg : Sparse Word := []
  /-- working copy: the words 32–255 written since the last commit (R173) -/
  wctx : Sparse (Option Word) := []
  /-- the word that is held, and whether the last word issued was trap-ok (R187) -/
  held : Bool := false
  trapok : Bool := false
  /-- words issued since the last trap-ok word (R163) -/
  gap : Nat := 0
  /-- slots delivered since the task started; a BOG_TASK firing has named the channel since (R172, R186) -/
  got : Nat := 0
  fired : Bool := false
  /-- the task is the first one since STANDBY or RUN was entered (R184); end DT of S0 at its start, 0 when not valid -/
  first : Bool := false
  s0 : Nat := 0
  /-- sequence number of the last PWM commit of the task whose acknowledgement has not arrived (R186) -/
  ackWait : Option Nat := none
  /-- a fault has poisoned the task (R157) -/
  poisoned : Bool := false
  /-- a commit of the task has been late (R156) -/
  late : Bool := false
  /-- a ROM routine runs, with the words still to issue (R198, R200); the mode that follows RDDONE -/
  rom : Option REnv := none
  left : Nat := 0
  rdNext : Option Nat := none
  deriving DecidableEq, Repr, Inhabited

/-- One bogie's engine (R141, R154, R168–R194). -/
structure BogHid where
  /-- the channel whose task runs -/
  run : Option Nat := none
  /-- its working state (R167) -/
  task : TaskHid := {}
  /-- results that have not landed (R141) -/
  inflight : List InFlight := []
  /-- map lookups under way (R180) -/
  stations : List Station := []
  /-- earliest issue of the next word, in ninths of a nanosecond -/
  nextAt : Nat := 0
  /-- DT before which no task starts: a save is running (R154) -/
  freeAt : Nat := 0
  /-- the channel whose task the save that runs until then is of (R155, R189) -/
  saving : Option Nat := none
  /-- DT until which a restore runs -/
  restAt : Nat := 0
  /-- its commit port is gated (R160) -/
  gated : Bool := false
  /-- busy time in the present 1 ms window, and the DT up to which it is counted (R163) -/
  busyNs : Nat := 0
  busyFrom : Nat := 0
  /-- end of the last complete 1 ms window -/
  utilEnd : Nat := 0
  deriving DecidableEq, Repr, Inhabited

/-- A channel of the bogies beside its context. -/
structure ChHid where
  /-- save slot of a preempted task (R155) -/
  save : Option (TaskHid × List Word) := none
  /-- no task has started since STANDBY or RUN was entered (R184, COND 31) -/
  first : Bool := true
  /-- RAMPDOWN was entered and no task has run under it (R212) -/
  rdFirst : Bool := false
  /-- the quantity in use that RAMPDOWN_SAFE ramps, when it is no context word (R212) -/
  ramp : Option Word := none
  /-- a task has set RDDONE; the mode that follows (R213) -/
  rdNext : Option Nat := none
  /-- CF0–CF3 of the last CONSIST commit (R190) -/
  cf : List Word := [0, 0, 0, 0]
  /-- end DT of S0 of the last task (R396) -/
  s0end : Nat := 0
  deriving DecidableEq, Repr, Inhabited

/-- A version of a map, as its image gave it (R217). -/
structure MapVer where
  ver : Word := 0
  axes : Nat := 0
  interp : Bool := false
  fmt : Bool := false
  frac : Nat := 0
  tab : Nat := 0
  n : List Nat := []
  fallback : Word := 0
  x0 : List Word := []
  dx : List Word := []
  bps : List (List Word) := []
  ofs : Nat := 0
  pin : Bool := false
  deriving DecidableEq, Repr, Inhabited

/-- A running load (R219): which waybill it completes, and the far-memory writes that wait for an acknowledgement. -/
structure MapLoadSt where
  alt : Bool
  wb : Option Nat
  v : MapVer
  entries : List Word
  /-- the writes have started; they wait while the map drains (R221) -/
  started : Bool := true
  deriving DecidableEq, Repr, Inhabited

/-- A map beside its directory registers. -/
structure MapHid where
  a : Option MapVer := none
  b : Option MapVer := none
  load : Option MapLoadSt := none
  /-- the instant of the last switch: tasks released before it read the other buffer (R221) -/
  switchAt : Nat := 0
  deriving DecidableEq, Repr, Inhabited

/-- A line of the map cache (R224). -/
structure CacheLine where
  line : Nat
  pinned : Bool
  /-- clock of its last use (R224) -/
  used : Nat
  data : List Word
  /-- it holds an uncorrectable error (R223) -/
  bad : Bool := false
  deriving DecidableEq, Repr, Inhabited

end Sys2Proof.Machine
end

