-- ==== Sys2Proof/Machine/StDev.lean ====
section
/-!
DEFINITION. Plain-data records of the hidden state of the guard and coupler, the power ladder and the Lantern island, the
odometer, the Wenam link, and the security block, beside their registers.
-/
namespace Sys2Proof.Machine

/-- Raises of one fault ID whose record is not written yet (R422). -/
structure LogPend where
  id : Nat
  /-- DT of the first of them, and of the last -/
  first : Nat
  last : Nat
  count : Nat
  /-- instances seen, and the last one -/
  insts : List Nat
  inst : Nat
  react : Nat
  deriving DecidableEq, Repr, Inhabited

/-- A CLAIM or RELEASE_LIMP that waits for its answer since DT `at_` (R419). -/
structure Handshake where
  release : Bool
  nonce : Nat
  at_ : Nat
  deriving DecidableEq, Repr, Inhabited

/-- The guard, the coupler and the field guard beside their registers. -/
structure GuardHid where
  /-- raises that wait for their record (R422) -/
  pend : List LogPend := []
  /-- (unit, fault ID, instance): what placed each unit in GSAFE (R411) -/
  causes : List (Nat × Nat × Nat) := []
  /-- records whose CRC failed at power-on (R422, R425) -/
  badRecs : Nat := 0
  /-- DT of the last RESET_TANDEM reaction (R411) -/
  tandemAt : Option Nat := none
  /-- a RESET_CD reaction waits for its LIMP to arrive (R405) -/
  cdPend : Bool := false
  /-- the two copies of the reaction logic disagree (R409) -/
  copyBad : Bool := false
  /-- DT of the last STATUS, and its absence has been reported (R416) -/
  statusAt : Nat := 0
  statusLost : Bool := false
  /-- CLAIM and RELEASE handshakes under way (R419) -/
  shake : List Handshake := []
  /-- no heartbeat leaves before this DT: a warm reset stops them for longer than the field die waits (R405, R416) -/
  hbFrom : Nat := 0
  /-- field die: DT from which 4,000 ns without a valid heartbeat count; none while nothing is watched (R416) -/
  watchFrom : Option Nat := none
  /-- period, in µs, of the last valid heartbeat, with what `watchFrom` was before it; and the last period whose heartbeat
  counts as missed (R21) -/
  hbSeen : Option (Nat × Option Nat) := none
  hbVoid : Option Nat := none
  /-- a GRANT has been issued since limp began, and no loss has followed it (R419, R420) -/
  granted : Bool := false
  /-- field die: coupling is lost, from COUPLING_LOSS until the next GRANT (R49, R416) -/
  coupLost : Bool := false
  /-- DTs of the limp entries by coupling loss (R418) -/
  losses : List Nat := []
  /-- the field die is in its reset: it is not ready yet (R466) -/
  fdReset : Bool := false
  /-- field die: no CLAIM has arrived since its reset, so FG_GSAFE stays 0 (R410, R412) -/
  fgShut : Bool := true
  /-- DTs of the last HEARTBEAT, STATUS and ERROUT toggle: each instant has at most one (R413, R416) -/
  hbTx : Option Nat := none
  statTx : Option Nat := none
  errAt : Option Nat := none
  /-- the last write of a reaction: fault ID, DT, reaction before it (R408) -/
  reactWr : Option (Nat × Nat × Nat) := none
  deriving DecidableEq, Repr, Inhabited

/-- The power ladder and the Lantern island beside their registers. -/
structure PwrHid where
  /-- an accepted request that waits for WFI (R434) -/
  req : Option Nat := none
  /-- an entry whose step 2 has begun: its rung (R435) -/
  entry : Option Nat := none
  /-- a wake that the entry or the exit under way must honour: the target rung, 0 Run or 4 Shed -/
  wake : Option Nat := none
  /-- an exit under way: the rung left (R441) -/
  exit : Option Nat := none
  /-- a wake to Run waits for VSUP (R438) -/
  held : Bool := false
  /-- VSUP is below 5.5 V (R438), and below the thresholds of R407 -/
  lowVsup : Bool := false
  /-- a RESET_CD reaction waits for the rung's exit (R443) -/
  cdAfter : Bool := false
  /-- hash of the resume region taken at entry (R441) -/
  resume : Option (BitVec 256) := none
  /-- consecutive true samples of each LW, and its condition (R439) -/
  lwCnt : Sparse Nat := []
  lwTrue : Sparse Bool := []
  /-- the RTC tick of each LW's last sample, and the tick at which the alarm was last reached (R439, R440) -/
  lwAt : Sparse (Option Nat) := []
  alarmAt : Option Nat := none
  /-- fraction of DT in 64ths of a nanosecond (R442) -/
  dtFrac : Nat := 0
  /-- the control die takes its DT copy from the next sync word (R23) -/
  dtLoad : Bool := false
  /-- VSEL0–VSEL11 as last sampled (bit b: 5.0 V), and TESTEN sampled high (R493, R494) -/
  vsel : BitVec 12 := 0
  factory : Bool := false
  /-- POL of each unit's last active set, as FD_IO holds it in Shed (R433) -/
  heldPol : Sparse Nat := []
  /-- fraction of an RTC tick that has passed, in 64ths of a nanosecond (R440) -/
  rtcFrac : Nat := 0
  deriving DecidableEq, Repr, Inhabited

/-- The odometer beside its registers. -/
structure OdHid where
  good : Nat := 0
  /-- a supply step is settling (R450) -/
  settling : Bool := false
  /-- no supply step is left (R450) -/
  exhausted : Bool := false
  /-- conditions of R452 that held at the last evaluation, by instance -/
  low : Sparse Bool := []
  /-- DT and largest RO drift of the last evaluation (R456) -/
  evalAt : Nat := 0
  /-- the instant of the last evaluation: each has one (R448) -/
  evalDone : Option Nat := none
  /-- largest RO drift of the last evaluation (R456) -/
  roMax : Int := 0
  /-- the margin report of that evaluation (R456) -/
  report : List Byte := List.replicate 64 0
  /-- a clock switch that has been accepted and not been made (R453) -/
  clkTo : Option Bool := none
  /-- the bogie clock in force: 900 MHz -/
  slow : Bool := false
  deriving DecidableEq, Repr, Inhabited

/-- The Wenam link (R21, R23). Direction 0 is toward the field die, 1 toward the control die. -/
structure LinkHid where
  /-- DTs of the CRC errors of each direction within the last 1 ms -/
  errs : Sparse (List Nat) := []
  /-- consecutive sync words with a difference above 1 ns, up to 5 (R23) -/
  drift : Nat := 0
  /-- field die: DT of the last sync word sent (R22) -/
  syncTx : Option Nat := none
  deriving DecidableEq, Repr, Inhabited

/-- A running ATTEST (R480, R481). -/
structure Attest where
  /-- rank of its waybill, the index it signs with, and the DT at which step 2 completed, once it has -/
  ord : Nat
  idx : Nat
  at_ : Option Nat := none
  deriving DecidableEq, Repr, Inhabited

/-- A watchpoint (R482, R484): kind 0 off, 1 read, 2 write, 3 both. -/
structure Watch where
  kind : Nat := 0
  addr : Nat := 0
  mask : Nat := 0
  deriving DecidableEq, Repr, Inhabited

/-- A READ or WRITE of a debug session that is under way (R482, R484): who asked, the accesses that are left (address, and
the word of a write), and the bytes read so far. -/
structure DbgOp where
  dst : BitVec 48
  todo : List (Nat × Option (BitVec 32))
  data : List (BitVec 8) := []
  deriving DecidableEq, Repr, Inhabited

/-- The security block beside its registers: the OTP items that a device writes itself, the security store of the NV
yard, and the debug sessions. -/
structure SecHid where
  /-- OTP: REVOKED bits and the values of the programmed ARB rows, in order (R468, R470) -/
  revoked : Nat := 0
  arb : List Nat := []
  /-- security store: SEALED, entries 0–4 and the identity index line (R477, R480) -/
  sealed_ : Bool := false
  stored : List (List Byte) := []
  idxLine : BitVec 64 := 0xFFFFFFFF00000000#64
  /-- measurement entries 0–5 of this boot (R476) -/
  meas : List (List Byte) := []
  /-- manifest in force: its flags, DBGSLOT, and the patch range (R472) -/
  flags : Nat := 0
  dbgSlot : Nat := 0
  patchAt : Nat := 0
  patchLen : Nat := 0
  /-- the identity key is never used again (R480), is blocked until power-on, or until the random tests pass (R485) -/
  lmsBad : Bool := false
  idBlock : Bool := false
  rndBad : Bool := false
  /-- the attestation under way (R480) -/
  attest : Option Attest := none
  /-- debug: the nonce of the last CHAL and its DT, the fragments of a token, sessions opened since power-on, DTs of
  BADTOKEN answers, end of the lockout, end of the session -/
  nonce : Option (BitVec 128 × Nat) := none
  frags : List (Nat × List Byte) := []
  sessions : Nat := 0
  badAt : List Nat := []
  lockUntil : Option Nat := none
  ends : Option Nat := none
  /-- watchpoints (R484) -/
  watch : Sparse Watch := []
  /-- accesses of the session, oldest first: the first may wait for the link -/
  dbgQ : List DbgOp := []
  deriving DecidableEq, Repr, Inhabited

end Sys2Proof.Machine
end

