-- ==== Sys2Proof/Machine/StHost.lean ====
section
/-!
DEFINITION. Plain-data records of the hidden state of the host, far-memory and service links, the host-queue engine and
the consist engine, beside their registers.
-/
namespace Sys2Proof.Machine

/-- A running capture (R397, R398). -/
structure Cap where
  kind : Nat
  srcs : List Nat
  n : Nat
  /-- items of each source since the last one taken -/
  cnt : List Nat
  /-- items counted since the capture began (R397) -/
  total : Word := 0
  /-- an overrun has been seen (R398) -/
  ovr : Bool := false
  deriving DecidableEq, Repr, Inhabited

/-- A waybill that the engine holds (R379–R391): its ring, its words, the DT at which it arrived, and its instant once it
is resolved. -/
structure WbPend where
  /-- rank of fetching over all rings -/
  ord : Nat
  /-- its ring (R379) -/
  sq : Nat
  /-- its eight words (R379) -/
  ws : List Word
  /-- DT of the fetch (R379) -/
  fetched : Nat
  /-- its instant, once known (R382) -/
  t : Option Nat := none
  /-- holds an AT_ANGLE entry since this DT (R383); none: waits for one -/
  angAt : Option Nat := none
  /-- staged in a group, waiting for the COUPLED_COMMIT with this rank once it has been fetched (R390) -/
  group : Option Nat := none
  commit : Option Nat := none
  /-- its effect has begun; port writes, members or another block's answer that its completion waits for (R388, R391) -/
  acted : Bool := false
  left : Nat := 0
  /-- reason of a refusal found while it waits -/
  fail : Option Nat := none
  deriving DecidableEq, Repr, Inhabited

/-- A completion that is due but waits for its turn or for space (R388). -/
structure Cmpl where
  ord : Nat
  sq : Nat
  seq : Word
  status : Nat
  reason : Nat
  t : Nat
  nocmpl : Bool
  deriving DecidableEq, Repr, Inhabited

/-- What leaves the device other than by a transfer of the Wenam link: messages, frames and answers, newest last. -/
inductive OutEv
  /-- an MSI-X message (R367) -/
  | msi (vec : Nat) (addr : Nat) (data : Word)
  /-- an Ethernet frame: destination and payload bytes (R374, R482–R484) -/
  | frame (dst : Nat) (bytes : List Byte)
  /-- a completion to the host with an error: 1 Unsupported Request, 2 Completer Abort (R365, R368) -/
  | hostErr (kind : Nat)
  /-- a PTM request (R369) -/
  | ptmReq (dt : Nat)
  /-- the answer to a snoop: RspIHitI (R366) -/
  | rspIHitI
  deriving DecidableEq, Repr, Inhabited

/-- The links and engines of the host side beside their registers. -/
structure HostHid where
  /-- MSI-X Enable of the configuration space (R366, R367); the other bits are in LK_UPSTAT -/
  msixEn : Bool := false
  d3hot : Bool := false
  /-- posted writes that wait for the link (R368) -/
  postQ : List (Nat × List Byte) := []
  /-- captures under way, by channel (R397) -/
  caps : Sparse (Option Cap) := []
  /-- next rank of fetching, and the waybills held -/
  ord : Nat := 0
  wbs : List WbPend := []
  cmpls : List Cmpl := []
  /-- rings that wait behind a FENCE (rank and ring), and groups marked failed (R389, R390) -/
  fences : List (Nat × Nat) := []
  failed : List (Nat × Nat) := []
  /-- groups' staged members are those of `wbs`; inbox entries: rank, ring, words (R399) -/
  inbox : List WbPend := []
  /-- last instant of each consist stream, its open generation, and the ITERs seen (R392, R394, R396) -/
  csLast : Sparse (Option Nat) := []
  csIter : Sparse Word := []
  /-- the snapshot being published: stream, generation, T (R394) -/
  csPub : List (Nat × Nat × Nat) := []
  /-- every snapshot taken since its stream started: stream, generation, T (R386) -/
  csHist : List (Nat × Nat × Nat) := []
  /-- DT of the last periodic PTM request, and t1 of the dialogue under way (R369) -/
  ptmAt : Nat := 0
  ptmT1 : Option Nat := none
  /-- far-memory bring-up: DT at which it began (R370) -/
  farUpAt : Option Nat := none
  /-- sequence number of the service frames (R373) -/
  svcSeq : Nat := 0
  /-- DT of the last status frame (R373) -/
  svcAt : Nat := 0
  /-- what the block has sent outside, newest last (R377) -/
  out : List OutEv := []
  deriving DecidableEq, Repr, Inhabited

end Sys2Proof.Machine
end

