-- ==== Sys2Proof/Machine/State.lean ====
section
/-!
DEFINITION. The state of the block: everything the manual gives it, as plain data, with `State.reset`.
-/
namespace Sys2Proof.Machine

/-- What a front end reports to the TT block (R508). -/
inductive EdgeRep
  /-- a legal A/B edge of encoder `q`, forward or reverse -/
  | ab (q : Nat) (rev : Bool)
  /-- a Z edge of encoder `q` -/
  | z (q : Nat)
  /-- a legal adjacent state change of Hall set `h`: boundary index and direction -/
  | hall (h : Nat) (k : Nat) (rev : Bool)
  deriving DecidableEq, Repr, Inhabited

/-- A fault on its way to the guard (R404, R509). -/
structure FaultMsg where
  id : Nat
  inst : Nat
  dt : Nat
  field : Bool
  deriving DecidableEq, Repr, Inhabited

/-- A bogie commit on the link (R102, R149): `unit` 0–15 PU, 16–23 GG. -/
structure Commit where
  ch : Nat
  unit : Nat
  seq : Nat
  epoch : Word
  words : List Word
  deriving DecidableEq, Repr, Inhabited

/-- Transfers of the Wenam link that are under way (R18, R19), by content. -/
inductive LinkMsg
  -- toward the control die
  | edge (ts : Nat) (e : EdgeRep)
  | result (lc : Nat) (sn : Nat) (r : Slot)
  | psample (c : Nat) (code : Word) (valid : Bool) (ts : Nat)
  | sealAck (ch : Nat) (ok : Bool) (cause : Nat) (seq : Nat) (dt : Nat)
  | notice (u : Nat) (n : Notice)
  | brakeLine (lines : Nat)
  | dtSync
  | readData (m : Master) (a : Nat) (v : Word)
  | grant (nonce epoch : Nat)
  | refuse (nonce reason epoch : Nat)
  | released (epoch : Nat)
  | status (limp lock : Bool) (epoch : Nat) (rej : Nat)
  | reject (kind epoch : Nat) (limp : Bool)
  | limpNotice
  | llClear
  | fault (f : FaultMsg)
  -- toward the field die
  | commit (c : Commit)
  | ttCommit (entry : Nat) (c : TtCommit)
  | ttCancel (entry : Nat) (tok : Nat)
  | regWrite (m : Master) (a : Nat) (v : Word) (epoch : Option Nat)
  | regRead (m : Master) (a : Nat)
  | heartbeat (epoch : Nat)
  | claim (epoch nonce gsafe : Nat)
  | releaseLimp (epoch nonce : Nat)
  | limp
  | safeAll
  | suspend
  | gsafe (bits : Nat)
  deriving DecidableEq, Repr, Inhabited

/-- The traffic class of a transfer, 1 the highest (R19). -/
def LinkMsg.cls : LinkMsg → Nat
  | .heartbeat _ | .claim .. | .grant .. | .refuse .. | .releaseLimp .. | .released _ | .status .. | .reject .. | .limp | .safeAll
  | .suspend | .limpNotice | .gsafe _ | .llClear | .brakeLine _ | .fault _ => 1
  | .result .. | .commit _ | .sealAck .. | .notice .. | .ttCommit .. | .ttCancel .. | .edge .. => 2
  | .dtSync => 3
  | .regWrite .. | .regRead .. | .readData .. => 4
  | .psample .. => 5

/-- A transfer of the Wenam link (R18–R21): what it carries, its authority epoch and its CRC; the DT of the sender at which
its transmission starts; and the attempts that have failed. -/
structure Xfer where
  msg : LinkMsg
  epoch : Option Nat
  crc : Word
  start : Nat
  fails : Nat := 0
  deriving DecidableEq, Repr, Inhabited

/-- Nothing in the model faults: the constructor is kept for terms that the manual gives no meaning. -/
inductive Fault
  /-- an operand outside every range of the manual; safe: nothing is claimed of such a run -/
  | illFormed
  deriving DecidableEq, Repr, Inhabited

/-- Why a command has no meaning in the model. -/
inductive Refusal
  /-- raised by an arm of `exec` that is not written yet; safe -/
  | notModelled (mnemonic : String)
  deriving DecidableEq, Repr, Inhabited

/-- The state of the block. -/
structure State where
  /-- device time of the field die and the control die's copy, in ns (R6, R22) -/
  dtF : Nat := 0
  dtC : Nat := 0
  /-- every register of the setup space and every context word that differs from its reset value -/
  regs : Sparse Word := []
  /-- read latches, keyed requester × 2^32 + address (R62, R87, R360) -/
  latch : Sparse Word := []
  /-- data returned to each requester by its last register read -/
  rdData : Sparse Word := []
  /-- transfers queued or under way, in the order in which they take the link (R18–R20) -/
  toControl : List Xfer := []
  /-- transfers towards the field die, queued or under way, in the order in which they take the link (R18) -/
  toField : List Xfer := []
  /-- the link is up (R18) -/
  linkUp : Bool := true
  /-- faults that wait for the guard, and those that the field die keeps while the link is down (R404, R443) -/
  faultQ : List FaultMsg := []
  fdFaultQ : List FaultMsg := []
  /-- faults whose condition holds now (R407), keyed id × 256 + instance -/
  active : Sparse Bool := []
  /-- pending interrupt vectors of core A (the pair in tandem) and of core B (R296) -/
  vecA : Sparse Bool := []
  vecB : Sparse Bool := []
  -- tracks and timetable
  trk : Sparse TrkHid := []
  qe : Sparse QeIn := []
  hl : Sparse Nat := []
  tt : Sparse TtHid := []
  ttExec : List TtExec := []
  ttTok : Nat := 0
  trkWrQ : List TrkWr := []
  /-- levels of GPA00–GPA63: as sampled at the balls, and as driven by the device (R58, R354) -/
  gpaIn : Sparse Bool := []
  gpaDrv : Sparse Nat := []
  -- sense chain
  sn : Sparse SnHid := []
  hk : HkHid := {}
  /-- newest P sample of each sense channel on the control die (R78) -/
  pcd : Sparse Slot := []
  /-- DT of the last common restart of the P decimators (R78) -/
  psyncAt : Nat := 0
  -- PWM and brakes
  pu : Sparse PuHid := []
  cw : Sparse CmpHid := []
  /-- levels at the taps of the CWs, in nV: 0–47 the inputs of SN00–SN47, 48–63 CPIN00–CPIN15 (R122) -/
  cwIn : Sparse Int := []
  /-- the background test of the CWs: next instance and end of the last sweep (R138) -/
  bg : BgTests := {}
  /-- digital watches (R125) -/
  dw : Sparse CmpHid := []
  /-- safe states: SPEEDSEL low kept, instant of its evaluation (R128) -/
  ss : Sparse SsHid := []
  /-- filter cycle (plus 1) in which each brake line latched (R127), and the lines as last reported to the control die -/
  blAt : Sparse Nat := []
  brakeCd : Nat := 0
  /-- the field clock is lost: every output is held off until a field-die reset (R412) -/
  fieldClkLost : Bool := false
  /-- R415: the next reject raises F_EPOCH_REJECT, and the DT of the last one that did -/
  rejArmed : Bool := true
  rejAt : Nat := 0
  /-- level of ERROUT_P (R413) -/
  errout : Bool := false
  -- general counters
  tc : Sparse TcHid := []
  gstart : Option Nat := none
  -- bogies
  slots : Sparse Slot := []
  gathers : Sparse (Option Gather) := []
  tasks : List Task := []
  notices : Sparse Notice := []
  pport : List PWrite := []
  bog : Sparse BogHid := []
  chs : Sparse ChHid := []
  /-- the present relief has been reported as failed (R160) -/
  reliefFailed : Bool := false
  /-- patch RAM of the bogies (R194) -/
  patch : Sparse MicroWord := []
  -- map store
  maps : Sparse MapHid := []
  /-- lines of the map cache, keyed set × 16 + way (R224), and the clock of its replacement -/
  cache : Sparse (Option CacheLine) := []
  cacheClk : Nat := 0
  /-- far-memory line fetches, oldest first: the first 64 are in flight, the others wait (R224) -/
  fetches : List Nat := []
  /-- far memory, in 64-byte lines of sixteen words by word number, and its poisoned lines (R33, R214, R223) -/
  farMem : Sparse Word := []
  farPoison : Sparse Bool := []
  /-- host memory as the block has written it, by byte address (R377–R398) -/
  hostMem : Sparse Byte := []
  /-- the host-queue engine, configuration space and host link (R378) -/
  host : HostHid := {}
  -- cores, lamplighter, memories
  coreA : CoreSt := {}
  coreB : CoreSt := {}
  lamp : CoreSt := {}
  /-- pending vectors of the lamplighter (R444) -/
  vecL : Sparse Bool := []
  /-- held writes, yards, NV yard, shadow contexts, wear and scrubbing (R310) -/
  mem : MemHid := {}
  /-- yards and NV yard, by byte address (R33) -/
  ram : Sparse Byte := []
  /-- poison marks of 32-bit halves, by half number (R332) -/
  poison : Sparse Bool := []
  /-- program memory by syllable address, and its lines with an uncorrectable error (R228, R340) -/
  pm : Sparse Syl := []
  pmBad : Sparse Bool := []
  /-- the lamplighter's program and data (R259) -/
  lpm : Sparse Syl := []
  lram : Sparse Byte := []
  -- guard and coupler, ladder, odometer, Wenam link, security
  gd : GuardHid := {}
  pw : PwrHid := {}
  od : OdHid := {}
  lk : LinkHid := {}
  sc : SecHid := {}
  -- the model's own
  freeCtr : Nat := 0
  pending : List Instr := []
  deriving DecidableEq, Repr, Inhabited

/-- The machine right after power-on reset (R14, R458). -/
def State.reset : State := {}

end Sys2Proof.Machine
end

