-- ==== Sys2Proof/Machine/Ops.lean ====
section
/-!
DEFINITION. Named operations over the state: registers and their fields (R10–R14), free values, faults on their way to
the guard (R404), interrupt vectors (R319), transfers of the Wenam link (R18–R20) and the hidden records.
-/
namespace Sys2Proof.Machine

/-! ### Transfers of the link (R18–R20) -/

/-- A transfer that carries `m` under an authority epoch. -/
def xferOf (m : LinkMsg) (epoch : Option Nat) : Xfer := { msg := m, epoch := epoch, crc := Config.linkCrc (m, epoch), start := 0 }

/-- A register access of the host: it carries no authority epoch (R30). -/
def LinkMsg.ofHost : LinkMsg → Bool
  | .regWrite .host _ _ _ | .regRead .host _ => true
  | _ => false

/-- Transfers that wait behind one that starts at `t`: a transfer occupies the link for 1 ns (R19). -/
def pushBack (t : Nat) : List Xfer → List Xfer
  | [] => []
  | y :: l => if t < y.start then y :: l else { y with start := t + 1 } :: pushBack (t + 1) l

/-- Transfer `x`, queued at the sender's DT `now`, takes its place: behind what has started, and behind what waits in its own
class or a higher one (R19). A transfer that has started keeps its place whatever is replayed (R20). -/
def enqueue (now : Nat) (x : Xfer) (l : List Xfer) : List Xfer :=
  let ahead := l.takeWhile (fun y => decide (y.start ≤ now) || decide (y.msg.cls ≤ x.msg.cls))
  let t := match ahead.getLast? with
    | some y => max now (y.start + 1)
    | none => now
  ahead ++ { x with start := t } :: pushBack t (l.drop ahead.length)

/-- The transfer that arrives next, when `p` accepts what it carries (R20: the order of a direction is kept). -/
def takeHead {β : Type} (p : LinkMsg → Option β) : List Xfer → Option (β × List Xfer)
  | [] => none
  | x :: l => (p x.msg).map (fun b => (b, l))

/-- A transfer that carries `m` is queued or under way. -/
def underWay (m : LinkMsg) (l : List Xfer) : Bool := l.any (fun x => x.msg == m)

/-- What a command answers. -/
abbrev Out := Host.Outcome State Fault Refusal

/-! ### Registers -/

/-- The row of the register map that holds address `a`. -/
def rowAt (a : Nat) : Option RegRow :=
  (blockRows (a / 0x10000)).find? fun r =>
    decide (r.base ≤ a) && (if r.count ≤ 1 then a == r.base
      else decide ((a - r.base) / r.stride < r.count) && (a - r.base) % r.stride == 0)

/-- Context words 0–31 of every channel have the rows of channel 0 (R143). -/
def ctxRowAddr (a : Nat) : Nat := if 0x02000000 ≤ a ∧ a < 0x02010000 then 0x02000000 + (a - 0x02000000) % 0x400 else a

/-- The reset value that the fields of a row give (R10, R14). -/
def fldsReset (fs : List Fld) : Nat := fs.foldl (fun acc f => acc + (f.reset % 2 ^ (f.hi + 1 - f.lo)) * 2 ^ f.lo) 0

/-- The fixed constants K0–K15 of the microcode (R181). -/
def ucK : List Word :=
  [0x00000000, 0x3F800000, 0x3F000000, 0x40000000, 0x3F5DB3D7, 0x3F13CD3A, 0x3F2AAAAB, 0x3EAAAAAB,
   0x40C90FDB, 0x4E22F983, 0x30C90FDB, 0x2AAAAAAB, 0x34000000, 0x3F3504F3, 0x7FFFFFFF, 0x80000000]

/-- The value of the register at `a` after power-on reset; 0 where no chapter defines one (R13, R14). YD15 belongs to
GUARD (R325); constants 0–15 are those of R181. -/
def regReset (a : Nat) : Word :=
  if a = A.YD_OWN 15 then 10
  else if A.BG_UC_K 0 ≤ a ∧ a < A.BG_UC_K 16 then ucK.getD ((a - A.BG_UC_K 0) / 4) 0
  else match rowAt (ctxRowAddr a) with
    | some r => BitVec.ofNat 32 (fldsReset r.flds)
    | none => 0

namespace State

/-- The register, or context word, at address `a`. -/
def rd (s : State) (a : Nat) : Word := Sparse.get regReset s.regs a

/-- The state with the register at `a` holding `v`. -/
def wr (s : State) (a : Nat) (v : Word) : State := { s with regs := Sparse.set regReset s.regs a v }

/-- Bits `hi:lo` of the register at `a`. -/
def fld (s : State) (a hi lo : Nat) : Nat := bitsOf (s.rd a) hi lo

/-- Bits `hi:lo` of the register at `a` set to `v`. -/
def setFld (s : State) (a hi lo v : Nat) : State := s.wr a (putBits (s.rd a) hi lo v)

/-- Bit `b` of the register at `a`. -/
def flag (s : State) (a b : Nat) : Bool := bitOf (s.rd a) b

/-- Bit `b` of the register at `a` set to `v`. -/
def setFlag (s : State) (a b : Nat) (v : Bool) : State := s.wr a (setBit (s.rd a) b v)

/-- The register at `a` as a number. -/
def num (s : State) (a : Nat) : Nat := (s.rd a).toNat

/-- Bits `hi:lo` counted up by `n`, saturating. -/
def satAdd (s : State) (a hi lo n : Nat) : State :=
  s.setFld a hi lo (min (s.fld a hi lo + n) (2 ^ (hi + 1 - lo) - 1))

/-- A 64-bit value split over two registers. -/
def wr64 (s : State) (aL aH v : Nat) : State :=
  (s.wr aL (BitVec.ofNat 32 v)).wr aH (BitVec.ofNat 32 (v / 2 ^ 32))

/-- The 64-bit value held by two registers. -/
def num64 (s : State) (aL aH : Nat) : Nat := s.num aL + 2 ^ 32 * s.num aH

/-- Every register that `p` names returns to its reset value (R14). -/
def resetRegs (s : State) (p : Nat → Bool) : State := { s with regs := Sparse.drop p s.regs }

end State

/-! ### Writes by access type -/

/-- The bits of a row's fields whose type is one of `ts`. -/
def typeMask (fs : List Fld) (ts : List Acc) : Word :=
  fs.foldl (fun m f => if f.ty ∈ ts then m ||| fieldMask f.hi f.lo else m) 0

/-- What a write of `v` leaves in a register that holds `old` (R11–R13): `locked` the guard's lock (RWL), `ev` the W1C
bits that a hardware event sets in the same cycle (R12), `clr` the W1S bits that one clears. -/
def applyWrite (fs : List Fld) (locked : Bool) (old v ev clr : Word) : Word :=
  let rw := typeMask fs (if locked then [.rw] else [.rw, .rwl])
  let w1c := typeMask fs [.w1c]
  let w1s := typeMask fs [.w1s]
  let a := (old &&& ~~~ rw) ||| (v &&& rw)
  let b := (a &&& ~~~ (v &&& w1c)) ||| (ev &&& w1c)
  (b &&& ~~~ (clr &&& w1s)) ||| (v &&& w1s)

/-- What a read returns of a register that holds `w`: WO fields read 0 (R11). -/
def readMask (fs : List Fld) (w : Word) : Word := w &&& ~~~ typeMask fs [.wo]

/-- The fields of the register at `a`. -/
def fieldsAt (a : Nat) : List Fld :=
  match rowAt (ctxRowAddr a) with
  | some r => r.flds
  | none => []

namespace State

/-- The guard has locked the reactions and the RWL fields (R408). -/
def locked (s : State) : Bool := s.flag A.GD_STAT 31

/-- A write that has no rule of its own (R11–R13). -/
def plainWrite (s : State) (a : Nat) (v : Word) (ev clr : Word := 0) : State :=
  s.wr a (applyWrite (fieldsAt a) s.locked (s.rd a) v ev clr)

/-! ### Free values -/

/-- A value that the manual leaves open (assumption 1), and the state in which the next one is another. -/
def fresh (s : State) : BitVec 64 × State := (Config.freeBits s.freeCtr, { s with freeCtr := s.freeCtr + 1 })

/-! ### Faults and interrupts -/

/-- A latch of vector `v` (R296): in tandem, and for the synchronous vectors, at core A; unhitched, at the core that
R319 chooses. -/
def raiseVec (s : State) (v : Nat) : State :=
  let toA := { s with vecA := Sparse.set (fun _ => false) s.vecA v true }
  let toB := fun (t : State) => { t with vecB := Sparse.set (fun _ => false) t.vecB v true }
  if ! s.flag A.TD_STAT 31 then toA
  else if v = 15 ∨ (224 ≤ v ∧ v ≤ 231) then toB toA
  else if s.flag (A.TD_ROUTE (v / 32)) (v % 32) then toB s
  else toA

/-- The condition of fault `id`, instance `inst`, holds or has ended (R407, GD_ACT). -/
def setActive (s : State) (id inst : Nat) (b : Bool) : State :=
  let act := Sparse.set (fun _ => false) s.active (id * 256 + inst) b
  let anyI := act.any (fun e => e.1 / 256 == id && e.2)
  ({ s with active := act }).setFlag (A.GD_ACT (id / 32)) (id % 32) anyI

/-- A fault detected on the control die (R404). -/
def raiseC (s : State) (id inst : Nat) : State :=
  { s with faultQ := s.faultQ ++ [⟨id, inst, s.dtC, false⟩] }

/-! ### The link -/

/-- A transfer from the field die is queued (R18), with the epoch that the field guard holds; none leaves while the link is
not running. -/
def sendC (s : State) (m : LinkMsg) : State :=
  if s.linkUp then { s with toControl := enqueue s.dtF (xferOf m (some (s.num A.FG_EPOCH))) s.toControl } else s

/-- A transfer from the control die is queued (R18), with the epoch of the control side; what the host sends carries none
(R30). -/
def sendF (s : State) (m : LinkMsg) : State :=
  if s.linkUp then
    { s with toField := enqueue s.dtC (xferOf m (if m.ofHost then none else some (s.num A.CPL_EPOCH))) s.toField }
  else s

/-- A fault detected on the field die: reported over the link (R509), or kept, up to 64, while the link is not running
(R443). -/
def raiseF (s : State) (id inst : Nat) : State :=
  let f : FaultMsg := ⟨id, inst, s.dtF, true⟩
  if s.linkUp then s.sendC (.fault f)
  else if s.fdFaultQ.length < 64 then { s with fdFaultQ := s.fdFaultQ ++ [f] }
  else s.setFlag A.LN_STAT 26 true

/-! ### Hidden records -/

def getTrk (s : State) (n : Nat) : TrkHid := Sparse.get (fun _ => {}) s.trk n
def setTrk (s : State) (n : Nat) (h : TrkHid) : State := { s with trk := Sparse.set (fun _ => {}) s.trk n h }
def getTt (s : State) (n : Nat) : TtHid := Sparse.get (fun _ => {}) s.tt n
def setTt (s : State) (n : Nat) (h : TtHid) : State := { s with tt := Sparse.set (fun _ => {}) s.tt n h }
def getSn (s : State) (c : Nat) : SnHid := Sparse.get (fun _ => {}) s.sn c
def setSn (s : State) (c : Nat) (h : SnHid) : State := { s with sn := Sparse.set (fun _ => {}) s.sn c h }
def getPu (s : State) (u : Nat) : PuHid := Sparse.get (fun _ => {}) s.pu u
def setPu (s : State) (u : Nat) (h : PuHid) : State := { s with pu := Sparse.set (fun _ => {}) s.pu u h }
def getCw (s : State) (n : Nat) : CmpHid := Sparse.get (fun _ => {}) s.cw n
def setCw (s : State) (n : Nat) (h : CmpHid) : State := { s with cw := Sparse.set (fun _ => {}) s.cw n h }
def getDw (s : State) (n : Nat) : CmpHid := Sparse.get (fun _ => {}) s.dw n
def setDw (s : State) (n : Nat) (h : CmpHid) : State := { s with dw := Sparse.set (fun _ => {}) s.dw n h }
def getSs (s : State) (u : Nat) : SsHid := Sparse.get (fun _ => {}) s.ss u
def setSs (s : State) (u : Nat) (h : SsHid) : State := { s with ss := Sparse.set (fun _ => {}) s.ss u h }
def getTc (s : State) (n : Nat) : TcHid := Sparse.get (fun _ => {}) s.tc n
def setTc (s : State) (n : Nat) (h : TcHid) : State := { s with tc := Sparse.set (fun _ => {}) s.tc n h }
/-- The newest result that channel `ch` has been delivered from sense channel `sn` (R144). -/
def getRes (s : State) (ch sn : Nat) : Slot := Sparse.get (fun _ => {}) s.slots (ch * 128 + sn)
def setRes (s : State) (ch sn : Nat) (v : Slot) : State := { s with slots := Sparse.set (fun _ => {}) s.slots (ch * 128 + sn) v }
def getNotice (s : State) (u : Nat) : Notice := Sparse.get (fun _ => {}) s.notices u
def setNotice (s : State) (u : Nat) (n : Notice) : State := { s with notices := Sparse.set (fun _ => {}) s.notices u n }
def getGather (s : State) (ch : Nat) : Option Gather := Sparse.get (fun _ => none) s.gathers ch
def setGather (s : State) (ch : Nat) (g : Option Gather) : State := { s with gathers := Sparse.set (fun _ => none) s.gathers ch g }

/-! ### Read latches (R62, R87, R360) -/

/-- The latch of requester `m` for the register at `a`. -/
def getLatch (s : State) (m : Master) (a : Nat) : Word :=
  Sparse.get (fun k => regReset (k % 2 ^ 32)) s.latch (m.latchNo * 2 ^ 32 + a)

def setLatch (s : State) (m : Master) (a : Nat) (v : Word) : State :=
  { s with latch := Sparse.set (fun k => regReset (k % 2 ^ 32)) s.latch (m.latchNo * 2 ^ 32 + a) v }

/-- The data of the last register read of requester `m`. -/
def setData (s : State) (m : Master) (v : Word) : State :=
  { s with rdData := Sparse.set (fun _ => 0) s.rdData m.latchNo v }

/-- A pin of GPA00–GPA63 driven by the device: 0 low, 1 high, 2 toggle (R52, R58, R354). `gpaDrv` holds 0 for a pin that
is not driven, 1 for low and 2 for high. -/
def driveGpa (s : State) (p act : Nat) : State :=
  let old := Sparse.get (fun _ => 0) s.gpaDrv p
  let new := if act = 0 then 1 else if act = 1 then 2 else if old = 2 then 1 else 2
  { s with gpaDrv := Sparse.set (fun _ => 0) s.gpaDrv p new }

end State

end Sys2Proof.Machine
end

