-- ==== Sys2Proof/Machine/Wakes.lean ====
section
/-!
DEFINITION. The rung the device is in, the states of its power domains, and what wakes it (R432, R436–R438, R441, R443).
-/
namespace Sys2Proof.Machine

/-- PW_DOMSTAT0 in each rung (R432): two bits a domain, in the order of the table. -/
def cdDomains (rung : Nat) : Word :=
  let pack := fun (l : List Nat) => BitVec.ofNat 32 (l.foldr (fun d acc => d + 4 * acc) 0)
  match rung with
  | 1 => pack [0, 1, 1, 1, 1, 1, 1, 1, 1, 1, 1, 1, 0, 0, 0, 0]
  | 2 => pack [0, 2, 2, 2, 2, 2, 2, 2, 2, 2, 2, 3, 2, 2, 2, 0]
  | 3 => pack [0, 3, 3, 3, 3, 3, 3, 3, 3, 3, 2, 3, 3, 3, 3, 3]
  | 4 => pack [0, 3, 3, 3, 3, 3, 3, 3, 3, 3, 3, 3, 3, 3, 3, 3]
  | 5 => pack [3, 3, 3, 3, 3, 3, 3, 3, 3, 3, 3, 3, 3, 3, 3, 3]
  | _ => 0

/-- PW_DOMSTAT1 in each rung (R432). -/
def fdDomains (rung : Nat) : Word :=
  let pack := fun (l : List Nat) => BitVec.ofNat 32 (l.foldr (fun d acc => d + 4 * acc) 0)
  match rung with
  | 3 => pack [0, 0, 0, 0, 0, 3, 0, 0]
  | 4 => pack [0, 3, 3, 3, 3, 3, 0, 0]
  | 5 => pack [0, 3, 3, 3, 3, 3, 3, 3]
  | _ => 0

namespace State

/-- The rung that PW_STAT shows (R432). -/
def rung (s : State) : Nat := s.fld A.PW_STAT 31 29

/-- The control die's engines are clocked: in Run, and in Idle those of the domains that stay ON (R432). -/
def cdOn (s : State) : Bool := decide (s.rung < 2)

/-- The field-die block at `a` is OFF in this rung (R432). -/
def fieldOff (s : State) (a : Nat) : Bool :=
  (s.rung == 5 && a / 0x10000 != 0x827)
    || (s.rung == 4 && (a / 0x10000 == 0x820 || a / 0x10000 == 0x821 || a / 0x10000 == 0x822 || a / 0x10000 == 0x824))

/-- Cores, bogies, security, map store, yards and program MRAM are clocked (R432). -/
def coreOn (s : State) : Bool := decide (s.rung = 0)

/-- Cause `b` of the PW block (R446): 0 refusal, 1 return to Run, 2 mailbox, 3 PoDL or VSUP change. -/
def pwCause (s : State) (b : Nat) : State :=
  let s1 := s.setFlag A.PW_IRQST b true
  if s.flag A.PW_IRQEN b then s1.raiseVec (240 + b) else s1

/-- The cores complete WFI: they go on at the instruction after it. -/
def completeWfi (s : State) : State :=
  let go := fun (k : CoreSt) => if k.wait = .wfi then { k with wait := .none } else k
  { s with coreA := go s.coreA, coreB := go s.coreB }

/-- PW_STAT.RUNG and the domains show rung `r`; the upstream link uses L1 in Idle and L1.2 in Stand (R368). -/
def showRung (s : State) (r : Nat) : State :=
  let s1 := ((s.setFld A.PW_STAT 31 29 r).wr A.PW_DOMSTAT0 (cdDomains r)).wr A.PW_DOMSTAT1 (fdDomains r)
  s1.setFld A.LK_UPSTAT 7 6 (if ! s.flag A.LK_UPSTAT 31 then 0 else if r = 1 then 1 else if r = 2 then 3 else 0)

/-- Back in Run from rung `r` (R441, R446). The signature window and the watchdogs go on where the cores' clock stopped
(assumption 155). -/
def returnRun (s : State) (r : Nat) : State :=
  let s1 := { (s.showRung 0).setFld A.PW_STAT 28 26 r with linkUp := true }
  let start := match s.mem.winPos with | some n => s.dtC - n | none => s.mem.winStart
  let go := fun (k : CoreSt) => { k with kickAt := k.kickAt + (start - s.mem.winStart) }
  { s1 with pw := { s1.pw with exit := none, wake := none }, coreA := go s1.coreA, coreB := go s1.coreB,
            mem := { s1.mem with winStart := start, winPos := none } }.pwCause 1

/-- Exit from Idle (R441): the cores complete WFI. -/
def leaveIdle (s : State) : State := (s.returnRun 1).completeWfi

/-! ### Wakes (R436–R438) -/

/-- The sources and the DT of a wake; sources of one cycle are recorded together (R441, R443). -/
def recordWake (s : State) (srcs : Nat) : State :=
  let same := s.num64 A.PW_WAKEDT_L A.PW_WAKEDT_H = s.dtF
  (s.wr A.PW_WAKESRC (BitVec.ofNat 32 (if same then srcs ||| s.num A.PW_WAKESRC else srcs))).wr64 A.PW_WAKEDT_L A.PW_WAKEDT_H s.dtF

/-- An exit from a rung in which the control die was off begins: the link returns, and the control die is to take its DT
from the next sync word before any of its blocks uses DT (R23, R441). -/
def linkReturn (s : State) : State :=
  { s with linkUp := true, pw := { s.pw with exit := some s.rung, dtLoad := true } }

/-- The device begins its exit from the rung it is in. -/
def beginExit (s : State) : State :=
  if s.pw.exit.isSome then s else if s.rung = 1 then s.leaveIdle else s.linkReturn

/-- A wake toward `target`, 0 Run or 4 Shed (R437, R438, R443): before step 2 it ends an entry, during an entry it waits
for its end, and without VSUP a wake to Run is held. A source that comes later than the wake of an exit under way is no
source of that wake. -/
def wakeTo (s : State) (target srcs : Nat) : State :=
  if s.rung = 0 ∧ s.pw.entry.isNone ∧ s.pw.req.isNone then
    -- the wake of this very cycle has brought the device back: this source is one of its sources too
    if s.num64 A.PW_WAKEDT_L A.PW_WAKEDT_H = s.dtF ∧ s.num A.PW_WAKESRC ≠ 0 then s.recordWake srcs else s
  else if target = 0 ∧ ! s.flag A.LN_STAT 30 then
    { s with pw := { s.pw with held := true } }.setFlag A.LN_STAT 25 true
  else if (s.pw.exit.isSome ∨ (s.pw.entry.isSome ∧ s.pw.wake.isSome)) ∧ s.num64 A.PW_WAKEDT_L A.PW_WAKEDT_H ≠ s.dtF then s
  else
    let s1 := s.recordWake srcs
    if s1.pw.req.isSome then
      ({ s1 with pw := { s1.pw with req := none } }.setFlag A.PW_STAT 21 true).completeWfi
    else if s1.pw.entry.isSome then { s1 with pw := { s1.pw with wake := some (match s1.pw.wake with | some t => min t target | none => target) } }
    else s1.beginExit

/-- Source `i` is effective in rung `r` (R436). -/
def effective (i r : Nat) : Bool :=
  if i ≤ 8 ∨ i = 12 ∨ i = 13 then true
  else if i ≤ 11 then decide (r ≤ 4)
  else decide (r ≤ 2)

/-- The rung that a wake meets: the one being entered, or the present one. -/
def wakeRung (s : State) : Nat :=
  match s.pw.req, s.pw.entry with
  | some r, _ => r
  | none, some r => r
  | none, none => s.rung

/-- Source `i` becomes true (R436, R437). -/
def wakeSource (s : State) (i : Nat) : State :=
  let s1 := s.setFlag A.LN_WAKEPEND i true
  if ! s1.flag A.LN_WAKEEN i ∨ ! effective i s1.wakeRung then s1
  else if s1.flag A.LN_WAKEDIR i then s1.wakeTo 0 (2 ^ i)
  else { s1 with vecL := Sparse.set (fun _ => false) s1.vecL (96 + i) true }

/-- Pending enabled sources. -/
def pendSources (s : State) : Nat := s.fld A.LN_WAKEPEND 15 0 &&& s.fld A.LN_WAKEEN 15 0

end State

end Sys2Proof.Machine
end

