-- ==== Sys2Proof/Machine/Tracks.lean ====
section
/-!
DEFINITION. Tracks TRK0–TRK15 and their front ends (R41–R50, R62, R63, R508), with the part of the timetable that a
loss or a recovery of a track touches (R57).
-/
namespace Sys2Proof.Machine

/-! ### Edge intervals (R508) -/

/-- A legal edge at `t`: a reversal discards the intervals that ended before it. An edge from before the last loss condition
begins no interval and is not counted (R47). -/
def EdgeTimer.edge (tm : EdgeTimer) (t : Nat) (rev : Bool) : EdgeTimer :=
  if t < tm.since then { tm with rev := rev }
  else
    let iv := match tm.last with
      | some l => [t - l]
      | none => []
    { tm with
      last := some t
      ivals := if rev = tm.rev then (iv ++ tm.ivals).take 8 else iv
      cnt := tm.cnt + 1
      rev := rev }

/-- A loss condition at `t`: no interval that begins before its end is used, and legal edges are counted anew. -/
def EdgeTimer.loss (tm : EdgeTimer) (t : Nat) : EdgeTimer := { tm with last := none, ivals := [], cnt := 0, since := max tm.since t }

/-- A stall: no interval that contains it is used (R48). -/
def EdgeTimer.stalled (tm : EdgeTimer) : EdgeTimer := { tm with last := none, ivals := [] }

/-- `step` (32.32 counts per edge) divided by the mean of the newest `m` usable intervals (R44), to nearest; 0 with no
usable interval. -/
def EdgeTimer.speed (tm : EdgeTimer) (step m : Nat) : Nat :=
  let iv := tm.ivals.take m
  let sum := iv.foldl (· + ·) 0
  if sum = 0 then 0 else min ((2 * step * iv.length + sum) / (2 * sum)) (2 ^ 64 - 1)

/-! ### Reading a track -/

namespace State

def trkEn (s : State) (n : Nat) : Bool := s.flag (A.TRK_CFG n) 31
def trkSrc (s : State) (n : Nat) : Nat := s.fld (A.TRK_CFG n) 30 28
def trkInst (s : State) (n : Nat) : Nat := s.fld (A.TRK_CFG n) 27 24
/-- TRK0 is never lost (R41). -/
def trkLost (s : State) (n : Nat) : Bool := n != 0 && s.flag (A.TRK_STAT n) 31
def trkRev (s : State) (n : Nat) : Bool := n != 0 && s.flag (A.TRK_STAT n) 30
/-- TRKn_INC as 32.32. -/
def trkInc (s : State) (n : Nat) : Nat := s.num (A.TRK_INC_I n) * 2 ^ 32 + s.num (A.TRK_INC_F n)
/-- Intervals that the mean is taken over: 1, 2, 4 or 8 for QE, one for HL (R44, R508). -/
def trkAvg (s : State) (n : Nat) : Nat := if s.trkSrc n = 1 then 2 ^ s.fld (A.TRK_CFG n) 15 14 else 1
/-- Counts per edge, 32.32: TRKn_INC, or a sixth of a turn. -/
def trkStep (s : State) (n : Nat) : Nat := if s.trkSrc n = 1 then s.trkInc n else 2 ^ 64 / 6

/-- Time for which a BOGIE track moves: until its speed falls to 0 (R45; DEDUCED, assumption 8). -/
def trkElapsed (spd : Nat) (acc : Int) (el : Nat) : Nat :=
  if acc < 0 then min el (spd * 1000 / ((-acc).toNat * 65536)) else el

/-- The speed of track `n` at DT `dt`, 32.32 (R41, R43, R45). -/
def trkSpeed (s : State) (n dt : Nat) : Nat :=
  if n = 0 then 2 ^ 32
  else
    let h := s.getTrk n
    if s.trkSrc n = 3 then
      ((h.spd : Int) + h.acc * 65536 * (trkElapsed h.spd h.acc (dt - h.t) : Int) / 1000).toNat
    else h.spd

/-- The acceleration, Q15.16 counts per ns per µs (R43). -/
def trkAcc (s : State) (n : Nat) : Int := if n ≠ 0 ∧ s.trkSrc n = 3 then (s.getTrk n).acc else 0

/-- What track `n` holds since its last update. -/
def trkPt (s : State) (n : Nat) : TrkPt :=
  let h := s.getTrk n
  ⟨h.t, h.ang, h.held, h.spd, h.acc, s.trkRev n⟩

/-- The update of track `n` that stood at DT `dt`: the newest that is not later, or else the oldest that is known. -/
def trkPtAt (s : State) (n dt : Nat) : TrkPt :=
  let l := s.trkPt n :: (s.getTrk n).past
  (l.find? (fun p => decide (p.t ≤ dt))).getD (l.getLast?.getD (s.trkPt n))

/-- The angle of track `n` at DT `dt` as 32.32 (R41, R44, R45, R48), from the update that stood then. -/
def trkAng64 (s : State) (n dt : Nat) : Nat :=
  if n = 0 then (dt % 2 ^ 32) * 2 ^ 32
  else
    let p := s.trkPtAt n dt
    match p.held with
    | some a => a
    | none =>
      let el := dt - p.t
      let adv : Nat :=
        if s.trkSrc n = 3 then
          let e := trkElapsed p.spd p.acc el
          ((p.spd * e : Nat) + p.acc * 65536 * (e * e : Nat) / 2000).toNat
        else min (p.spd * el) (s.trkStep n)
      if p.rev then (p.ang + 2 ^ 64 - adv % 2 ^ 64) % 2 ^ 64 else (p.ang + adv) % 2 ^ 64

/-- The oldest instant at which a track may still be read: a released task's, or 1 ms back (assumption 125). -/
def trkKeepFrom (s : State) : Nat := s.tasks.foldl (fun m t => min m t.rel) (s.dtC - 1000000)

/-- Updates as far back as one that stood at `d`. -/
def keepPts (d : Nat) : List TrkPt → List TrkPt
  | [] => []
  | p :: l => if p.t ≤ d then [p] else p :: keepPts d l

/-- Track `n` is updated by `f`; what it held until then stays known. -/
def trkPut (s : State) (n : Nat) (f : TrkHid → TrkHid) : State :=
  let h := s.getTrk n
  s.setTrk n (f { h with past := keepPts s.trkKeepFrom (s.trkPt n :: h.past) })

/-- The direction of track `n` is taken from an update; a change counts as a reversal for firings committed on it (R56). -/
def setDir (s : State) (n : Nat) (rev : Bool) : State :=
  let s1 := s.setFlag (A.TRK_STAT n) 30 rev
  if s.trkRev n = rev then s1
  else { s1 with tt := Sparse.mapv (fun _ => {}) (fun (h : TtHid) =>
    { h with revd := h.revd || h.commit.any (fun c => c.trk == n) }) s1.tt }

/-- The angle in counts (R8). -/
def trkAng (s : State) (n dt : Nat) : Nat := s.trkAng64 n dt / 2 ^ 32

/-- The field die's speed estimate of track `n`, when it is valid (R49, R131). -/
def trkEstimate (s : State) (n : Nat) : Option Nat :=
  if n = 0 then some (2 ^ 32) else if (s.getTrk n).fVal then some (s.getTrk n).fSpd else none

/-! ### Loss and recovery (R46, R47, R57) -/

def ttEn (s : State) (e : Nat) : Bool := s.flag (A.TT_CTL e) 31
def ttTrk (s : State) (e : Nat) : Nat := s.fld (A.TT_CTL e) 27 24
def ttHeld (s : State) (e : Nat) : Bool := s.flag (A.TT_STAT e) 25
def ttCfgErr (s : State) (e : Nat) : Bool := s.flag (A.TT_STAT e) 24

/-- PRED_L/H and STAT.PREDEU of entry `e` from its prediction, or its last committed firing (R62). -/
def ttShowPred (s : State) (e : Nat) : State :=
  let h := s.getTt e
  match (match h.pred with | some p => some p | none => h.lastCommit) with
  | some p => (s.wr64 (A.TT_PRED_L e) (A.TT_PRED_H e) (p / euPerNs)).setFld (A.TT_STAT e) 4 0 (p % euPerNs)
  | none => (s.wr64 (A.TT_PRED_L e) (A.TT_PRED_H e) (2 ^ 64 - 1)).setFld (A.TT_STAT e) 4 0 0

/-- Entry `e` on a track that is lost now: a committed firing stands, an uncommitted one waits for its fallback or holds
(R57). -/
def ttOnLoss (e : Nat) (s : State) : State :=
  let h := s.getTt e
  if h.commit.isSome ∨ h.fbAt.isSome ∨ s.ttHeld e ∨ s.ttCfgErr e then s
  else
    let d := s.num (A.TT_FBDLY e)
    if d = 0 then ((s.setTt e { h with pred := none }).setFlag (A.TT_STAT e) 25 true).ttShowPred e
    else (s.setTt e { h with pred := none, fbAt := some (s.dtC + d) }).ttShowPred e

/-- Every enabled entry on track `n`. -/
def forEntriesOn (s : State) (n : Nat) (f : Nat → State → State) : State :=
  forUpTo 512 (fun e t => if t.ttEn e ∧ t.ttTrk e = n then f e t else t) s

/-- Track `n` is lost by a condition at `ts` (R46): LOST and LOSTEV set, F_TRACK_LOST is raised, and R57 applies to its
entries.  A loss condition on a lost track restarts the count of legal edges and the intervals (R508). -/
def trkLose (s : State) (n ts : Nat) : State :=
  let h := s.getTrk n
  let s1 := s.setTrk n { h with tm := h.tm.loss ts }
  if s.trkLost n then s1
  else
    let s2 := (s1.setFlag (A.TRK_STAT n) 31 true).setFlag (A.TRK_STAT n) 28 true
    let s3 := (s2.raiseC 0x66 n).setActive 0x66 n true
    s3.forEntriesOn n ttOnLoss

/-- Track `n` recovers (R47): LOST clears, RECOV sets, and held entries resume prediction. -/
def trkRecover (s : State) (n : Nat) : State :=
  let s1 := (s.setFlag (A.TRK_STAT n) 31 false).setFlag (A.TRK_STAT n) 26 true
  (s1.setActive 0x66 n false).forEntriesOn n (fun e t => t.setFlag (A.TT_STAT e) 25 false)

/-- The field die's estimate of track `n` is lost (R49). -/
def fdLose (s : State) (n ts : Nat) : State :=
  let h := s.getTrk n
  s.setTrk n { h with fVal := false, fTm := h.fTm.loss ts }

/-- Both dies see a loss condition of track `n` at `ts`. -/
def frontLoss (s : State) (n ts : Nat) : State := (s.fdLose n ts).trkLose n ts

/-! ### Edges applied at the TT block -/

/-- A legal edge or state change at `ts` moves the angle to `ang` (R44), clears a stall (R48), and recovers a lost track
whose count of legal edges has reached `need`, when `need` is given (R47). DESIGN CHOICE (assumption 124): every edge of a
track that is not lost sets DIR, one that clears a stall too, while the speed is still 0. -/
def trkStepTo (s : State) (n ts : Nat) (rev : Bool) (ang : Nat) (need : Option Nat) : State :=
  let h := s.getTrk n
  let tm := h.tm.edge ts rev
  let spd := tm.speed (s.trkStep n) (s.trkAvg n)
  let rec? := match need with
    | some k => decide (k ≤ tm.cnt)
    | none => false
  let live := ! s.trkLost n || rec?
  let s1 := s.trkPut n (fun h =>
    { h with t := ts, ang := ang, held := none, tm := tm, lastEdge := ts, spd := if live then spd else h.spd })
  let s2 := s1.setFlag (A.TRK_STAT n) 29 false
  let s3 := if live then s2.setDir n rev else s2
  if s.trkLost n ∧ rec? then s3.trkRecover n else s3

/-- A legal A/B edge at track `n` (R44, R47). -/
def trkAb (s : State) (n ts : Nat) (rev : Bool) : State :=
  let inc := s.trkInc n
  let a := (s.getTrk n).ang
  let ang := if rev then (a + 2 ^ 64 - inc) % 2 ^ 64 else (a + inc) % 2 ^ 64
  s.trkStepTo n ts rev ang (if s.flag (A.TRK_CFG n) 13 then none else some 4)

/-- A Z edge at track `n`: loads and checks OFFS with ZEN, recovers a lost track with ZREQ (R42, R46, R47, R508). DESIGN
CHOICE (assumption 124): with no legal edge since the loss, the direction at the recovery is that of the last edge before. -/
def trkZ (s : State) (n ts : Nat) : State :=
  let h := s.getTrk n
  let offs := s.num (A.TRK_OFFS n) * 2 ^ 32
  let s0 := s.setFlag (A.TRK_STAT n) 27 true
  if s.trkLost n then
    if s.flag (A.TRK_CFG n) 13 then
      let spd := h.tm.speed (s.trkStep n) (s.trkAvg n)
      ((s0.trkPut n (fun h => { h with t := ts, ang := offs, held := none, spd := spd })).setDir n h.tm.rev).trkRecover n
    else s0
  else if s.flag (A.TRK_CFG n) 12 then
    let d := (sxInt 64 ((h.ang + 2 ^ 64 - offs) % 2 ^ 64)).natAbs
    if 2 * s.trkInc n < d then s0.frontLoss n ts
    else s0.trkPut n (fun h => { h with t := ts, ang := offs, held := none })
  else s0

/-- A legal Hall state change across boundary `k` at track `n` (R44, R47). -/
def trkHall (s : State) (n ts k : Nat) (rev : Bool) : State :=
  s.trkStepTo n ts rev ((s.num (A.TRK_OFFS n) * 2 ^ 32 + k * 2 ^ 64 / 6) % 2 ^ 64) (some 2)

/-- Every enabled track of source `src` and instance `i`. -/
def forTracksOf (s : State) (src i : Nat) (f : Nat → State → State) : State :=
  forUpTo 16 (fun n t => if n ≠ 0 ∧ t.trkEn n ∧ t.trkSrc n = src ∧ t.trkInst n = i then f n t else t) s

/-- The field die's own estimate after a legal edge at `ts` (R49), with `need` as in `trkStepTo`. -/
def fdEdge (s : State) (n ts : Nat) (rev : Bool) (need : Option Nat) : State :=
  let h := s.getTrk n
  let tm := h.fTm.edge ts rev
  let ok := h.fVal || (match need with | some k => decide (k ≤ tm.cnt) | none => false)
  s.setTrk n { h with fTm := tm, fVal := ok, fSpd := if ok then tm.speed (s.trkStep n) (s.trkAvg n) else h.fSpd }

/-- The field die's own estimate after a Z edge (R47, R49). -/
def fdZ (s : State) (n : Nat) : State :=
  let h := s.getTrk n
  if ! h.fVal ∧ s.flag (A.TRK_CFG n) 13 then
    s.setTrk n { h with fVal := true, fSpd := h.fTm.speed (s.trkStep n) (s.trkAvg n) }
  else s

end State

/-! ### Front ends (R44, R46, R63, R508) -/

/-- Place of the levels (A, B) in the forward order 00, 10, 11, 01 (R44). -/
def qeIndex (a b : Bool) : Nat := if a then (if b then 2 else 1) else (if b then 3 else 0)

/-- Place of a Hall state UVW in the forward order that begins 101, 001 (R44); none for 000 and 111. -/
def hallIndex (v : Nat) : Option Nat :=
  match v with
  | 5 => some 0 | 1 => some 1 | 3 => some 2 | 2 => some 3 | 6 => some 4 | 4 => some 5 | _ => none

/-- The field-clock edge at which a filtered level changes (R508). -/
def State.stamp (s : State) : Nat := s.dtF / 4 * 4

/-- QE_AB_EDGE: the field-clock sample shows `pa`, `pb` at QEq_A and QEq_B, each seen through its own filter (R63). -/
def execQeAbEdge (q : Fin 8) (pa pb : PinSample) (s : State) : Out :=
  let o := Sparse.get (fun _ => {}) s.qe q
  let filt := s.fld (A.IO_QE_CFG q) 7 0
  let a := pa.filtered filt o.a
  let b := pb.filtered filt o.b
  let swap := s.flag (A.IO_QE_CFG q) 9
  let idx := fun (x y : Bool) => if swap then qeIndex y x else qeIndex x y
  let s1 := { s with qe := Sparse.set (fun _ => {}) s.qe q { o with a := a, b := b } }
  let d := (idx a b + 4 - idx o.a o.b) % 4
  if d = 0 then .next s
  else if d = 2 then .next (s1.forTracksOf 1 q (fun n t => t.frontLoss n s.stamp))
  else
    let rev := decide (d = 3)
    let ts := s.stamp
    let s2 := s1.forTracksOf 1 q
      (fun n t => t.fdEdge n ts rev (if t.flag (A.TRK_CFG n) 13 then none else some 4))
    .next (s2.sendC (.edge ts (.ab q rev)))

/-- QE_Z_EDGE: the sample shows `pz` at QEq_Z; the change of the filtered level to the active one is a Z edge. -/
def execQeZEdge (q : Fin 8) (pz : PinSample) (s : State) : Out :=
  let o := Sparse.get (fun _ => {}) s.qe q
  let z := pz.filtered (s.fld (A.IO_QE_CFG q) 7 0) o.z
  let act := z != s.flag (A.IO_QE_CFG q) 8
  let s1 := { s with qe := Sparse.set (fun _ => {}) s.qe q { o with z := z } }
  if o.z = z then .next s
  else if act then
    .next ((s1.forTracksOf 1 q (fun n t => t.fdZ n)).sendC (.edge s.stamp (.z q)))
  else .next s1

/-- HL_STATE_CHANGE: the sample shows `p` at the pins of HLh (U is bit 2 of the filtered state). -/
def execHlStateChange (h : Fin 8) (p : HallSample) (s : State) : Out :=
  let inv := fun (x : Nat) => if s.flag (A.IO_HL_CFG h) 8 then 7 - x else x
  let o := Sparse.get (fun _ => 0) s.hl h
  let v := p.filtered (s.fld (A.IO_HL_CFG h) 7 0) o
  let s1 := { s with hl := Sparse.set (fun _ => 0) s.hl h v }
  if o = v then .next s
  else
    match hallIndex (inv v), hallIndex (inv o) with
    | none, _ => .next (s1.forTracksOf 2 h (fun n t => t.frontLoss n s.stamp))
    | some _, none => .next s1
    | some i, some j =>
      let d := (i + 6 - j) % 6
      if d = 1 ∨ d = 5 then
        let rev := decide (d = 5)
        let k := if rev then i else j
        let ts := s.stamp
        let s2 := s1.forTracksOf 2 h (fun n t => t.fdEdge n ts rev (some 2))
        .next (s2.sendC (.edge ts (.hall h k rev)))
      else .next (s1.forTracksOf 2 h (fun n t => t.frontLoss n s.stamp))

/-- The report of `e` applies at the TT block as of its time stamp (R508). -/
def applyEdge (s : State) (ts : Nat) (e : EdgeRep) : State :=
  match e with
  | .ab q rev => s.forTracksOf 1 q (fun n t => t.trkAb n ts rev)
  | .z q => s.forTracksOf 1 q (fun n t => t.trkZ n ts)
  | .hall h k rev => s.forTracksOf 2 h (fun n t => t.trkHall n ts k rev)

/-- The A/B report of encoder `q` with time stamp `ts` among transfers that follow: it belongs to the sample of a Z edge. -/
def sameSample (q ts : Nat) (x : Xfer) : Bool :=
  match x.msg with
  | .edge ts' (.ab q' _) => q' == q && ts' == ts
  | _ => false

/-- TRACK_EDGE_REPORT: the next report reaches the TT block. An A/B edge in the same sample as a Z edge applies before it,
whichever of the two reports is first on the link (R508). -/
def execTrackEdgeReport (s : State) : Out :=
  match takeHead (fun m => match m with | .edge ts e => some (ts, e) | _ => none) s.toControl with
  | some ((ts, .z q), rest) =>
    match rest.find? (sameSample q ts) with
    | some x =>
      let s1 := { s with toControl := rest.eraseP (sameSample q ts) }
      .next (applyEdge (match x.msg with | .edge _ e => applyEdge s1 ts e | _ => s1) ts (.z q))
    | none => .next (applyEdge { s with toControl := rest } ts (.z q))
  | some ((ts, e), rest) => .next (applyEdge { s with toControl := rest } ts e)
  | none => .next s

/-! ### Bogie tracks -/

/-- A track write reaches the TT block (R45–R47), and the field die's estimate copies it unless coupling is lost (R49). One
from any channel but WRCH is rejected, whatever the track follows. -/
def applyTrackWrite (s : State) (w : TrkWr) : State :=
  let n := w.trk
  if w.ch ≠ s.fld (A.TRK_CFG n) 21 16 then s.setFlag (A.TRK_STAT n) 25 true
  else if n = 0 ∨ ! s.trkEn n ∨ s.trkSrc n ≠ 3 then s
  else
    let h := s.getTrk n
    let copies : Bool := s.linkUp && ! s.gd.coupLost
    let s0 := s.setTrk n { h with lastWr := s.dtC, fSpd := if copies then w.spd else h.fSpd, fVal := if copies then w.valid else h.fVal }
    if ! w.valid then s0.trkLose n s.dtC
    else
      let s1 := s0.trkPut n (fun h => { h with t := w.dt, ang := w.ang * 2 ^ 32, held := none, spd := w.spd, acc := w.acc })
      let s2 := if w.spd = 0 then s1 else s1.setDir n w.rev
      if s.trkLost n then s2.trkRecover n else s2

/-- TRACK_WRITE: the oldest track write that has left a bogie takes effect. -/
def execTrackWrite (s : State) : Out :=
  match s.trkWrQ with
  | w :: rest => .next (applyTrackWrite { s with trkWrQ := rest } w)
  | [] => .next s

/-- TRACK_WDOG (R46): a BOGIE track without a write for WDOG × 16 ns is lost. -/
def execTrackWdog (n : Fin 16) (s : State) : Out :=
  let wd := s.fld (A.TRK_WDOG n) 15 0
  if n.val ≠ 0 ∧ s.trkEn n ∧ s.trkSrc n = 3 ∧ wd ≠ 0 ∧ (s.getTrk n).lastWr + wd * 16 ≤ s.dtC ∧ ! s.trkLost n ∧ s.cdOn then
    .next (s.trkLose n s.dtC)
  else .next s

/-- TRACK_STALL (R48): no edge for STALL µs. -/
def execTrackStall (n : Fin 16) (s : State) : Out :=
  let st := s.fld (A.TRK_CFG n) 7 0
  let h := s.getTrk n
  if n.val ≠ 0 ∧ s.trkEn n ∧ (s.trkSrc n = 1 ∨ s.trkSrc n = 2) ∧ st ≠ 0 ∧ h.lastEdge + st * 1000 ≤ s.dtC ∧
      ! s.flag (A.TRK_STAT n) 29 then
    .next ((s.trkPut n (fun h => { h with t := s.dtC, ang := s.trkAng64 n s.dtC, held := some (s.trkAng64 n s.dtC), spd := 0,
                                          tm := h.tm.stalled, fSpd := 0, fTm := h.fTm.stalled })).setFlag (A.TRK_STAT n) 29 true)
  else .next s

/-- Some enabled entry is on track `n` (R46). -/
def State.trkInUse (s : State) (n : Nat) : Bool := (List.range 512).any fun e => s.ttEn e && s.ttTrk e == n

/-- A write of TRKn_CFG (R46): a change of SRC or INST while enabled loses the track, and so does clearing EN while
entries on it are enabled.  The front end starts anew when EN sets (ZSEEN counts since the enable). DESIGN CHOICE
(assumption 124): a change of SRC or INST leaves the stall time counting from the old source's last edge, and a track that is
enabled again keeps its acceleration until the next track write. -/
def writeTrkCfg (n : Nat) (v : Word) (s : State) : State :=
  if n = 0 then s
  else
    let old := s.rd (A.TRK_CFG n)
    let new := applyWrite (fieldsAt (A.TRK_CFG n)) s.locked old v 0 0
    let was := bitOf old 31
    let now := bitOf new 31
    let chg := bitsOf old 30 28 ≠ bitsOf new 30 28 ∨ bitsOf old 27 24 ≠ bitsOf new 27 24
    let s1 := s.wr (A.TRK_CFG n) new
    if was ∧ ! now then
      if s.trkInUse n then s1.trkLose n s.dtC else s1.setFlag (A.TRK_STAT n) 31 true
    else if ! was ∧ now then
      ((s1.trkPut n (fun h => { h with tm := {}, fTm := {}, fVal := false, lastEdge := s.dtC, lastWr := s.dtC, spd := 0,
                                       ang := s.trkAng64 n s.dtC, t := s.dtC, held := none })).setFlag
        (A.TRK_STAT n) 27 false).setFlag (A.TRK_STAT n) 29 false
    else if was ∧ now ∧ chg then s1.frontLoss n s.dtC
    else s1

/-- TRK_CFG_WRITE. -/
def execTrkCfgWrite (n : Fin 16) (v : Word) (s : State) : Out := .next (writeTrkCfg n v s)

/-- A read of TRKn_ANG (R62): returns the angle and latches SPD_I, SPD_F, ACC and STAT of the same instant. -/
def readTrkAng (m : Master) (n : Nat) (s : State) : Word × State :=
  let spd := s.trkSpeed n s.dtC
  let s1 := s.setLatch m (A.TRK_SPD_I n) (BitVec.ofNat 32 (spd / 2 ^ 32))
  let s2 := s1.setLatch m (A.TRK_SPD_F n) (BitVec.ofNat 32 spd)
  let s3 := s2.setLatch m (A.TRK_ACC n) (wordOf (s.trkAcc n))
  let s4 := s3.setLatch m (A.TRK_STAT n) (s.rd (A.TRK_STAT n))
  (BitVec.ofNat 32 (s.trkAng n s.dtC), s4)

/-- TRK_ANG_READ. -/
def execTrkAngRead (m : Master) (n : Fin 16) (s : State) : Out :=
  let r := readTrkAng m n s
  .next (r.2.setData m r.1)

/-- A write of IO_EXCn_CFG (R50): out-of-range FREQ or AMP leaves the excitation off with CFGERR. -/
def writeExcCfg (n : Nat) (v : Word) (s : State) : State :=
  let new := applyWrite (fieldsAt (A.IO_EXC_CFG n)) s.locked (s.rd (A.IO_EXC_CFG n)) v 0 0
  let bad := bitsOf new 21 16 < 1 ∨ 32 < bitsOf new 21 16 ∨ bitsOf new 15 0 < 200 ∨ 2000 < bitsOf new 15 0
  s.wr (A.IO_EXC_CFG n) (setBit new 30 (bitOf new 31 && decide bad))

/-- EXC_CFG_WRITE. -/
def execExcCfgWrite (n : Fin 2) (v : Word) (s : State) : Out := .next (writeExcCfg n v s)

/-- The excitation of EXCn is driven: enabled and in range (R50). -/
def State.excOn (s : State) (n : Nat) : Bool := s.flag (A.IO_EXC_CFG n) 31 && ! s.flag (A.IO_EXC_CFG n) 30

end Sys2Proof.Machine
end

