-- ==== Sys2Proof/Machine/Sense.lean ====
section
/-!
DEFINITION. The sense chain: windows, the precise and fast paths, diagnostics, plausibility checkers and the
housekeeping converter (R64–R88).
-/
namespace Sys2Proof.Machine

/-! ### Decimation and trim (R67, R71, R79) -/

/-- The code of a raw result `num / den` under a trim (R67), and whether it saturated. -/
def trimCode (num : Int) (den : Nat) (ofs : Int) (gain : Nat) : Int × Bool :=
  let c := roundDiv ((num - ofs * (den : Int)) * (gain : Int)) (den * 2 ^ 22)
  let k := clampI (-(2 ^ 23)) (2 ^ 23 - 1) c
  (k, decide (k ≠ c))

/-- Sum of the kernel weights `h − |t|` for `t ≤ j` (R71, scaled by h²). -/
def kernelSum (h : Nat) (j : Int) : Int :=
  if j ≤ - (h : Int) then 0
  else if j ≤ 0 then (j + h) * (j + h + 1) / 2
  else if j < h then (h : Int) * h - ((h : Int) - j) * ((h : Int) - j - 1) / 2
  else (h : Int) * h

/-- Weight of sample `s - h + 1 + i` of a window of `len` samples, scaled by h² (R71); 1 when T = 0. -/
def windowWeight (h len i : Nat) : Int :=
  if h = 0 then 1
  else kernelSum h ((i : Int) - h + 1) - kernelSum h ((i : Int) - h + 1 - len)

/-- Weighted sum of a bitstream, a 1 as +1 and a 0 as −1 (R67, R71). -/
def weightedSum (h len : Nat) : Nat → List Bool → Int
  | _, [] => 0
  | i, b :: bs => (if b then windowWeight h len i else - windowWeight h len i) + weightedSum h len (i + 1) bs

/-- Taper T in samples of a TAPER code (R71). -/
def taperOf (code : Nat) : Nat :=
  match code with
  | 1 => 8 | 2 => 16 | 3 => 32 | 4 => 64 | _ => 0

/-- Weight of sample `i` of a sinc4 of ratio `d` (R78), scaled by d⁴: four boxes of length `d` folded. -/
def sinc4Weight (d i : Nat) : Int :=
  let b := fun (j : Nat) => if i < j * d then (0 : Int) else (((i - j * d + 3) * (i - j * d + 2) * (i - j * d + 1) / 6 : Nat) : Int)
  b 0 - 4 * b 1 + 6 * b 2 - 4 * b 3 + b 4

/-- Tap `k` of the 32-tap symmetric compensation filter (R78). -/
def pTap (k : Nat) : Int := Config.pFir (if k < 16 then k else 31 - k)

/-- Weight of the `i`-th newest sample in a P sample of ratio `d`: the filter over 32 sinc4 outputs `d` samples apart. -/
def pWeight (d i : Nat) : Int :=
  (List.range 32).foldl (fun a k => if i < k * d then a else a + pTap k * sinc4Weight d (i - k * d)) 0

/-- Weighted sum of a bitstream, newest first, over the P path. -/
def pSum (d : Nat) : Nat → List Bool → Int
  | _, [] => 0
  | i, b :: bs => (if b then pWeight d i else - pWeight d i) + pSum d (i + 1) bs

/-- Scale of `pSum`: the gain for a constant input. -/
def pScale (d : Nat) : Nat := d ^ 4 * ((List.range 32).foldl (fun a k => a + pTap k) 0).toNat

/-- Sum of a sinc2 filter of ratio 16 over 31 samples, bit 0 the oldest (R79), scaled by 256. -/
def fSum (x : BitVec 31) : Int :=
  (List.range 31).foldl
    (fun (acc : Int) (i : Nat) =>
      let w : Int := 16 - (((i : Int) - 15).natAbs : Int)
      if x.getLsbD i then acc + w else acc - w) 0

/-- A real value scaled by 2^149, an infinity (`true`: negative), or no number. -/
inductive XReal where
  | fin (v : Int)
  | inf (neg : Bool)
  | nan
  deriving DecidableEq, Repr

/-- What a binary32 word stands for, exactly. -/
def f32XReal (w : Word) : XReal :=
  let e := bitsOf w 30 23
  let m := bitsOf w 22 0
  if e = 255 then (if m = 0 then .inf (bitOf w 31) else .nan)
  else
    let v : Nat := if e = 0 then m else (m + 2 ^ 23) * 2 ^ (e - 1)
    .fin (if bitOf w 31 then - (v : Int) else v)

/-- `x` times an integer; an infinity times 0 is no number. -/
def XReal.times (x : XReal) (n : Int) : XReal :=
  match x with
  | .fin v => .fin (v * n)
  | .inf neg => if n = 0 then .nan else .inf (neg != decide (n < 0))
  | .nan => .nan

/-- `x − y`; the difference of like infinities is no number. -/
def XReal.minus (x y : XReal) : XReal :=
  match x, y with
  | .fin a, .fin b => .fin (a - b)
  | .nan, _ | _, .nan => .nan
  | .inf a, .inf b => if a = b then .nan else .inf a
  | .inf a, .fin _ => .inf a
  | .fin _, .inf b => .inf (! b)

/-- |x| > y, where both are numbers. -/
def XReal.absAbove (x y : XReal) : Option Bool :=
  match x, y with
  | .nan, _ | _, .nan => none
  | .fin a, .fin b => some (decide (b < a.natAbs))
  | .fin _, .inf neg => some neg
  | .inf _, .inf false => some false
  | .inf _, _ => some true

namespace State

def snEn (s : State) (c : Nat) : Bool := s.flag (A.SN_CFG c) 31
def snSettling (s : State) (c : Nat) : Bool := s.flag (A.SN_STAT c) 30

/-- A status event of the sense block: the bit sets, and vector 178 with EVIRQ. -/
def snEvent (s : State) (c bit : Nat) : State :=
  let s1 := s.setFlag (A.SN_STAT c) bit true
  if s.flag A.SN_CTRL 31 then s1.raiseVec 178 else s1

/-- An invalid TAPER or unit field: the channel opens no window (R77). -/
def snWinBad (s : State) (c : Nat) : Bool :=
  let w := s.rd (A.SN_WCFG c)
  let badUnit := fun u => decide (48 ≤ u ∧ u ≤ 62)
  decide (5 ≤ bitsOf w 29 27) || badUnit (bitsOf w 19 14) || badUnit (bitsOf w 11 6)

def snPdecBad (s : State) (c : Nat) : Bool :=
  let d := s.fld (A.SN_PCFG c) 15 0
  decide (d < 400 ∨ 40000 < d)

/-- STAT.CFGERR of a sense channel (R77, R78, R81). -/
def snSetCfgErr (s : State) (c : Nat) : State :=
  s.setFlag (A.SN_STAT c) 27 (s.snWinBad c || s.snPdecBad c || s.fld (A.SN_DIAG c) 3 0 == 0)

/-- Trim registers of the selected range; an SX channel uses set 0 (R67). -/
def snTrim (s : State) (c : Nat) : Int × Nat :=
  let r := if c < 48 then s.fld (A.SN_CFG c) 30 29 else 0
  (sxInt 24 (s.fld (A.SN_TRIM0_OFS c + 8 * r) 23 0), s.fld (A.SN_TRIM0_GAIN c + 8 * r) 23 0)

/-- The code of a mean `acc / den` of channel `c` (R67). -/
def snCode (s : State) (c : Nat) (acc : Int) (den : Nat) : Int × Bool :=
  let inv := if s.flag (A.SN_CFG c) 27 then - acc else acc
  let t := s.snTrim c
  trimCode (if c < 48 then inv * 2 ^ 21 * 5 else inv * 2 ^ 23) den t.1 t.2

/-! ### Window events (R70, R74, R76) -/

/-- Selected edges of the clock of SX channel `c` before instant `t` since the channel was enabled (R66). -/
def sxCount (s : State) (c t : Nat) : Nat :=
  let f := s.flag (A.SN_CFG c) 28
  Config.sxEdges (c - 48) f t - Config.sxEdges (c - 48) f (instant (s.getSn c).enAt 0)

/-- The smallest sample index of channel `c` at or after instant `t` (R70): SN samples lie 250 EU apart, sample n of an SX
channel is the nth selected edge (R65, R66). -/
def snIndex (s : State) (c t : Nat) : Nat := if c < 48 then ceilDiv t 250 else s.sxCount c t + 1

/-- The last sample index of channel `c` before instant `t`. -/
def snLast (s : State) (c t : Nat) : Nat := if c < 48 then (t - 1) / 250 else s.sxCount c t

def winIdle (s : State) (c : Nat) : State :=
  let h := s.getSn c
  (s.setSn c { h with win := none }).setFlag (A.SN_STAT c) 31 false

/-- A window opens at sample `i`, with the configuration of this moment; an invalid configuration opens none (R77). -/
def winOpen (s : State) (c i : Nat) : State :=
  let w := s.rd (A.SN_WCFG c)
  let h := s.getSn c
  if s.snWinBad c then s.winIdle c
  else
    (s.setSn c { h with win := some ⟨i, taperOf (bitsOf w 29 27), bitOf w 30, bitsOf w 19 14, bitsOf w 13 12, bitsOf w 11 6,
      bitsOf w 5 4, s.snSettling c,
      h.stallNow⟩ }).setFlag (A.SN_STAT c) 31 true

/-- The window path takes events: EN and WEN. -/
def winHears (s : State) (c : Nat) : Bool := s.snEn c && s.flag (A.SN_WCFG c) 31

/-- The window path takes events and opens windows. -/
def winOn (s : State) (c : Nat) : Bool := s.winHears c && ! s.snWinBad c

/-- A start event at instant `t` (EU): events of one kind in one nanosecond count as one (R76). -/
def winStart (s : State) (c t : Nat) : State :=
  let h := s.getSn c
  if ! s.winHears c ∨ h.lastSt = some (t / euPerNs) then s
  else
    let s1 := s.setSn c { h with lastSt := some (t / euPerNs) }
    let s2 := if h.win.isSome then s1.snEvent c 26 else s1
    s2.winOpen c (s.snIndex c t)

/-- The open window ends at sample `e`: a result becomes due, or the window was too short (R74). -/
def winClose (s : State) (c t e : Nat) (long : Bool) : State :=
  let h := s.getSn c
  match h.win with
  | none => s
  | some w =>
    let s1 := s.winIdle c
    if e - w.s < max w.taper 1 then s1.snEvent c 24
    else s1.setSn c { s1.getSn c with done := h.done ++ [⟨w, e, t / euPerNs, long⟩] }

/-- An end event at instant `t` (EU). With CHAIN it is also a start event (R70). -/
def winEnd (s : State) (c t : Nat) : State :=
  let h := s.getSn c
  if ! s.winHears c ∨ h.lastEn = some (t / euPerNs) then s
  else
    let s1 := s.setSn c { h with lastEn := some (t / euPerNs) }
    let chain := match h.win with
      | some w => w.chain
      | none => s.flag (A.SN_WCFG c) 30
    let s2 := if h.win.isSome then s1.winClose c t (s.snIndex c t) false else s1.snEvent c 25
    if chain then
      let h2 := s2.getSn c
      (s2.setSn c { h2 with lastSt := some (t / euPerNs) }).winOpen c (s.snIndex c t)
    else s2

/-- One event that is a start, an end, or both: the end applies first (R76). -/
def winEvent (s : State) (c t : Nat) (st en : Bool) : State :=
  let s1 := if en then s.winEnd c t else s
  if st then s1.winStart c t else s1

/-- An event on line `k` of unit `u` at instant `t` reaches every window decimator that it is selected for (R70, R111); an
open window keeps the event sources latched at its start (R77). -/
def winLine (s : State) (u k t : Nat) : State :=
  forUpTo 72 (fun c s =>
    let w := s.rd (A.SN_WCFG c)
    let (st, en) := match (s.getSn c).win with
      | some o => (o.stUnit == u && o.stLine == k, o.enUnit == u && o.enLine == k)
      | none => (bitsOf w 19 14 == u && bitsOf w 13 12 == k, bitsOf w 11 6 == u && bitsOf w 5 4 == k)
    if st || en then s.winEvent c t st en else s) s

end State

/-! ### Commands of the window path -/

/-- A write of SNnn_CFG or SXnn_CFG (R68, R69). -/
def writeSnCfg (c : Nat) (v : Word) (s : State) : State :=
  let old := s.rd (A.SN_CFG c)
  let new := applyWrite (fieldsAt (A.SN_CFG c)) s.locked old v 0 0
  let guarded : Word := 0x78000000
  if bitOf old 31 then
    let kept := (new &&& ~~~ guarded) ||| (old &&& guarded)
    let s1 := s.wr (A.SN_CFG c) kept
    let s2 := if new &&& guarded = old &&& guarded then s1 else s1.setFlag (A.SN_STAT c) 20 true
    if bitOf new 31 then s2
    else
      let h := s2.getSn c
      ((s2.setSn c { h with win := none, done := [], pValid := false, rngCnt := 0 }).setFlag (A.SN_STAT c) 31 false).setFlag
        (A.SN_STAT c) 30 false
  else
    let s1 := s.wr (A.SN_CFG c) new
    if bitOf new 31 then
      let h := s1.getSn c
      -- an SN decimator keeps its phase (R78), an SX one counts from here (R66)
      let last := if c < 48 then some (s.snLast c (instant s.dtF 0)) else none
      (s1.setSn c { h with enAt := s.dtF, win := none, done := [], rngCnt := 0, pLast := last }).setFlag (A.SN_STAT c) 30 true
    else s1

/-- SETTLING_END (R69): 20 µs after EN. -/
def execSettlingEnd (c : Fin 72) (s : State) : Out :=
  if s.snEn c ∧ s.snSettling c ∧ (s.getSn c).enAt + 20000 ≤ s.dtF then .next (s.setFlag (A.SN_STAT c) 30 false)
  else .next s

/-- A write of WCFG (R77). -/
def writeWcfg (c : Nat) (v : Word) (s : State) : State :=
  let s1 := (s.plainWrite (A.SN_WCFG c) v).snSetCfgErr c
  if bitOf v 31 then s1 else s1.winIdle c

/-- A write of WCTL: one write with START and END both 1 applies the end first (R76). -/
def writeWctl (c : Nat) (v : Word) (s : State) : State :=
  s.winEvent c (instant s.dtF 0) (bitOf v 0) (bitOf v 1)

/-- WINDOW_LONG (R74): the open window has reached 2^24 samples and ends there. -/
def execWindowLong (c : Fin 72) (s : State) : Out :=
  let h := s.getSn c
  match h.win with
  | none => .next s
  | some w =>
    let e := w.s + 2 ^ 24
    if s.snLast c (instant (s.dtF + 1) 0) < e then .next s
    else
      let t := if c.val < 48 then e * 250 else instant s.dtF 0
      let s1 := (s.winClose c t e true).setFlag (A.SN_STAT c) 23 true
      .next (if w.chain then s1.winOpen c e else s1)

/-- WINDOW_RESULT (R71–R75): the oldest closed window's result becomes available. `xs` is the bitstream from sample
s − h + 1 to e + h − 2 (from s to e − 1 when T = 0), oldest first. -/
def execWindowResult (c : Fin 72) (xs : List Bool) (s : State) : Out :=
  let h := s.getSn c
  match h.done with
  | [] => .next s
  | d :: rest =>
    let hT := d.w.taper / 2
    let len := d.e - d.w.s
    let s0 := s.setSn c { h with done := rest }
    if len < max d.w.taper 1 then .next (s0.snEvent c 24)
    else
      let r := s.snCode c (weightedSum hT len 0 xs) ((if hT = 0 then 1 else hT * hT) * len)
      let seq := (s.fld (A.SN_WFLG c) 15 0 + 1) % 65536
      let flags := BitVec.ofNat 32 (2 ^ 31 + r.2.toNat * 2 ^ 30 + d.long.toNat * 2 ^ 29 + d.w.settle.toNat * 2 ^ 28
        + d.w.stall.toNat * 2 ^ 27 + seq)
      let s1 := ((s0.wr (A.SN_WRES c) (wordOf r.1)).wr (A.SN_WFLG c) flags).wr (A.SN_WLEN c) (BitVec.ofNat 32 len)
      let s2 := s1.wr64 (A.SN_WTS_L c) (A.SN_WTS_H c) d.endDt
      if s.flag (A.SN_WCFG c) 26 then
        .next (s2.sendC (.result (s.fld (A.SN_WCFG c) 25 20) c ⟨true, wordOf r.1, flags, len, seq, d.endDt⟩))
      else .next s2

/-- A read of WRES (R87): latches WFLG, WLEN and WTS of the same window. -/
def readWres (m : Master) (c : Nat) (s : State) : Word × State :=
  (s.rd (A.SN_WRES c),
   [A.SN_WFLG c, A.SN_WLEN c, A.SN_WTS_L c, A.SN_WTS_H c].foldl (fun t a => t.setLatch m a (s.rd a)) s)

/-- WRES_READ. -/
def execWresRead (m : Master) (c : Fin 72) (s : State) : Out :=
  let r := readWres m c s
  .next (r.2.setData m r.1)

/-! ### Precise and fast paths, diagnostics -/

/-- A checker's configuration is invalid (R82). -/
def pcBad (s : State) (n : Nat) : Bool :=
  let w := s.rd (A.SN_PC_CFG n)
  let mode := bitsOf w 30 29
  let a := bitsOf w 28 22
  let b := bitsOf w 21 15
  let cc := bitsOf w 14 8
  let pOk := fun c => decide (c < 72) && s.flag (A.SN_PCFG c) 31 && s.fld (A.SN_PCFG c) 15 0 == s.fld (A.SN_PCFG a) 15 0
  mode == 3 || bitsOf w 3 0 == 0
    || (mode == 0 && ! (pOk a && pOk b))
    || (mode == 1 && ! (pOk a && pOk b && pOk cc))
    || (mode == 2 && ! (decide (a < 72) && decide (cc < 40)))

/-- CFGERR of every checker follows the configuration, its own and that of the channels that it names (R82).
DESIGN CHOICE (assumption 127): it shows only while the checker is enabled. -/
def pcSetCfgErr (s : State) : State :=
  forUpTo 16 (fun n t => t.setFlag (A.SN_PC_STAT n) 30 (t.flag (A.SN_PC_CFG n) 31 && pcBad t n)) s

/-- PC_EVALUATE (R82): one evaluation of checker `n`, with `h` the HK result in HK mode. -/
def pcEvaluate (n : Nat) (h : Int) (s : State) : State :=
  let w := s.rd (A.SN_PC_CFG n)
  if ! bitOf w 31 then s
  else if pcBad s n then s.setFlag (A.SN_PC_STAT n) 30 true
  else
    let code := fun c => sxInt 32 (s.num (A.SN_PRES c))
    let a := code (bitsOf w 28 22)
    let b := code (bitsOf w 21 15)
    let cc := code (bitsOf w 14 8)
    let k := f32XReal (s.rd (A.SN_PC_K n))
    let c0 := f32XReal (s.rd (A.SN_PC_C0 n))
    let d : XReal := match bitsOf w 30 29 with
      | 0 => ((XReal.fin (a * 2 ^ 149)).minus (k.times b)).minus c0
      | 1 => (XReal.fin ((a + b + cc) * 2 ^ 149)).minus c0
      | _ => ((XReal.fin (a * 2 ^ 149)).minus (k.times h)).minus c0
    let s0 := s.setFlag (A.SN_PC_STAT n) 30 false
    let verdict : Bool × State :=
      match d.absAbove (f32XReal (s.rd (A.SN_PC_TOL n))) with
      | some b => (b, s0)
      | none => ((s0.fresh).1.getLsbD 0, (s0.fresh).2)
    let s1 := verdict.2
    if verdict.1 then
      let old := s.fld (A.SN_PC_STAT n) 3 0
      let s2 := s1.setFld (A.SN_PC_STAT n) 3 0 (min (old + 1) 15)
      if bitsOf w 3 0 ≤ old + 1 ∧ (old < bitsOf w 3 0 ∨ ! s1.flag (A.SN_PC_STAT n) 31) then
        let s3 := (s2.setFlag (A.SN_PC_STAT n) 31 true).raiseF 0x64 n
        if s.flag A.SN_CTRL 31 then s3.raiseVec 179 else s3
      else s2
    else s1.setFld (A.SN_PC_STAT n) 3 0 0

/-- The first sample index of channel `c` after the last restart of its P decimator (R78): PSYNC or the field-die reset,
for an SX channel also its enable. -/
def pStart (s : State) (c : Nat) : Nat :=
  if c < 48 ∨ (s.getSn c).enAt < s.psyncAt then s.snIndex c (instant s.psyncAt 0) else 1

/-- The last bitstream sample of the newest P sample that channel `c` has now, when it is a new one: P samples end every
2 × PDEC samples after the restart (R78). -/
def pDue (s : State) (c : Nat) : Option Nat :=
  let d := s.fld (A.SN_PCFG c) 15 0
  let k := (s.snLast c (instant (s.dtF + 1) 0) + 1 - pStart s c) / (2 * d)
  let l := pStart s c + 2 * d * k - 1
  if k = 0 ∨ (s.getSn c).pLast.any (fun p => decide (l ≤ p)) then none else some l

/-- P_SAMPLE (R78): a sinc4 of ratio PDEC and the compensation filter over the bitstream `xs`, newest first, that ends with
the sample at which the channel's next P sample is due; no command of this row acts between those samples. -/
def execPSample (c : Fin 72) (xs : List Bool) (s : State) : Out :=
  if ! s.snEn c ∨ ! s.flag (A.SN_PCFG c) 31 ∨ s.snPdecBad c then .next s
  else match pDue s c with
  | none => .next s
  | some l =>
    let d := s.fld (A.SN_PCFG c) 15 0
    let r := s.snCode c (pSum d 0 xs) (pScale d)
    let ok := ! s.snSettling c
    let s1 := (s.wr (A.SN_PRES c) (wordOf r.1)).setSn c { s.getSn c with pValid := ok, pLast := some l }
    let s2 := s1.sendC (.psample c (wordOf r.1) ok s.dtF)
    .next (forUpTo 16 (fun n t =>
      let w := t.rd (A.SN_PC_CFG n)
      if bitsOf w 28 22 = c.val ∧ bitsOf w 30 29 ≠ 2 then pcEvaluate n 0 t else t) s2)

/-- Every P decimator restarts now; PSYNC reads 0 again (R78). -/
def psyncNow (s : State) : State :=
  (forUpTo 72 (fun c (t : State) => t.setSn c { t.getSn c with pValid := false, pLast := none }) { s with psyncAt := s.dtF }).setFlag
    A.SN_CTRL 0 false

/-- SN_PSYNC. -/
def execSnPsync (s : State) : Out := .next (psyncNow s)

/-- RANGE_CHECK (R81) of an F code.  DESIGN CHOICE (assumption 127): while the check is off (RNGEN = 0, or RNGN = 0) a valid
sample at either end ends the run of consecutive ones; one inside the range clears STAT.RNG as ever. -/
def rangeCheck (c : Nat) (code : Int) (valid : Bool) (s : State) : State :=
  let h := s.getSn c
  let need := s.fld (A.SN_DIAG c) 3 0
  if ! valid then s.setSn c { h with rngCnt := 0 }
  else if code = 511 ∨ code = -512 then
    if ! s.flag (A.SN_DIAG c) 30 ∨ need = 0 then s.setSn c { h with rngCnt := 0 }
    else
      let s1 := s.setSn c { h with rngCnt := min (h.rngCnt + 1) 15 }
      if need ≤ h.rngCnt + 1 ∧ ! s.flag (A.SN_STAT c) 28 then
        (((s1.setFlag (A.SN_STAT c) 28 true).snEvent c 21).raiseF 0x63 c).setActive 0x63 c true
      else s1
  else
    ((s.setSn c { h with rngCnt := 0 }).setFlag (A.SN_STAT c) 28 false).setActive 0x63 c false

/-- The F sample of 31 bitstream samples (R79): its code, its valid mark, and the state with FRES and the range check. -/
def fSample (c : Nat) (x : BitVec 31) (s : State) : Int × Bool × State :=
  let r := s.snCode c (fSum x) 256
  let code := clampI (-512) 511 (r.1 / 2 ^ 14)
  let ok := ! s.snSettling c
  let s1 := s.wr (A.SN_FRES c) (BitVec.ofNat 32 (ok.toNat * 2 ^ 31 + toBits 16 code))
  (code, ok, rangeCheck c code ok s1)

/-- A stall condition begins (R80, R75). -/
def stallBegin (c : Nat) (s : State) : State :=
  if ! s.snEn c then s
  else
    let h := s.getSn c
    let s1 := s.setSn c { h with
      stallNow := true
      win := h.win.map (fun w => { w with stall := true })
      done := h.done.map (fun d => { d with w := { d.w with stall := true } }) }
    if s.flag (A.SN_DIAG c) 31 ∧ ! s.flag (A.SN_STAT c) 29 then
      (((s1.setFlag (A.SN_STAT c) 29 true).snEvent c 22).raiseF 0x65 c).setActive 0x65 c true
    else s1

/-- MOD_STALL: 20 equal consecutive samples. -/
def execModStall (c : Fin 72) (s : State) : Out := .next (stallBegin c s)

/-- SX_CLOCK_MISSING: no SXnn_C edge for 1 µs. -/
def execSxClockMissing (n : Fin 24) (s : State) : Out := .next (stallBegin (48 + n) s)

/-- STALL_CLEAR: 64 samples with transitions. -/
def execStallClear (c : Fin 72) (s : State) : Out :=
  let h := s.getSn c
  .next (((s.setSn c { h with stallNow := false }).setFlag (A.SN_STAT c) 29 false).setActive 0x65 c false)

/-! ### Housekeeping converter (R83–R88) -/

/-- A slot that the scan skips (R85).  DESIGN CHOICE (assumption 127): besides one with an input above 39, one with K = 7,
of which the manual says only that it sets CFGERR. -/
def hkSlotBad (w : Word) : Bool := decide (39 < bitsOf w 5 0) || bitsOf w 8 6 == 7

/-- SLOTS outside 1–16 (R88). -/
def hkSlotsBad (s : State) : Bool := let n := s.fld A.HK_CTRL 4 0; decide (n = 0 ∨ 16 < n)

/-- HK_STAT.CFGERR: invalid SLOTS, or an invalid slot among those that the scan runs. -/
def hkSetCfgErr (s : State) : State :=
  let n := s.fld A.HK_CTRL 4 0
  s.setFlag A.HK_STAT 28 (hkSlotsBad s || (List.range (min n 16)).any (fun i => hkSlotBad (s.rd (A.HK_SLOT i))))

/-- A write of HK_CTRL (R85). -/
def writeHkCtrl (v : Word) (s : State) : State :=
  let scanWas := s.flag A.HK_CTRL 30
  let s1 := hkSetCfgErr (s.plainWrite A.HK_CTRL v)
  let s2 := if ! scanWas ∧ bitOf v 30 ∧ s.hk.run.isNone then { s1 with hk := { s1.hk with slot := 0 } } else s1
  if ! bitOf v 31 ∧ s.hk.urg.isSome then
    (({ s2 with hk := { s2.hk with urg := none } }).setFlag A.HK_STAT 30 false).setFlag A.HK_STAT 29 true
  else s2

/-- HK_CTRL_WRITE. -/
def execHkCtrlWrite (v : Word) (s : State) : Out := .next (writeHkCtrl v s)

/-- A write of HK_URG (R85). -/
def writeHkUrg (v : Word) (s : State) : State :=
  if ! bitOf v 31 then s
  else if 39 < bitsOf v 5 0 ∨ bitsOf v 8 6 = 7 ∨ s.hk.urg.isSome ∨ ! s.flag A.HK_CTRL 31 then s.setFlag A.HK_STAT 29 true
  else ({ s with hk := { s.hk with urg := some (bitsOf v 5 0, bitsOf v 8 6) } }).setFlag A.HK_STAT 30 true

/-- HK_URG. -/
def execHkUrg (v : Word) (s : State) : Out := .next (writeHkUrg v s)

/-- The first usable slot from `i` on, trying `fuel` slots of `n` (R85), and the slot after it. -/
def hkNextSlot (s : State) (n : Nat) : Nat → Nat → Option (Nat × Nat)
  | 0, _ => none
  | f + 1, i =>
    let j := if i < n then i else 0
    if hkSlotBad (s.rd (A.HK_SLOT j)) then hkNextSlot s n f (j + 1) else some (j, j + 1)

/-- A conversion of `input` with setting `k` starts now. -/
def hkBegin (s : State) (input k : Nat) (urg : Bool) : State :=
  let s1 := { s with hk := { s.hk with run := some ⟨input, k, urg, s.dtF⟩ } }
  ((s1.setFlag A.HK_STAT 31 true).setFld A.HK_STAT 11 6 input).setFld A.HK_STAT 5 3 k

/-- HK_CONVERSION_START (R85): a pending urgent conversion first, else the next slot of the scan.  DESIGN CHOICE
(assumption 127): while SLOTS lies outside 1–16 no slot runs (R88 says only that it sets CFGERR). -/
def execHkConversionStart (s : State) : Out :=
  if ! s.flag A.HK_CTRL 31 ∨ s.hk.run.isSome then .next s
  else
    match s.hk.urg with
    | some (i, k) =>
      let s1 := ({ s with hk := { s.hk with urg := none } }).setFlag A.HK_STAT 30 false
      .next (hkBegin s1 i k true)
    | none =>
      if ! s.flag A.HK_CTRL 30 ∨ hkSlotsBad s then .next (hkSetCfgErr s)
      else
        let n := s.fld A.HK_CTRL 4 0
        match hkNextSlot s n n s.hk.slot with
        | none => .next (hkSetCfgErr s)
        | some (j, nxt) =>
          let w := s.rd (A.HK_SLOT j)
          .next (hkBegin (hkSetCfgErr { s with hk := { s.hk with slot := nxt } }) (bitsOf w 5 0) (bitsOf w 8 6) false)

/-- The running conversion ends with `code` (R84): result, time stamp, details, interrupts, HK-mode checkers. -/
def hkEnd (code : BitVec 24) (r : HkRun) (s : State) : State :=
  let i := r.input
  let endDt := r.start + 62500 * 2 ^ r.k
  let seq := (s.fld (A.HK_INF i) 15 0 + 1) % 65536
  let s1 := (({ s with hk := { s.hk with run := none } }).setFlag A.HK_STAT 31 false).setFlag A.HK_STAT 27 true
  let s2 := s1.wr (A.HK_RES i) (BitVec.ofNat 32 (2 ^ 31 + code.toNat))
  let s3 := (s2.wr64 (A.HK_TS_L i) (A.HK_TS_H i) endDt).wr (A.HK_INF i)
    (BitVec.ofNat 32 (r.urg.toNat * 2 ^ 31 + r.k * 2 ^ 16 + seq))
  let s4 := if r.urg then s3.setFlag A.HK_STAT 26 true else s3
  let s5 := if s.flag A.HK_CTRL 29 then (if r.urg then (s4.raiseVec 176).raiseVec 177 else s4.raiseVec 176) else s4
  let h : Int := if 32 ≤ i ∧ i ≤ 35 then sxInt 24 code.toNat else code.toNat
  forUpTo 16 (fun n t =>
    let w := t.rd (A.SN_PC_CFG n)
    if bitsOf w 14 8 = i ∧ bitsOf w 30 29 = 2 then pcEvaluate n h t else t) s5

/-- A read of HK_RESi (R87): latches its time stamp and details. -/
def readHkRes (m : Master) (i : Nat) (s : State) : Word × State :=
  (s.rd (A.HK_RES i), [A.HK_TS_L i, A.HK_TS_H i, A.HK_INF i].foldl (fun t a => t.setLatch m a (s.rd a)) s)

/-- HK_RES_READ. -/
def execHkResRead (m : Master) (i : Fin 40) (s : State) : Out :=
  let r := readHkRes m i s
  .next (r.2.setData m r.1)

end Sys2Proof.Machine
end

