-- ==== Sys2Proof/Machine/BogieQ.lean ====
section
/-!
DEFINITION. Loop channels: contexts, sense slots, releases, deadlines and queues of the bogies (R143–R146, R152–R154,
R163–R165).
-/
namespace Sys2Proof.Machine

/-- Address of context word `w` of channel `ch` (R143). -/
def ctxA (ch w : Nat) : Nat := 0x02000000 + ch * 0x400 + 4 * w

namespace State

/-- CSTAT.MODE of a channel: 0 OFF, 1 STANDBY, 2 RUN, 3 HOLD, 4 RAMPDOWN, 5 SAFE. -/
def chMode (s : State) (ch : Nat) : Nat := s.fld (ctxA ch 0) 31 29

/-- Context word `w` of channel `ch`. -/
def ctx (s : State) (ch w : Nat) : Word := s.rd (ctxA ch w)

/-- The bogie that serves a channel: BG(ch/16), or BG4 once it has adopted that bogie's channels (R143, R160). -/
def bogieOf (s : State) (ch : Nat) : Nat :=
  let st := s.fld A.BG_RELIEF 31 29
  if 1 ≤ st ∧ st ≤ 3 ∧ s.fld A.BG_RELIEF 28 27 = ch / 16 then 4 else ch / 16

/-- The safe-state unit that a channel binds: 0–15 PU, 16–23 GP groups (R128, R143). -/
def chUnit (s : State) (ch : Nat) : Option Nat :=
  let w := s.ctx ch 2
  match bitsOf w 31 30 with
  | 1 => some (bitsOf w 29 26)
  | 2 => if bitsOf w 29 26 < 8 then some (16 + bitsOf w 29 26) else none
  | _ => none

/-- Sense slot byte `j` of a channel: bit 7 valid, 6:0 the sense channel (R143). -/
def slotByte (s : State) (ch j : Nat) : Nat :=
  if j < 4 then bitsOf (s.ctx ch 3) (8 * j + 7) (8 * j) else bitsOf (s.ctx ch 4) (8 * (j - 4) + 7) (8 * (j - 4))

/-- Sense slot `j` of a channel (R144): the newest result delivered from the sense channel that it names. -/
def getSlot (s : State) (ch j : Nat) : Slot := if 128 ≤ s.slotByte ch j then s.getRes ch (s.slotByte ch j - 128) else {}

def getBog (s : State) (b : Nat) : BogHid := Sparse.get (fun _ => {}) s.bog b
def setBog (s : State) (b : Nat) (h : BogHid) : State := { s with bog := Sparse.set (fun _ => {}) s.bog b h }
def getCh (s : State) (ch : Nat) : ChHid := Sparse.get (fun _ => {}) s.chs ch
def setCh (s : State) (ch : Nat) (h : ChHid) : State := { s with chs := Sparse.set (fun _ => {}) s.chs ch h }

/-- What the running or preempted task of a channel sees happen (R172, R186). -/
def noteTask (s : State) (ch : Nat) (f : TaskHid → TaskHid) : State :=
  let s1 := forUpTo 5 (fun b t =>
    let g := t.getBog b
    if g.run = some ch then t.setBog b { g with task := f g.task } else t) s
  match (s1.getCh ch).save with
  | some (h, ws) => s1.setCh ch { s1.getCh ch with save := some (f h, ws) }
  | none => s1

/-- One of the saturating counters of a bogie counts (R164). -/
def bgCount (s : State) (a : Nat) : State := s.satAdd a 31 0 1

/-- Cause `bit` of bogie `b` (R164, R165): IRQST sets, and the enabled lines raise their vectors. -/
def bgCause (s : State) (b bit : Nat) : State :=
  let s1 := s.setFlag (A.BGn_IRQST b) bit true
  let s2 := if s.flag (A.BGn_IRQEN b) bit then s1.raiseVec (96 + 2 * b) else s1
  if s.flag (A.BGn_IRQEN b) (16 + bit) then s2.raiseVec (97 + 2 * b) else s2

/-- BGn_STAT.QDEPTH: tasks queued or preempted (R164). -/
def bgDepth (s : State) (b : Nat) : State :=
  s.setFld (A.BGn_STAT b) 4 0
    (min 16 (s.tasks.filter (fun t => s.bogieOf t.ch == b && t.st != .running)).length)

/-- The first update point at or after instant `t` (EU) that a notice predicts (R152, R153). -/
def predictUpdate (n : Notice) (t : Nat) : Option Nat :=
  if n.per = 0 then none
  else
    let next := fun (b p : Nat) => if t ≤ b then b - (b - t) / p * p else b + ceilDiv (t - b) p * p
    match n.upd with
    | 0 => some (next n.b n.per)
    | 1 => some (next (n.b + n.per / 2) n.per)
    | 2 => some (min (next n.b n.per) (next (n.b + n.per / 2) n.per))
    | _ => none

/-- The deadline of a task of `ch` released at `t` (R153); before the first notice of the unit, t + DLREL (DEDUCED,
assumption 10). -/
def deadline (s : State) (ch t : Nat) : Nat :=
  let marg := max (bitsOf (s.ctx ch 6) 15 0) 37
  let rel := t + (s.ctx ch 7).toNat
  match s.chUnit ch with
  | none => rel
  | some u =>
    if s.chMode ch = 2 ∨ s.chMode ch = 4 then
      match predictUpdate (s.getNotice u) ((t + marg) * euPerNs) with
      | some p => p / euPerNs - marg
      | none => rel
    else rel

end State

end Sys2Proof.Machine
end

