-- ==== Sys2Proof/Machine/HostOut.lean ====
section
/-!
DEFINITION. What the host-side engines write: host memory, MSI-X messages, ring entries, captures (R366, R367, R377,
R397, R398), and the causes of HQ (R401).
-/
namespace Sys2Proof.Machine

/-- The bytes of a word, least significant first (R4). -/
def wordBytes (w : Word) : List Byte := (List.range 4).map (fun i => BitVec.ofNat 8 (w.toNat / 256 ^ i))

/-- The low `n` bytes of a number, least significant first. -/
def numBytes (n v : Nat) : List Byte := (List.range n).map (fun i => BitVec.ofNat 8 (v / 256 ^ i))

/-- The number that bytes spell, least significant first. -/
def bytesNum (bs : List Byte) : Nat := bs.foldr (fun b acc => b.toNat + 256 * acc) 0

/-- Bytes stored at `a` and up. -/
def storeBytes (m : Sparse Byte) (a : Nat) : List Byte → Sparse Byte
  | [] => m
  | b :: bs => storeBytes (Sparse.set (fun _ => 0) m a b) (a + 1) bs

namespace State

/-- The upstream link carries traffic (R368). -/
def hostUp (s : State) : Bool := s.flag A.LK_UPSTAT 31

/-- A posted write to host memory: it waits while the link is not up (R368). -/
def hostWr (s : State) (a : Nat) (bs : List Byte) : State :=
  if s.hostUp then { s with hostMem := storeBytes s.hostMem (a % 2 ^ 64) bs }
  else { s with host := { s.host with postQ := s.host.postQ ++ [(a % 2 ^ 64, bs)] } }

/-- Something leaves the device. -/
def emit (s : State) (e : OutEv) : State := { s with host := { s.host with out := s.host.out ++ [e] } }

/-- MSI-X message of vector `v` (R367): sent, or pending while the vector is masked. -/
def msiSend (s : State) (v : Nat) : State :=
  s.emit (.msi v (s.num64 (A.MSIX_ADDR_L v) (A.MSIX_ADDR_H v)) (s.rd (A.MSIX_DATA v)))

/-- A cause mapped to MSI-X vector `v` occurs (R367): its message waits, pending, while the link is down (assumption 148). -/
def msix (s : State) (v : Nat) : State :=
  if ! s.host.msixEn then s
  else if s.flag (A.MSIX_CTRL v) 0 ∨ ! s.hostUp then s.setFlag (A.MSIX_PBA (v / 32)) (v % 32) true
  else s.msiSend v

/-- Cause `b` of the HQ block (R401). -/
def hqCause (s : State) (b : Nat) : State :=
  let s1 := s.setFlag A.HQ_IRQST b true
  if s.flag A.HQ_IRQEN b then s1.raiseVec (216 + b) else s1

/-- A ring's CFG enables it: SIZE outside 4–12 leaves it disabled (R401). -/
def ringOn (s : State) (cfg : Nat) : Bool :=
  let z := s.fld cfg 11 8
  s.flag cfg 31 && decide (4 ≤ z ∧ z ≤ 12)

/-- Entries of a ring (R376). -/
def ringLen (s : State) (cfg : Nat) : Nat := 2 ^ s.fld cfg 11 8

/-- A ring is full (R377). -/
def ringFull (s : State) (cfg head tail : Nat) : Bool :=
  (s.fld tail 11 0 + 1) % s.ringLen cfg == s.fld head 11 0 % s.ringLen cfg

/-! ### Captures (R397, R398) -/

/-- Capture of KQ `k`. -/
def getCap (s : State) (k : Nat) : Option Cap := Sparse.get (fun _ => none) s.host.caps k
def setCap (s : State) (k : Nat) (c : Option Cap) : State :=
  { s with host := { s.host with caps := Sparse.set (fun _ => none) s.host.caps k c } }

/-- CAPTURE_ITEM (R398): an entry written to KQ `k`, or dropped. `fl`: bit 1 INVALID, bit 2 LOST. -/
def capEntry (s : State) (k : Nat) (c : Cap) (dt src fl : Nat) (vals : List Word) : State :=
  let c1 := { c with total := c.total + 1 }
  if ! s.ringOn (A.KQ_CFG k) ∨ s.ringFull (A.KQ_CFG k) (A.KQ_HEAD k) (A.KQ_TAIL k) then
    ((s.setCap k (some { c1 with ovr := true })).satAdd (A.KQ_DROP k) 31 0 1).hqCause 4
  else
    let idx := s.fld (A.KQ_TAIL k) 11 0
    let e := numBytes 8 dt ++ wordBytes c1.total ++ numBytes 1 c.kind ++ numBytes 1 src
      ++ numBytes 1 (c.ovr.toNat + fl) ++ [0] ++ (vals.map wordBytes).flatten
    let s1 := (s.setCap k (some { c1 with ovr := false })).hostWr
      (s.num64 (A.KQ_BASE_L k) (A.KQ_BASE_H k) + idx * 32) e
    let s2 := s1.setFld (A.KQ_TAIL k) 11 0 ((idx + 1) % s.ringLen (A.KQ_CFG k))
    if s.flag (A.KQ_CFG k) 30 then s2.msix (s.fld (A.KQ_CFG k) 5 0) else s2

/-- An item of source `src` of capture kind `kind` at DT `dt` (R397): every capture that names it takes every Nth. -/
def capture (s : State) (kind src dt fl : Nat) (vals : List Word) : State :=
  forUpTo 4 (fun k s =>
    match s.getCap k with
    | none => s
    | some c =>
      if c.kind ≠ kind then s
      else (c.srcs.zip (List.range c.srcs.length)).foldl (fun s (p : Nat × Nat) =>
        if p.1 ≠ src then s
        else match s.getCap k with
          | none => s
          | some c =>
            let n := c.cnt.getD p.2 0 + 1
            if n < max 1 c.n then s.setCap k (some { c with cnt := c.cnt.set p.2 n })
            else s.capEntry k { c with cnt := c.cnt.set p.2 0 } dt src fl vals) s) s

/-! ### Completions (R386–R388) -/

/-- The last generation that a stream has used: published, or on its way. -/
def csUsed (s : State) (c : Nat) : Nat :=
  (s.host.csPub.filter (fun p => p.1 == c)).foldl (fun _ p => p.2.1) (s.num (A.CS_GEN c))

/-- The generation after `g` (R394): 0 is never used. -/
def csAfter (g : Nat) : Nat := if g = 0xFFFFFFFF then 1 else g + 1

/-- The generation that a completion names (R386): that of the first consist of stream `c` after `t`, taken or still to come. -/
def consistGen (s : State) (c t : Nat) : Nat :=
  if ! s.flag (A.CS_CFG c) 31 then 0
  else match s.host.csHist.find? (fun p => p.1 == c && decide (t < p.2.2)) with
    | some p => p.2.1
    | none => csAfter (s.csUsed c)

/-- A completion is written into the ring of its submission ring (R377, R386). -/
def writeCmpl (s : State) (c : Cmpl) : State :=
  let q := s.fld (A.SQ_CFG c.sq) 6 4
  if ! s.ringOn (A.CQ_CFG q) then s
  else
    let idx := s.fld (A.CQ_TAIL q) 11 0
    let ph := s.flag (A.CQ_TAIL q) 31
    let gen := s.consistGen (s.fld (A.SQ_CFG c.sq) 0 0) c.t
    let e := wordBytes c.seq ++ numBytes 2 gen ++ numBytes 1 c.status
      ++ numBytes 1 (ph.toNat + 2 * c.sq + 16 * c.reason) ++ numBytes 8 c.t
    let s1 := s.hostWr (s.num64 (A.CQ_BASE_L q) (A.CQ_BASE_H q) + idx * 16) e
    let nxt := (idx + 1) % s.ringLen (A.CQ_CFG q)
    let s2 := (s1.setFld (A.CQ_TAIL q) 11 0 nxt).setFlag (A.CQ_TAIL q) 31 (if nxt = 0 then ! ph else ph)
    if s.flag (A.CQ_CFG q) 30 then s2.msix (s.fld (A.CQ_CFG q) 5 0) else s2

/-- A completion may be written: its ring has room and no waybill of its submission ring with an earlier instant is
incomplete (R388). -/
def cmplReady (s : State) (c : Cmpl) : Bool :=
  let q := s.fld (A.SQ_CFG c.sq) 6 4
  let earlier := fun (t o : Nat) => decide (t < c.t) || (t == c.t && decide (o < c.ord))
  ! (s.ringOn (A.CQ_CFG q) && s.ringFull (A.CQ_CFG q) (A.CQ_HEAD q) (A.CQ_TAIL q))
    && ! s.host.wbs.any (fun w => w.sq == c.sq && (match w.t with | some t => earlier t w.ord | none => false))
    && ! s.host.cmpls.any (fun d => d.sq == c.sq && earlier d.t d.ord)

/-- Completions that may be written are written. -/
def flushCmpl (s : State) : State :=
  (List.range s.host.cmpls.length).foldl (fun (s : State) _ =>
    match s.host.cmpls.find? (fun c => s.cmplReady c) with
    | none => s
    | some c =>
      let s1 := { s with host := { s.host with cmpls := s.host.cmpls.erase c } }
      if c.nocmpl ∧ c.status = 0 then s1 else s1.writeCmpl c) s

/-- COMPLETION (R386–R388): waybill `w` completes with `status` and `reason` at `t`; a coupled commit that waited for it
counts it. -/
def complete (s : State) (w : WbPend) (status reason t : Nat) : State :=
  let s1 := s.satAdd A.HQ_CNT_WB 31 0 1
  let s2 := if status = 1 then s1.satAdd A.HQ_CNT_REF 31 0 1 else s1
  let s3 := if status = 2 then s2.satAdd A.HQ_CNT_FMT 31 0 1 else s2
  let rest := (s3.host.wbs.filter (fun x => x.ord != w.ord)).map (fun x =>
    if w.commit = some x.ord then { x with left := x.left - 1 } else x)
  let h := { s3.host with
    wbs := rest, inbox := s3.host.inbox.filter (fun x => x.ord != w.ord),
    cmpls := s3.host.cmpls ++ [⟨w.ord, w.sq, w.ws.getD 1 0, status, reason, t, (w.ws.getD 0 0).getLsbD 13⟩] }
  -- HQ_STAT.PEND: timed waybills that wait
  let pend := (rest.filter (fun x => let e := bitsOf (x.ws.getD 0 0) 10 8; (e == 2 || e == 3) && ! x.acted)).length
  ({ s3 with host := h }.setFld A.HQ_STAT 6 0 (min pend 64)).flushCmpl

/-- Waybills whose effect has begun and that wait for nothing any more complete: DONE, or REFUSED for the reason found. -/
def finishWbs (s : State) : State :=
  (List.range s.host.wbs.length).foldl (fun (s : State) _ =>
    match s.host.wbs.find? (fun w => w.acted && w.left == 0) with
    | none => s
    | some w =>
      match w.fail with
      | some r => s.complete w 1 r (w.t.getD s.dtC)
      | none => s.complete w 0 0 (w.t.getD s.dtC)) s

/-- One of the things that waybill `ord` waits for has happened; `fail` is a reason that refuses it. -/
def wbNote (s : State) (ord : Nat) (fail : Option Nat) : State :=
  { s with host := { s.host with wbs := s.host.wbs.map (fun (w : WbPend) =>
      if w.ord = ord then { w with left := w.left - 1, fail := if w.fail.isSome then w.fail else fail } else w) } }.finishWbs

end State

/-- P_SAMPLE_TRANSFER (R78, R398): the oldest P sample on the link arrives at the control die. -/
def execPSampleTransfer (s : State) : Out :=
  match takeHead (fun m => match m with | .psample c code v ts => some (c, code, v, ts) | _ => none) s.toControl with
  | some ((c, code, v, ts), rest) =>
    let s1 := { s with toControl := rest,
                       pcd := Sparse.set (fun _ => {}) s.pcd c ⟨true, code, if v then 2 ^ 31 else 0, 0, 0, ts⟩ }
    .next (s1.capture 0 c ts (if v then 0 else 2) [code, 0, 0, 0])
  | none => .next s

/-- HK_CONVERSION_END (R84, R398): 62.5 µs × 2^K after its start, the running conversion ends with `code`. -/
def execHkConversionEnd (code : BitVec 24) (s : State) : Out :=
  match s.hk.run with
  | none => .next s
  | some r =>
    if s.dtF < r.start + 62500 * 2 ^ r.k then .next s
    else
      .next ((hkEnd code r s).capture 2 r.input (r.start + 62500 * 2 ^ r.k) 0
        [BitVec.ofNat 32 code.toNat, BitVec.ofNat 32 r.input, 0, 0])

end Sys2Proof.Machine
end

