-- ==== Sys2Proof/Machine/Yards.lean ====
section
/-!
DEFINITION. Yards, the NV yard and program MRAM (R324–R345): owner groups, handovers, ECC, transparent test, line writes
and wear.
-/
namespace Sys2Proof.Machine

namespace State

/-- The cores run unhitched (R317). -/
def unhitched (s : State) : Bool := s.flag A.TD_STAT 31

/-- A processor's state. In tandem `coreA` is the state of both cores, which are the same (R309); `coreB` is core B's
unhitched. -/
def getCore (s : State) : Who → CoreSt
  | .a => s.coreA
  | .b => if s.unhitched then s.coreB else s.coreA
  | .lamp => s.lamp

def setCore (s : State) (c : Who) (k : CoreSt) : State :=
  match c with
  | .a => { s with coreA := k }
  | .b => if s.unhitched then { s with coreB := k } else { s with coreA := k }
  | .lamp => { s with lamp := k }

/-- The owner group in which a yard master acts (R324, R325). -/
def groupOf (s : State) (m : Nat) : Nat :=
  match m with
  | 0 => if s.unhitched then 1 else 0
  | 1 => 2
  | 7 | 8 => 8
  | 9 => 9
  | 10 | 11 | 12 => 10
  | _ => m + 1

/-- An owner ID is valid in the present mode (R325). -/
def ownerValid (s : State) (id : Nat) : Bool :=
  if id = 0 then ! s.unhitched else if id ≤ 2 then s.unhitched else id ≤ 10

def ydOwner (s : State) (n : Nat) : Nat := s.fld (A.YD_OWN n) 3 0

/-- Cause `b` of the YD block (R343). -/
def ydCause (s : State) (b : Nat) : State :=
  let s1 := s.setFlag A.YD_IRQST b true
  if s.flag A.YD_IRQEN b then s1.raiseVec (if b ≤ 2 then 246 else 247) else s1

/-- NON_OWNER_ACCESS (R326): counted, recorded and reported. -/
def nonOwner (s : State) (m n : Nat) (wr : Bool) (a : Nat) : State :=
  let s1 := (s.raiseC 0x42 n).satAdd A.YD_ACCCNT 31 0 1
  let s2 :=
    if s.flag A.YD_ACCERR 31 then s1
    else (s1.wr A.YD_ACCERR (BitVec.ofNat 32 (2 ^ 31 + wr.toNat * 2 ^ 30 + m * 16 + n))).wr A.YD_ACCADDR (BitVec.ofNat 32 a)
  s2.ydCause 0

/-- Reservations on granules that `p` names are cleared (R277). -/
def clearResv (s : State) (p : Nat → Bool) : State :=
  let f := fun (k : CoreSt) => match k.resv with
    | some g => if p g then { k with resv := none } else k
    | none => k
  { s with coreA := f s.coreA, coreB := f s.coreB }

/-- A write to bytes `a … a+n-1` clears the reservations on their granules (R277). -/
def touch (s : State) (a n : Nat) : State := s.clearResv (fun g => decide (a / 64 ≤ g ∧ g ≤ (a + n - 1) / 64))

/-- The shadow region is not wholly inside one yard owned by GUARD, or K is outside 6–10 (R302). -/
def ssBadCfg (s : State) : Bool :=
  let k := s.fld A.TD_SSCFG 3 0
  let a := s.fld A.TD_SSCFG 21 10 * 1024
  let e := a + 160 * 2 ^ k - 1
  decide (k < 6 ∨ 10 < k) || a / 0x40000 != e / 0x40000 || s.ydOwner (a / 0x40000) != 10

/-- TD_SSCFG.CFGERR, while shadow checking is on or was refused: the owner of the region may have changed. -/
def ssShow (s : State) : State :=
  if s.flag A.TD_SSCFG 31 then s.setFlag A.TD_SSCFG 30 s.ssBadCfg else s

/-- HANDOVER_DONE (R329): the handover of yard `n` ends. -/
def endHandover (s : State) (n : Nat) (h : Handover) : State :=
  let inYard := fun (a : Nat) => decide (n * 0x40000 ≤ a ∧ a < (n + 1) * 0x40000)
  let s1 := s.clearResv (fun g => inYard (g * 64))
  let s2 := if h.zero then
      { s1 with ram := Sparse.drop inYard s1.ram, poison := Sparse.drop (fun k => inYard (4 * k)) s1.poison }
    else s1
  let s3 := { s2 with mem := { s2.mem with hand := Sparse.set (fun _ => none) s2.mem.hand n none } }
  (s3.wr (A.YD_OWN n) (BitVec.ofNat 32 (h.forced.toNat * 2 ^ 30 + (s.flag (A.YD_OWN n) 29).toNat * 2 ^ 29 + h.new))).ssShow.ydCause 5

/-- The pending handover of yard `n`. -/
def handOf (s : State) (n : Nat) : Option Handover := Sparse.get (fun _ => none) s.mem.hand n

/-- An access at `a` meets the save cycle or the write-back cycle of the window under test (R334). -/
def ydMeets (s : State) (a : Nat) : Bool :=
  match s.mem.ydWin with
  | some t0 =>
    a / 64 == s.fld A.YD_TESTSTAT 19 16 * 4096 + s.fld A.YD_TESTSTAT 11 0 && (s.dtC == t0 || s.dtC == t0 + 399)
  | none => false

/-- An access of master `m` at `a` that meets the window under test waits one cycle, which is counted (R334). -/
def ydMeet (s : State) (m a : Nat) : State := if s.ydMeets a then s.satAdd (A.YD_CONF m) 31 0 1 else s

/-- Master `m` comes to address `a`, in yard `n` (R326, R329): whether its access is an owner access. An access of the new group during a
handover waits until it completes, and each cycle of the wait is counted: how many the manual bounds, and leaves open
(assumption 51). -/
def ydEnter (s : State) (m a : Nat) : State × Bool :=
  let n := a / 0x40000
  match s.handOf n with
  | some h =>
    if s.groupOf m = h.new then
      let left := h.at_ + (if h.zero then 5000 else 100) - s.dtC
      let r := s.fresh
      (((r.2.endHandover n h).satAdd (A.YD_CONF m) 31 0 (1 + r.1.toNat % max left 1)).ydMeet m a, true)
    else (s, false)
  | none => if s.ydOwner n == s.groupOf m then (s.ydMeet m a, true) else (s, false)

/-! ### Bytes and ECC (R332, R338) -/

/-- The byte at `a`: the newest data, queued line writes included (R338). -/
def byteAt (s : State) (a : Nat) : Byte :=
  let q := (match s.mem.nvRun with | some r => [r.1] | none => []) ++ s.mem.nvQ
  match (q.flatMap (fun e => e.bytes.filter (fun b => b.1 == a))).getLast? with
  | some b => b.2
  | none => Sparse.get (fun _ => 0) s.ram a

/-- `n` bytes at `a`, least significant first. -/
def bytesAt (s : State) (a n : Nat) : Nat := bytesNum ((List.range n).map (fun i => s.byteAt (a + i)))

/-- A 32-bit half is marked poisoned. -/
def isPoison (s : State) (half : Nat) : Bool := Sparse.get (fun _ => false) s.poison half

/-- The ECC register of a yard, or of the NV yard (instance 16). -/
def eccReg (n : Nat) : Nat := if n < 16 then A.YD_ECC n else A.YD_NVECC

/-- A read of `n` bytes at `a`, in yard `y` (16: the NV yard), meets `up` upsets in its word: 0 none, 1 one bit, 2 more
(R332). Answers whether the data can be used. -/
def eccRead (s : State) (y a n up : Nat) : State × Bool :=
  let halves := (List.range ((a + n - 1) / 4 + 1 - a / 4)).map (fun i => a / 4 + i)
  if up ≥ 2 ∨ halves.any (fun h => s.isPoison h) then
    let mark := fun (p : Sparse Bool) (h : Nat) =>
      Sparse.set (fun _ => false) (Sparse.set (fun _ => false) p (h / 2 * 2) true) (h / 2 * 2 + 1) true
    let s1 := { s with poison := (halves.filter (fun h => up ≥ 2 || s.isPoison h)).foldl mark s.poison }
    (((s1.satAdd (eccReg y) 31 16 1).raiseC 0x40 y).ydCause 2, false)
  else if up = 1 then ((s.satAdd (eccReg y) 15 0 1).ydCause 1, true)
  else (s, true)

/-- Bytes stored to a yard at `a`: a store that covers a whole aligned half clears its mark (R332); reservations on the
granule are cleared (R277). -/
def storeYard (s : State) (a : Nat) (bs : List Byte) : State :=
  let n := bs.length
  let covered := fun (h : Nat) => decide (a ≤ 4 * h ∧ 4 * h + 4 ≤ a + n)
  { s with ram := storeBytes s.ram a bs, poison := Sparse.drop covered s.poison }.touch a n

/-- The byte that a master other than a core, a bogie or an engine reads at `a`: 0 of an uncorrectable word (R332). -/
def safeByte (s : State) (a : Nat) : Byte :=
  if s.isPoison (a / 8 * 2) || s.isPoison (a / 8 * 2 + 1) then 0 else s.byteAt a

/-- `n` such bytes as a number. -/
def safeNum (s : State) (a n : Nat) : Nat := bytesNum ((List.range n).map (fun i => s.safeByte (a + i)))

/-- Such a read of `n` bytes at `a` in yard `y` finds the uncorrectable words there (R332). -/
def eccSweep (s : State) (y a n : Nat) : State :=
  let bad := (s.poison.filterMap (fun e => if e.2 ∧ a < 4 * e.1 + 4 ∧ 4 * e.1 < a + n then some (e.1 / 2) else none)).eraseDups
  forEach bad (fun w (t : State) => (t.eccRead y (8 * w) 8 0).1) s

/-! ### Bogie and engine accesses (R177, R326) -/

/-- A word read of yard master `m` that is not a core: 0 and no data where it may not, or cannot, read. -/
def ydReadWord (s : State) (m a up : Nat) : State × Option Word :=
  let n := a / 0x40000
  let r := s.ydEnter m a
  if ! r.2 then (r.1.nonOwner m n false a, none)
  else
    let e := r.1.eccRead n a 4 up
    (e.1, if e.2 then some (BitVec.ofNat 32 (e.1.bytesAt a 4)) else none)

/-- A word write of yard master `m` that is not a core. -/
def ydWriteWord (s : State) (m a : Nat) (v : Word) : State × Bool :=
  let n := a / 0x40000
  let r := s.ydEnter m a
  if ! r.2 then (r.1.nonOwner m n true a, false) else (r.1.storeYard a (wordBytes v), true)

/-- An access of engine `m`, 7 the host queues' or 8 the consists', to the staging yard that HQ_CTRL.YARD names, which meets `up`
upsets (R326, R332): dropped where HOSTQ does not own it, and in error where the yard holds an uncorrectable word. Where in
the yard the engines stage is assumption 137. -/
def stageAccess (s : State) (m : Nat) (wr : Bool) (up : Nat) : State × Bool :=
  let y := s.fld A.HQ_CTRL 3 0
  let r := s.ydEnter m (y * 0x40000)
  if ! r.2 then (r.1.nonOwner m y wr (y * 0x40000), false)
  else
    let bad := r.1.poison.find? (fun e => e.2 && decide (y * 0x40000 ≤ 4 * e.1 ∧ 4 * e.1 < (y + 1) * 0x40000))
    r.1.eccRead y (match bad with | some e => 4 * e.1 | none => y * 0x40000) 4 up

end State

/-! ### Handover (R327–R329) -/

/-- The owner group of a core; none for another requester. -/
def coreGroup (m : Master) (s : State) : Option Nat :=
  match m with
  | .coreA => some (s.groupOf 0)
  | .coreB => if s.unhitched then some 2 else some 0
  | _ => none

/-- A handover begins: accesses of the old group are non-owner accesses from now on. -/
def beginHandover (n : Nat) (h : Handover) (s : State) : State :=
  { s with mem := { s.mem with hand := Sparse.set (fun _ => none) s.mem.hand n (some h) } }.setFlag (A.YD_OWN n) 31 true

/-- A write of YDnn_HAND (R327). -/
def writeHand (m : Master) (n : Nat) (v : Word) (s : State) : State :=
  let new := bitsOf v 3 0
  if coreGroup m s ≠ some (s.ydOwner n) ∨ ! s.ownerValid new ∨ s.flag (A.YD_OWN n) 31 then s.setFlag (A.YD_OWN n) 29 true
  else beginHandover n ⟨new, bitOf v 4, false, s.dtC⟩ s

/-- A write of YDnn_FORCE (R328); it takes the place of a HAND of the same cycle, which is refused (R329). -/
def writeForce (n : Nat) (v : Word) (s : State) : State :=
  let new := bitsOf v 3 0
  let same : Bool := match s.handOf n with | some h => ! h.forced && h.at_ == s.dtC | none => false
  if same ∧ ! (s.ydOwner n = 10 ∧ s.locked) ∧ s.ownerValid new then
    (beginHandover n ⟨new, bitOf v 4, true, s.dtC⟩ s).setFlag (A.YD_OWN n) 29 true
  else if (s.ydOwner n = 10 ∧ s.locked) ∨ ! s.ownerValid new ∨ s.flag (A.YD_OWN n) 31 then s.setFlag (A.YD_OWN n) 29 true
  else beginHandover n ⟨new, bitOf v 4, true, s.dtC⟩ s

/-- YARD_HAND: a core writes YDnn_HAND. -/
def execYardHand (m : Master) (n : Fin 16) (v : Word) (s : State) : Out := .next (writeHand m n v s)

/-- YARD_FORCE: a core at M writes YDnn_FORCE. -/
def execYardForce (n : Fin 16) (v : Word) (s : State) : Out := .next (writeForce n v s)

/-- HANDOVER_DONE. -/
def execHandoverDone (n : Fin 16) (s : State) : Out :=
  match s.handOf n with
  | some h => .next (s.endHandover n h)
  | none => .next s

/-! ### Transparent test (R333–R335) -/

/-- The interval between window tests, in ns (R333). -/
def ydInterval (s : State) : Nat := (2 * (s.fld A.YD_TESTCFG 9 0 * 1000000) + 65536) / 131072

/-- SWEEP is valid (R343). -/
def ydSweepOk (s : State) : Bool := decide (30 ≤ s.fld A.YD_TESTCFG 9 0 ∧ s.fld A.YD_TESTCFG 9 0 ≤ 1000)

/-- YARD_WINDOW_TEST: the next window's contents are saved and its march begins; the save reads its eight words, and
`up` tells of an error that it meets: `i` an uncorrectable word `i`, `8 + i` a single-bit error in word `i` (R332, R334). -/
def execYardWindowTest (up : Option (Fin 16)) (s : State) : Out :=
  if ! s.flag A.YD_TESTCFG 31 ∨ ! ydSweepOk s ∨ s.mem.ydWin.isSome ∨ s.dtC < s.mem.ydNext ∨ ! s.coreOn then .next s
  else
    let y := s.fld A.YD_TESTSTAT 19 16
    let w := s.fld A.YD_TESTSTAT 11 0
    let s1 := { s with mem := { s.mem with ydWin := some s.dtC, ydNext := s.dtC + ydInterval s } }.setFlag A.YD_TESTSTAT 31 true
    let err := fun (i : Nat) => match up with
      | some k => if k.val = i then 2 else if k.val = i + 8 then 1 else 0
      | none => 0
    .next (forUpTo 8 (fun i (t : State) => (t.eccRead y (y * 0x40000 + w * 64 + 8 * i) 8 (err i)).1) s1)

/-- YARD_WINDOW_TEST_DONE: 400 ns later the buffer is written back; `ok` is the march's outcome. -/
def execYardWindowTestDone (ok : Bool) (s : State) : Out :=
  match s.mem.ydWin with
  | none => .next s
  | some t0 =>
    if s.dtC < t0 + 400 then .next s
    else
      let y := s.fld A.YD_TESTSTAT 19 16
      let w := s.fld A.YD_TESTSTAT 11 0
      let idx := (y * 4096 + w + 1) % 65536
      let s1 := { s with mem := { s.mem with ydWin := none } }
      let s2 := (s1.setFld A.YD_TESTSTAT 19 16 (idx / 4096)).setFld A.YD_TESTSTAT 11 0 (idx % 4096)
      if ok then .next s2
      else
        let spared := Sparse.get (fun _ => 0) s.mem.ydSpared y
        -- the first failing window of a yard moves to its spare
        let first := spared == 0
        let s3 := if first then
            { s2 with mem := { s2.mem with ydSpared := Sparse.set (fun _ => 0) s2.mem.ydSpared y (w + 1) } }
          else s2
        let s4 := ((s3.setFlag A.YD_TESTSTAT 30 true).raiseC 0x41 y).ydCause 3
        .next (if s.flag A.YD_TESTERR 31 then s4
          else s4.wr A.YD_TESTERR (BitVec.ofNat 32 (2 ^ 31 + first.toNat * 2 ^ 30 + y * 2 ^ 18 + w * 2 ^ 6)))

/-! ### NV yard (R336–R338, R341) -/

/-- Counts of waiting entries shown in YD_NVSTAT. -/
def nvShow (s : State) : State :=
  let cq := (s.mem.nvQ.filter (fun e => ! e.guard)).length
  let gq := (s.mem.nvQ.filter (fun e => e.guard)).length
  ((s.setFld A.YD_NVSTAT 29 26 (min cq 8)).setFld A.YD_NVSTAT 25 23 (min gq 4)).setFlag A.YD_NVSTAT 31 s.mem.nvRun.isSome

/-- Bytes of one line enter a queue of the write controller, merging into an entry that waits (R337). -/
def nvPush (q : List NvEntry) (c : Option Who) (line : Nat) (bs : List (Nat × Byte)) : List NvEntry :=
  match q with
  | [] => [{ guard := c.isNone, line := line, bytes := bs, cores := c.toList }]
  | e :: r =>
    if e.guard = c.isNone ∧ e.line = line ∧ e.idx.isNone then { e with bytes := e.bytes ++ bs, cores := e.cores ++ c.toList } :: r
    else e :: nvPush r c line bs

/-- A store to the NV yard (R337), of core `c`, or of the guard or the security block (none). -/
def nvStore (c : Option Who) (a : Nat) (bs : List Byte) (s : State) : State :=
  let cells := (List.range bs.length).zip bs |>.map (fun p => (a + p.1, p.2))
  let lines := cells.map (fun c => c.1 / 8) |>.eraseDups
  let q := lines.foldl (fun q l => nvPush q c l (cells.filter (fun c => c.1 / 8 == l))) s.mem.nvQ
  nvShow ({ s with mem := { s.mem with nvQ := q } }.touch a bs.length)

/-- A queue has no room for another line (R337). -/
def nvFull (g : Bool) (s : State) : Bool :=
  decide ((if g then 4 else 8) ≤ (s.mem.nvQ.filter (fun e => e.guard == g)).length)

/-- NV_LINE_WRITE_START: the guard and security queue first, each in arrival order. -/
def execNvLineWriteStart (s : State) : Out :=
  if s.mem.nvRun.isSome then .next s
  else
    let pick := match s.mem.nvQ.find? (fun e => e.guard) with
      | some e => some e
      | none => s.mem.nvQ.head?
    match pick with
    | none => .next s
    | some e => .next (nvShow { s with mem := { s.mem with nvQ := s.mem.nvQ.erase e, nvRun := some (e, s.dtC) } })

/-- A block's count reaches the threshold (R341). -/
def wearOut (inst : Nat) (s : State) : State :=
  ((s.setFlag (if inst = 0 then A.YD_NVSTAT else A.PM_STAT) 30 true).raiseC 0x45 inst).ydCause 4

/-- A threshold is written: a count that the new value makes reach it does so now (assumption 144). -/
def wearTh (inst old : Nat) (s : State) : State :=
  let th := s.num (if inst = 0 then A.YD_NVWEARTH else A.PM_WEARTH)
  let m := if inst = 0 then s.mem.nvWear else s.mem.pmWear
  if m.any (fun e => decide (th ≤ e.2 ∧ e.2 < old)) then wearOut inst s else s

/-- A line write counts as wear of its block (R341): instance 0 the NV yard, 1 program MRAM. -/
def wear (inst blk : Nat) (s : State) : State :=
  let m := if inst = 0 then s.mem.nvWear else s.mem.pmWear
  let c := min (Sparse.get (fun _ => 0) m blk + 1) (2 ^ 32 - 1)
  let m' := Sparse.set (fun _ => 0) m blk c
  let s1 := if inst = 0 then { s with mem := { s.mem with nvWear := m' } } else { s with mem := { s.mem with pmWear := m' } }
  let (maxA, statA, thA) := if inst = 0 then (A.YD_NVWEARMAX, A.YD_NVSTAT, A.YD_NVWEARTH) else (A.PM_WEARMAX, A.PM_STAT, A.PM_WEARTH)
  let s2 := if s.num maxA < c then
      (s1.wr maxA (BitVec.ofNat 32 c)).setFld statA (if inst = 0 then 10 else 13) 0 blk
    else s1
  if s.num thA ≤ c ∧ Sparse.get (fun _ => 0) m blk < s.num thA then wearOut inst s2 else s2

/-- Cause `b` of the SC block (R487): 0 tamper, 1 session, 2 ATTEST done, 3 index low. -/
def State.scCause (s : State) (b : Nat) : State :=
  let s1 := s.setFlag A.SC_IRQST b true
  if s.flag A.SC_IRQEN b then s1.raiseVec (236 + b) else s1

/-- The line that holds index `c`. -/
def idLine (c : Nat) : BitVec 64 := BitVec.ofNat 64 (c % 2 ^ 32 + (2 ^ 32 - 1 - c % 2 ^ 32) * 2 ^ 32)

/-- An identity index has been written (R480): the signing that waits for it goes on. -/
def idWritten (n : Nat) (s : State) : State :=
  let go := fun (a : Attest) => if a.idx + 1 = n then { a with at_ := some s.dtC } else a
  let s1 := { s with sc := { s.sc with idxLine := idLine n, attest := s.sc.attest.map go } }.wr A.SC_IDCNT (BitVec.ofNat 32 n)
  if n = 0xFF000 then s1.scCause 3 else s1

/-- The running line write reaches the array, whole. -/
def nvCommit (e : NvEntry) (s : State) : State :=
  let put := fun (r : Sparse Byte) (b : Nat × Byte) => Sparse.set (fun _ => 0) r b.1 b.2
  let full := fun (h : Nat) => (List.range 4).all (fun i => e.bytes.any (fun b => b.1 == 4 * h + i))
  let s1 := { s with ram := e.bytes.foldl put s.ram, poison := Sparse.drop full s.poison }
  let s2 := wear 0 ((e.line - 0x01000000 / 8) / 64) s1
  match e.idx with
  | some n => idWritten n s2
  | none => s2

/-- NV_LINE_WRITE_DONE: 400 ns after its start. -/
def execNvLineWriteDone (s : State) : Out :=
  match s.mem.nvRun with
  | none => .next s
  | some (e, t0) =>
    if s.dtC < t0 + 400 then .next s
    else .next (nvShow (nvCommit e { s with mem := { s.mem with nvRun := none } }))

/-- Both queues empty before a supply is removed (R338). -/
def nvDrain (s : State) : State :=
  let q := (match s.mem.nvRun with | some r => [r.1] | none => []) ++ s.mem.nvQ
  nvShow (forEach q nvCommit { s with mem := { s.mem with nvQ := [], nvRun := none } })

/-! ### Program MRAM (R340, R341) -/

/-- The syllable at `a` of program memory. -/
def State.sylAt (s : State) (a : Nat) : Syl := Sparse.get (fun _ => 0) s.pm a

/-- The four syllables of the line at `l`. -/
def State.pmLine (s : State) (l : Nat) : List Syl := (List.range 4).map (fun i => s.sylAt (l + i))

/-- A line of program memory is written: its ECC is right again, and its block wears. -/
def pmWriteLine (l : Nat) (ds : List Syl) (s : State) : State :=
  let pm := ((List.range 4).zip ds).foldl (fun m p => Sparse.set (fun _ => 0) m (l + p.1) p.2) s.pm
  wear 1 (l / 256) { s with pm := pm, pmBad := Sparse.set (fun _ => false) s.pmBad (l / 4) false }

/-- An uncorrectable line (R340). -/
def pmEcc2 (l : Nat) (s : State) : State :=
  (({ s with pmBad := Sparse.set (fun _ => false) s.pmBad (l / 4) true }.setFlag A.PM_STAT 31 true).wr A.PM_ECC2ADDR
    (BitVec.ofNat 32 l)).raiseC 0x43 0

/-- PM_SCRUB: the scrubber reads the next line, which carries `up` upsets. -/
def execPmScrub (up : Fin 3) (s : State) : Out :=
  let l := s.mem.scrub
  let s1 := { s with mem := { s.mem with scrub := (l + 4) % 0x400000 } }
  if ! s.coreOn then .next s
  else if up.val = 2 ∨ Sparse.get (fun _ => false) s.pmBad (l / 4) then .next (pmEcc2 l s1)
  else if up.val = 1 then .next (pmWriteLine l (s1.pmLine l) (s1.satAdd A.PM_ECC1 31 0 1))
  else .next s1

/-! ### Clears -/

/-- YD_CLR.ECC. -/
def ydClrEcc (s : State) : State := (forUpTo 16 (fun n s => s.wr (A.YD_ECC n) 0) s).wr A.YD_NVECC 0
/-- YD_CLR.COLL. -/
def ydClrColl (s : State) : State := forUpTo 16 (fun n s => s.wr (A.YD_COLL n) 0) s
/-- YD_CLR.CONF. -/
def ydClrConf (s : State) : State := forUpTo 13 (fun n s => s.wr (A.YD_CONF n) 0) s

def execYdClrEcc (s : State) : Out := .next (ydClrEcc s)
def execYdClrColl (s : State) : Out := .next (ydClrColl s)
def execYdClrConf (s : State) : Out := .next (ydClrConf s)
/-- PM_CLR_ECC1. -/
def execPmClrEcc1 (s : State) : Out := .next (s.wr A.PM_ECC1 0)

end Sys2Proof.Machine
end

