-- ==== Sys2Proof/Machine/MapStore.lean ====
section
/-!
DEFINITION. The map store (R214–R227): images, loads, switches, lookups, cache.
-/
namespace Sys2Proof.Machine

/-- One step of CRC-32 (IEEE 802.3, reflected). -/
def crcBit : Nat → BitVec 32 → BitVec 32
  | 0, c => c
  | n + 1, c => crcBit n (if c.getLsbD 0 then (c >>> 1) ^^^ 0xEDB88320#32 else c >>> 1)

/-- CRC-32 of bytes (R217, R339, R374). -/
def crc32 (bs : List Byte) : Word :=
  ~~~ bs.foldl (fun c b => crcBit 8 (c ^^^ b.setWidth 32)) 0xFFFFFFFF#32

/-- `n` bytes of an image from `o`, as a number. -/
def imgNum (img : List Byte) (o n : Nat) : Nat := bytesNum ((img.drop o).take n)

/-- The word of an image at `o`. -/
def imgWord (img : List Byte) (o : Nat) : Word := BitVec.ofNat 32 (imgNum img o 4)

/-- Words of an image from `o`. -/
def imgWords (img : List Byte) (o : Nat) : Nat → List Word
  | 0 => []
  | n + 1 => imgWord img o :: imgWords img (o + 4) n

namespace MapVer

/-- Axis `a` (1–3) is tabulated. -/
def tabbed (v : MapVer) (a : Nat) : Bool := v.tab.testBit (a - 1)
/-- Breakpoints of axis `a`. -/
def len (v : MapVer) (a : Nat) : Nat := v.n.getD (a - 1) 1
/-- Entries. -/
def size (v : MapVer) : Nat := v.len 1 * v.len 2 * v.len 3
/-- Lines that a buffer spans (R218). -/
def lines (v : MapVer) : Nat := ceilDiv v.size 16
/-- Breakpoints stored. -/
def bpCount (v : MapVer) : Nat := (v.bps.map List.length).foldl (· + ·) 0

end MapVer

/-- An image as its layout reads (R217), whatever its values; the entries beside it. `none`: too short for its layout. -/
def parseImage (img : List Byte) : Option (MapVer × List Word) :=
  if img.length < 0x44 then none
  else
    let ns := [imgNum img 0x10 2, imgNum img 0x12 2, imgNum img 0x14 2]
    let tab := imgNum img 0x0C 1
    let tl := fun (a : Nat) => if tab.testBit a then ns.getD a 0 else 0
    let total := tl 0 + tl 1 + tl 2
    let cnt := ns.getD 0 0 * ns.getD 1 0 * ns.getD 2 0
    if img.length ≠ 0x40 + 4 * total + 4 * cnt + 4 then none
    else
      let bps := [imgWords img 0x40 (tl 0), imgWords img (0x40 + 4 * tl 0) (tl 1),
        imgWords img (0x40 + 4 * (tl 0 + tl 1)) (tl 2)]
      some ({ ver := imgWord img 4, axes := imgNum img 8 1, interp := imgNum img 9 1 == 1, fmt := imgNum img 0x0A 1 == 1,
              frac := imgNum img 0x0B 1, tab := tab, n := ns, fallback := imgWord img 0x18,
              x0 := [imgWord img 0x24, imgWord img 0x2C, imgWord img 0x34],
              dx := [imgWord img 0x28, imgWord img 0x30, imgWord img 0x38], bps := bps }, imgWords img (0x40 + 4 * total) cnt)

/-- Strictly ascending and finite (R218). -/
def ascending : List Word → Bool
  | [] => true
  | [x] => F32.isFinite x
  | x :: y :: l => F32.isFinite x && F32.ltG x y && ascending (y :: l)

namespace State

def getMap (s : State) (n : Nat) : MapHid := Sparse.get (fun _ => {}) s.maps n
def setMap (s : State) (n : Nat) (h : MapHid) : State := { s with maps := Sparse.set (fun _ => {}) s.maps n h }
/-- DIRn_CFG.STATE: 0 EMPTY, 1 LOADING, 2 STAGED, 3 CURRENT, 4 DRAINING. -/
def mapState (s : State) (n : Nat) : Nat := s.fld (A.DIR_CFG n) 31 29
def mapHasCur (s : State) (n : Nat) : Bool := s.flag (A.DIR_CFG n) 27
/-- The current buffer: false A, true B. -/
def mapCur (s : State) (n : Nat) : Bool := s.flag (A.DIR_CFG n) 28
def MapHid.ver (h : MapHid) (b : Bool) : Option MapVer := if b then h.b else h.a

/-- Cause `b` of the MP block (R227). -/
def mpCause (s : State) (b : Nat) : State :=
  let s1 := s.setFlag A.MP_IRQST b true
  if s.flag A.MP_IRQEN b then s1.raiseVec (232 + b) else s1

/-- First byte of the map area, in far memory (R214). -/
def areaBase (s : State) : Nat := s.fld A.MP_AREA_L 31 16 * 65536 + s.fld A.MP_AREA_H 3 0 * 2 ^ 32
/-- Lines of the map area. -/
def areaLines (s : State) : Nat := s.fld A.MP_AREA_SIZE 26 0 / 16
/-- Usable capacity of far memory in bytes (R370). -/
def farCap (s : State) : Nat := s.fld A.LK_FARCAP 8 0 * 2 ^ 28
/-- Far memory answers (R370, R372). -/
def farUp (s : State) : Bool := s.flag A.LK_FARSTAT 30

/-- The area is invalid (R214). -/
def areaBad (s : State) : Bool :=
  let z := s.fld A.MP_AREA_SIZE 26 0
  decide (z = 0 ∨ z % 16 ≠ 0 ∨ 2 ^ 26 < z ∨ s.farCap < s.areaBase + 4 * z)

/-- MP_STAT.READY follows EN and the area, CFGERR the area (R214, R227): from the first write of the block or change of
far memory on (assumption 135). -/
def mpShow (s : State) : State :=
  (s.setFlag A.MP_STAT 31 (s.flag A.MP_CTRL 31 && ! s.areaBad)).setFlag A.MP_STAT 29 s.areaBad

/-- A far address lies in the map area (R215), whether or not the store is on. -/
def inArea (s : State) (off : Nat) : Bool :=
  decide (s.areaBase ≤ off ∧ off < s.areaBase + 4 * s.fld A.MP_AREA_SIZE 26 0)

/-- Far-memory line number of line `i` of a buffer. -/
def bufLine (s : State) (v : MapVer) (i : Nat) : Nat := s.areaBase / 64 + v.ofs + i

/-- Versions held by a map. -/
def mapVers (h : MapHid) : List MapVer := h.a.toList ++ h.b.toList

/-- A line belongs to a pinned buffer. -/
def linePinned (s : State) (l : Nat) : Bool :=
  s.maps.any (fun e => (mapVers e.2).any (fun v => v.pin && decide (s.bufLine v 0 ≤ l ∧ l < s.bufLine v v.lines)))

/-- MP_PINUSE and MP_BPUSE (R227). -/
def mpUse (s : State) : State :=
  let vs := s.maps.flatMap (fun e => mapVers e.2)
  let pins := (vs.map (fun v => if v.pin then v.lines else 0)).foldl (· + ·) 0
  let bps := (vs.map MapVer.bpCount).foldl (· + ·) 0
  (s.setFld A.MP_PINUSE 14 0 (min pins 16384)).setFld A.MP_BPUSE 14 0 (min bps 16384)

/-! ### Cache (R224, R226) -/

def getLine (s : State) (k : Nat) : Option CacheLine := Sparse.get (fun _ => none) s.cache k
def setLine (s : State) (k : Nat) (c : Option CacheLine) : State := { s with cache := Sparse.set (fun _ => none) s.cache k c }

/-- Where a far-memory line stands in the cache. -/
def findLine (s : State) (l : Nat) : Option Nat :=
  ((List.range 16).map (fun w => l % 2048 * 16 + w)).find? (fun k => match s.getLine k with
    | some c => c.line == l
    | none => false)

/-- The words of a far-memory line. -/
def farLine (s : State) (l : Nat) : List Word := (List.range 16).map (fun i => Sparse.get (fun _ => 0) s.farMem (l * 16 + i))

/-- A line is installed (R224): a pinned one in the lowest way without a pinned line, wherever it stood before, another in an
empty way or in place of the least recently used unpinned line. -/
def install (s : State) (l : Nat) (pin : Bool) : State :=
  let ways := (List.range 16).map (fun w => l % 2048 * 16 + w)
  let isPin := fun (k : Nat) => match s.getLine k with
    | some c => c.pinned
    | none => false
  let used := fun (k : Nat) => match s.getLine k with
    | some c => c.used + 1
    | none => 0
  let open_ := ways.filter (fun k => ! isPin k)
  let pick := match s.findLine l with
    | some k => if pin && ! isPin k then open_.head? else some k
    | none => if pin then open_.head?
      else open_.foldl (fun (m : Option Nat) k => match m with
        | none => some k
        | some j => some (if used k < used j then k else j)) none
  match pick with
  | none => s
  | some k =>
    let s1 := match s.findLine l with
      | some j => if j = k then s else s.setLine j none
      | none => s
    { s1.setLine k (some ⟨l, pin, s.cacheClk, s.farLine l, false⟩) with cacheClk := s.cacheClk + 1 }

/-- A line that no pinned buffer holds any more is pinned no more. -/
def repin (s : State) : State :=
  { s with cache := s.cache.map (fun e => (e.1, e.2.map (fun c => { c with pinned := c.pinned && s.linePinned c.line }))) }

/-- The map-cache view (R226). -/
def cacheView (s : State) (off : Nat) : Word :=
  match s.getLine (off % 0x20000 / 64 * 16 + off / 0x20000) with
  | some c => c.data.getD (off % 64 / 4) 0
  | none => 0

/-! ### Lookup (R222) -/

/-- `floor` of a non-negative float. -/
def floorF (t : Word) : Nat := let d := F32.dy t; if 0 ≤ d.e then d.m.toNat * 2 ^ d.e.toNat else d.m.toNat / 2 ^ (-d.e).toNat

/-- Position on axis `a`: index and fraction; none for a NaN key. -/
def axisPos (v : MapVer) (a : Nat) (k : Word) : Option (Nat × Word) :=
  if F32.isNaN k then none
  else
    let n := v.len a
    let t :=
      if ! v.tabbed a then
        F32.mulG (F32.subG k (v.x0.getD (a - 1) 0)) (F32.divG F32.one (v.dx.getD (a - 1) 0))
      else
        let bp := v.bps.getD (a - 1) []
        let i := min ((bp.filter (fun b => ! F32.ltG k b)).length - 1) (n - 2)
        F32.addG (F32.ofInt i) (F32.divG (F32.subG k (bp.getD i 0)) (F32.subG (bp.getD (i + 1) 0) (bp.getD i 0)))
    let t1 := if F32.ltG t 0 then 0 else if F32.ltG (F32.ofInt (n - 1 : Nat)) t then F32.ofInt (n - 1 : Nat) else t
    let i := min (floorF t1) (n - 2)
    some (i, F32.subG t1 (F32.ofInt i))

/-- The positions of every axis in use. -/
def positions (v : MapVer) (keys : List Word) : Option (List (Nat × Word)) :=
  (List.range v.axes).foldr (fun a acc => match acc, axisPos v (a + 1) (keys.getD a 0) with
    | some l, some p => some (p :: l)
    | _, _ => none) (some [])

/-- Entry numbers that a lookup at these positions needs, axis 1 fastest. -/
def corners (v : MapVer) (ps : List (Nat × Word)) : List Nat :=
  let idx := fun (l : List Nat) => l.getD 0 0 + v.len 1 * (l.getD 1 0 + v.len 2 * l.getD 2 0)
  if ! v.interp then
    [idx (ps.map (fun p => if F32.le 0x3F000000 p.2 then p.1 + 1 else p.1))]
  else
    (List.range (2 ^ ps.length)).map (fun d =>
      idx ((List.range ps.length).map (fun j => (ps.getD j (0, 0)).1 + (d / 2 ^ j) % 2)))

/-- Successive interpolation, axis 1 first (R222). -/
def lerp : List (Nat × Word) → List Word → Word
  | [], r => r.getD 0 0
  | p :: ps, r =>
    lerp ps ((List.range (r.length / 2)).map (fun j =>
      F32.fmaG p.2 (F32.subG (r.getD (2 * j + 1) 0) (r.getD (2 * j) 0)) (r.getD (2 * j) 0)))

/-- An entry as a float: FMT 1 enters as its signed value × 2^-FRAC (R222). -/
def entryF (v : MapVer) (w : Word) : Word := if v.fmt then F32.ofDy ⟨w.toInt, -(v.frac : Int)⟩ else w

/-- The version of map `n` that a task released at `rel` reads (R221). -/
def verFor (s : State) (n rel : Nat) : Option (Bool × MapVer) :=
  let h := s.getMap n
  let b := if s.mapState n = 4 ∧ rel < h.switchAt then ! s.mapCur n else s.mapCur n
  if ! s.mapHasCur n ∧ ! (s.mapState n = 4) then none
  else match MapHid.ver h b with
    | some v => some (b, v)
    | none => none

/-- A lookup falls back (R223). -/
def mapFall (s : State) (n : Nat) (v : Option MapVer) : (Word × Bool) × State :=
  (((match v with | some v => v.fallback | none => s.rd (A.DIR_FALLBACK n)), true),
   (s.satAdd A.MP_CNT_FB 31 0 1).mpCause 2)

/-- The far-memory lines that a lookup needs. -/
def needLines (s : State) (v : MapVer) (ps : List (Nat × Word)) : List Nat :=
  ((corners v ps).map (fun e => s.bufLine v (e / 16))).eraseDups

/-- The word of entry `e` of a buffer, from the cache line that holds it. -/
def entryAt (s : State) (v : MapVer) (e : Nat) : Word :=
  match s.findLine (s.bufLine v (e / 16)) with
  | some k => (match s.getLine k with | some c => c.data.getD (e % 16) 0 | none => 0)
  | none => 0

/-- The result of a lookup whose lines are all present; the lines become the most recently used. -/
def lookupHit (s : State) (v : MapVer) (ps : List (Nat × Word)) : Word × State :=
  let es := (corners v ps).map (fun e => entryF v (s.entryAt v e))
  let r := if v.interp then lerp ps es else es.getD 0 0
  let s1 := forEach (s.needLines v ps) (fun l t => match t.findLine l with
    | some k => (match t.getLine k with
      | some c => { t.setLine k (some { c with used := t.cacheClk }) with cacheClk := t.cacheClk + 1 }
      | none => t)
    | none => t) s
  (r, s1)

end State

/-- What a lookup finds when it is issued: a result, or lines that must be fetched. -/
inductive LookRes
  | done (r : Word) (fb : Bool)
  | miss
  deriving DecidableEq, Repr

namespace State

/-- LOOKUP of map `n` by a task released at `rel` (R222–R225). `ecc`: 1 a single-bit, 2 an uncorrectable error in a line
it reads. -/
def lookup (s : State) (n rel : Nat) (keys : List Word) (ecc : Nat) : LookRes × State :=
  match s.verFor n rel with
  | none => let r := s.mapFall n none; (.done r.1.1 r.1.2, r.2)
  | some (_, v) =>
    match positions v keys with
    | none => let r := s.mapFall n (some v); (.done r.1.1 r.1.2, r.2)
    | some ps =>
      let ls := s.needLines v ps
      let gone := ls.filter (fun l => (s.findLine l).isNone)
      let s0 := s.satAdd (if gone ≠ [] then A.MP_CNT_MISS else A.MP_CNT_HIT) 31 0 1
      -- an error is met in a line that is present
      match ls.filter (fun l => (s.findLine l).isSome), ecc with
      | l :: _, 2 =>
        -- the line is invalidated; a pinned one is fetched again
        let s2 := match s0.findLine l with
          | some k => s0.setLine k none
          | none => s0
        let s3 := if s.linePinned l ∧ ! s2.fetches.contains l then { s2 with fetches := s2.fetches ++ [l] } else s2
        let r := (s3.raiseC 0x44 n).mapFall n (some v)
        (.done r.1.1 r.1.2, r.2)
      | ok, _ =>
        let s1 := if ecc = 1 ∧ ok ≠ [] then s0.satAdd A.MP_CNT_ECC1 31 0 1 else s0
        if gone = [] then
          let r := s1.lookupHit v ps
          (.done r.1 false, r.2)
        else if ! s.farUp then let r := s1.mapFall n (some v); (.done r.1.1 r.1.2, r.2)
        else
          let new := gone.filter (fun l => ! s.fetches.contains l)
          (.miss, { s1 with fetches := s1.fetches ++ new })

/-- A lookup of the task of `ch` released at `rel` takes the station of `tag` on bogie `b` at instant `now` (R142, R180,
R222). -/
def issueLookup (s : State) (b ch tag n rel : Nat) (keys : List Word) (now ecc : Nat) : State :=
  let r := s.lookup n rel keys ecc
  let buf := match s.verFor n rel with | some v => v.1 | none => false
  let st : Station := match r.1 with
    | .done v fb => ⟨ch, tag, now + 144, now, false, some (v, fb), false, ⟨n, buf, keys⟩⟩
    | .miss => ⟨ch, tag, now + 144, now, true, none, false, ⟨n, buf, keys⟩⟩
  let g := r.2.getBog b
  r.2.setBog b { g with stations := g.stations.filter (fun x => ! (x.ch == ch && x.tag == tag)) ++ [st] }

end State

/-! ### Directory, load and switch (R216–R221) -/

/-- Directory entry `n` describes version `v` as the current buffer (R227). -/
def dirShow (n : Nat) (v : MapVer) (cur : Bool) (st : Nat) (s : State) : State :=
  let cfg := st * 2 ^ 29 + cur.toNat * 2 ^ 28 + 2 ^ 27 + v.pin.toNat * 2 ^ 26 + v.axes * 2 ^ 24 + v.interp.toNat * 2 ^ 23
    + v.fmt.toNat * 2 ^ 22 + v.frac * 2 ^ 17 + (v.tab % 8) * 2 ^ 14
  let s1 := ((s.wr (A.DIR_CFG n) (BitVec.ofNat 32 cfg)).wr (A.DIR_N12 n)
    (BitVec.ofNat 32 ((v.len 2 - 1) * 65536 + (v.len 1 - 1)))).wr (A.DIR_N3 n) (BitVec.ofNat 32 (v.len 3 - 1))
  let x := fun (l : List Word) (a : Nat) => if v.tabbed (a + 1) then 0 else l.getD a 0
  [(A.DIR_FALLBACK n, v.fallback), (A.DIR_VERCUR n, v.ver), (A.DIR_X0_1 n, x v.x0 0), (A.DIR_DX_1 n, x v.dx 0),
   (A.DIR_X0_2 n, x v.x0 1), (A.DIR_DX_2 n, x v.dx 1), (A.DIR_X0_3 n, x v.x0 2), (A.DIR_DX_3 n, x v.dx 2)].foldl
    (fun t p => t.wr p.1 p.2) s1

/-- The zero fields of an image (R217): X0 and DX of a tabulated or absent axis among them. -/
def imageZeros (img : List Byte) : Bool :=
  decide (imgNum img 0x0D 3 = 0 ∧ imgNum img 0x16 2 = 0 ∧ imgNum img 0x3C 4 = 0 ∧ imgNum img 0x0C 1 < 8)
    && (List.range 3).all (fun a =>
      ! ((imgNum img 0x0C 1).testBit a || decide (imgNum img 8 1 ≤ a)) || imgNum img (0x24 + 8 * a) 8 == 0)

/-- RANGE (R218). -/
def rangeBad (img : List Byte) (v : MapVer) : Bool :=
  let na := fun (a : Nat) => if a ≤ v.axes then decide (2 ≤ v.len a ∧ v.len a ≤ 4096) else v.len a == 1
  ! (decide (1 ≤ v.axes ∧ v.axes ≤ 3) && decide (imgNum img 9 1 ≤ 1) && decide (imgNum img 0x0A 1 ≤ 1)
     && decide (if v.fmt then v.frac ≤ 31 else v.frac = 0) && na 1 && na 2 && na 3)

/-- AXISERR (R218): each uniform axis has a finite X0 and a finite positive DX, each tabulated one ascending breakpoints. -/
def axisBad (v : MapVer) : Bool :=
  (List.range v.axes).any (fun a =>
    if v.tabbed (a + 1) then ! ascending (v.bps.getD a [])
    else ! (F32.isFinite (v.x0.getD a 0) && F32.isFinite (v.dx.getD a 0) && F32.ltG 0 (v.dx.getD a 0)))

/-- Two runs of lines overlap. -/
def overlap (a n b m : Nat) : Bool := decide (a < b + m ∧ b < a + n)

namespace State

/-- The versions that take up the area beside buffer `alt` of map `n`: those that are loaded, and those of accepted loads that
wait for the end of draining (R218, R221). -/
def otherVers (s : State) (n : Nat) (alt : Bool) : List MapVer :=
  s.maps.flatMap (fun e =>
    let waits := match e.2.load with | some l => if l.started then none else some l.v | none => none
    [(e.1 == n && ! alt, e.2.a), (e.1 == n && alt, e.2.b), (false, waits)].filterMap (fun p => if p.1 then none else p.2))

/-- The pinned lines that the other buffers hold, one entry per buffer: base and count. -/
def pinRuns (s : State) (n : Nat) (alt : Bool) : List (Nat × Nat) :=
  ((s.otherVers n alt).filter (fun v => v.pin)).map (fun v => (s.bufLine v 0, v.lines))

/-- Members of a run of `m` lines from `a` that fall into cache set `k`. -/
def inSet (a m k : Nat) : Nat := let first := (k + 2048 - a % 2048) % 2048; if m ≤ first then 0 else (m - first - 1) / 2048 + 1

/-- MAP_LOAD's checks in table order (R218): 0 when the load is accepted, else the reason; with the alternate buffer and
the image's content. -/
def mapLoadCheck (s : State) (n : Nat) (img : Option (List Byte)) (len : Nat) (pin : Bool) :
    Nat × Bool × MapVer × List Word :=
  let h := s.getMap n
  let alt := if s.mapHasCur n then ! s.mapCur n else false
  let bad := fun (r : Nat) => (r, alt, ({} : MapVer), ([] : List Word))
  if ! s.flag A.MP_CTRL 31 ∨ s.flag A.MP_STAT 29 then bad 1
  else if h.load.isSome then bad 2
  else match img with
    | none => bad 3
    | some img =>
      if img.length ≠ len ∨ imgWord img 0 ≠ 0x4D415031 ∨ ! imageZeros img then bad 4
      else match parseImage img with
        | none => bad 4
        | some (v0, es) =>
          let ofs := imgNum img (if alt then 0x20 else 0x1C) 4
          let v := { v0 with pin := pin, ofs := ofs }
          let base := s.bufLine v 0
          if crc32 (img.take (img.length - 4)) ≠ imgWord img (img.length - 4) then bad 5
          else if rangeBad img v then bad 6
          else if axisBad v then bad 7
          else if s.areaLines < ofs + v.lines then bad 8
          else
            let others := (s.otherVers n alt).map (fun w => (s.bufLine w 0, w.lines))
            let bpOther := ((s.otherVers n alt).map MapVer.bpCount).foldl (· + ·) 0
            let runs := s.pinRuns n alt
            let pins := (runs.map Prod.snd).foldl (· + ·) 0 + v.lines
            let setFull := (List.range (min v.lines 2048)).any (fun i =>
              let k := (base + i) % 2048
              decide (12 < (((base, v.lines) :: runs).map (fun r => inSet r.1 r.2 k)).foldl (· + ·) 0))
            if others.any (fun o => overlap base v.lines o.1 o.2) then bad 9
            else if 16384 < bpOther + v.bpCount then bad 10
            else if pin ∧ (16384 < pins ∨ setFull) then bad 11
            else (0, alt, v, es)

/-- The writes of an accepted load begin (R219, R221): the staged version, if any, is discarded. -/
def mapLoadStart (s : State) (n : Nat) (l : MapLoadSt) : State :=
  let h := s.getMap n
  let h1 := if l.alt then { h with b := some l.v } else { h with a := some l.v }
  let s1 := s.setMap n { h1 with load := some { l with started := true } }
  let base := s.bufLine l.v 0 * 16
  let far := ((List.range l.entries.length).zip l.entries).foldl (fun m p => Sparse.set (fun _ => 0) m (base + p.1) p.2) s1.farMem
  let s2 := { s1 with farMem := far }.setFld (A.DIR_CFG n) 31 29 1
  let s3 := (s2.wr (A.DIR_VERALT n) l.v.ver).wr (if l.alt then A.DIR_BUFB n else A.DIR_BUFA n) (BitVec.ofNat 32 l.v.ofs)
  let s4 := s3.mpUse.repin
  -- stale copies of the buffer's lines leave the cache; pinned ones are installed
  forUpTo l.v.lines (fun i t =>
    let ln := s.bufLine l.v i
    if l.v.pin then t.install ln true
    else match t.findLine ln with
      | some k => t.setLine k none
      | none => t) s4

/-- MAP_LOAD (R218, R219): answers the reason of a refusal, 0 when it is accepted; `wb` is the waybill's rank. -/
def mapLoad (s : State) (n : Nat) (img : Option (List Byte)) (len : Nat) (pin : Bool) (wb : Nat) : Nat × State :=
  match s.mapLoadCheck n img len pin with
  | (0, alt, v, es) =>
    let l : MapLoadSt := ⟨alt, some wb, v, es, false⟩
    if s.mapState n = 4 then (0, s.setMap n { s.getMap n with load := some l })
    else (0, s.mapLoadStart n l)
  | (r, _, _, _) => (r, s.mpCause 3)

/-- MAP_DRAIN_END (R221): when no task released before the switch is left, the old buffer is freed. -/
def mapDrainOne (s : State) (n : Nat) : State :=
  if s.mapState n ≠ 4 then s
  else
    let h := s.getMap n
    if s.tasks.any (fun t => decide (t.rel < h.switchAt)) then s
    else
      let cur := s.mapCur n
      let h1 := if cur then { h with a := none } else { h with b := none }
      let s1 := ((s.setMap n h1).setFld (A.DIR_CFG n) 31 29 3).mpUse.repin
      match h1.load with
      | some l => if l.started then s1 else s1.mapLoadStart n l
      | none => s1

/-- MAP_SWITCH at DT `t` (R220): whether it applied. -/
def mapSwitch (s : State) (n t : Nat) : Bool × State :=
  if s.mapState n ≠ 2 then (false, s.mpCause 3)
  else
    let h := s.getMap n
    let had := s.mapHasCur n
    let new := if had then ! s.mapCur n else false
    match MapHid.ver h new with
    | none => (false, s.mpCause 3)
    | some v =>
      let s1 := s.setMap n { h with switchAt := t }
      -- the old buffer is the alternate now
      let s2 := ((dirShow n v new 4 s1).wr (A.DIR_VERALT n) (if had then s.rd (A.DIR_VERCUR n) else 0)).mpCause 1
      -- without a task released before `t` the draining is over at once (R221)
      (true, s2.mapDrainOne n)

/-- Every map that drains is looked at. -/
def mapDrain (s : State) : State := forEach (s.maps.map Prod.fst) (fun n t => t.mapDrainOne n) s

end State

/-- CACHE_LINE_FILL (R224, R223): the oldest fetch returns; `poison` when far memory reports it. Stations that waited for
the line look again. -/
def cacheFill (poison : Bool) (s : State) : State :=
  match s.fetches with
  | [] => s
  | l :: rest =>
    let s1 := { s with fetches := rest }
    let bad := poison || Sparse.get (fun _ => false) s.farPoison l
    let waits := (List.range 5).flatMap (fun b => (Sparse.get (fun _ => ({} : BogHid)) s.bog b).stations.filter (fun st =>
      st.miss && match MapHid.ver' (s.getMap st.look.map) st.look.buf with
        | some v => (match State.positions v st.look.keys with | some ps => (s.needLines v ps).contains l | none => false)
        | none => false))
    -- the fault is raised once per fetch (R223)
    let s2 := if bad then
        let owner := match waits.head? with
          | some st => some st.look.map
          | none => (s.maps.find? (fun e => (State.mapVers e.2).any (fun v => decide (s.bufLine v 0 ≤ l ∧ l < s.bufLine v v.lines)))).map Prod.fst
        (match owner with | some n => s1.raiseC 0x82 n | none => s1).satAdd A.MP_CNT_POISON 31 0 1
      else s1.install l (s1.linePinned l)
    -- the lookups that wait
    forUpTo 5 (fun b t =>
      let g : BogHid := Sparse.get (fun _ => {}) t.bog b
      let r := g.stations.foldl (fun (acc : List Station × State) st =>
        if ! st.miss then (acc.1 ++ [st], acc.2)
        else
          let u := acc.2
          match MapHid.ver' (u.getMap st.look.map) st.look.buf with
          | none => (acc.1 ++ [st], u)
          | some v =>
            match State.positions v st.look.keys with
            | none => (acc.1 ++ [st], u)
            | some ps =>
              let ls := u.needLines v ps
              if bad ∧ ls.contains l then
                let f := u.mapFall st.look.map (some v)
                (acc.1 ++ [{ st with miss := false, res := some f.1 }], f.2)
              else if ls.all (fun x => (u.findLine x).isSome) then
                let f := u.lookupHit v ps
                (acc.1 ++ [{ st with miss := false, res := some (f.1, false) }], f.2)
              else
                let new := ls.filter (fun x => (u.findLine x).isNone && ! u.fetches.contains x)
                (acc.1 ++ [st], { u with fetches := u.fetches ++ new })) ([], t)
      let g' : BogHid := { g with stations := r.1 }
      { r.2 with bog := Sparse.set (fun _ => {}) r.2.bog b g' }) s2
where
  MapHid.ver' (h : MapHid) (b : Bool) : Option MapVer := if b then h.b else h.a

/-- CACHE_LINE_FILL. -/
def execCacheLineFill (poison : Bool) (s : State) : Out := .next (cacheFill poison s)

/-- MP_CLR.CNT (R227). -/
def mpClrCnt (s : State) : State :=
  [A.MP_CNT_HIT, A.MP_CNT_MISS, A.MP_CNT_FB, A.MP_CNT_ECC1, A.MP_CNT_POISON].foldl (fun t a => t.wr a 0) s

/-- MP_CLR_CNT. -/
def execMpClrCnt (s : State) : Out := .next (mpClrCnt s)

end Sys2Proof.Machine
end

