-- ==== Sys2Proof/Machine/BogiePort.lean ====
section
/-!
DEFINITION. Commits, modes, the parameter port, iteration boundaries and the releases of tasks (R145–R151, R154, R156, R190,
R213).
-/
namespace Sys2Proof.Machine

namespace State

def setCtx (s : State) (ch w : Nat) (v : Word) : State := s.wr (ctxA ch w) v
def chRoutine (s : State) (ch : Nat) : Nat := bitsOf (s.ctx ch 1) 7 0
def setChMode (s : State) (ch m : Nat) : State := s.setFld (ctxA ch 0) 31 29 m

/-- A task of the channel is running or preempted. -/
def chBusy (s : State) (ch : Nat) : Bool := s.tasks.any (fun t => t.ch == ch && t.st != TaskSt.queued)

/-! ### Commits (R149–R151, R156, R190) -/

/-- Position Pk of STGMAP. -/
def stgPos (s : State) (ch k : Nat) : Nat := bitsOf (s.ctx ch 14) (5 * k + 4) (5 * k)

/-- The set that a commit builds (R149): template words, the staged ones replaced. -/
def buildSet (s : State) (ch : Nat) (stg : List Word) : List Word :=
  (List.range 17).map (fun p =>
    match (List.range 6).find? (fun k => s.stgPos ch k == p) with
    | some k => stg.getD k 0
    | none => s.ctx ch (15 + p))

/-- The set of R150: the template with every OVR field off. -/
def safeSet (s : State) (ch : Nat) : List Word :=
  (List.range 17).map (fun p =>
    let w := s.ctx ch (15 + p)
    if bitsOf (s.ctx ch 2) 31 30 = 1 then
      (if p = 16 then (List.range 6).foldl (fun w o => putBits w (7 + 2 * o) (6 + 2 * o) 1) w else w)
    else if 12 ≤ p ∧ p ≤ 15 then putBits w 2 1 1 else w)

/-- A complete set leaves for the field die (R102, R149): CSEQ steps. -/
def sendSet (s : State) (ch : Nat) (ws : List Word) : State :=
  match s.chUnit ch with
  | none => s
  | some u =>
    let seq := (bitsOf (s.ctx ch 0) 7 0 + 1) % 256
    (s.setFld (ctxA ch 0) 7 0 seq).sendF (.commit ⟨ch, u, seq, s.rd A.CPL_EPOCH, ws⟩)

/-- LATE_SET and COMMIT_PWM (R149, R156): the PWM action of a commit; `late` says whether the task was late before.
Answers whether a set has left and whether the task is late now. -/
def commitPwm (s : State) (ch dl : Nat) (late : Bool) (stg : List Word) : State × Bool × Bool :=
  let m := s.chMode ch
  let b := s.bogieOf ch
  if m = 1 ∨ (s.chUnit ch).isNone ∨ (s.getBog b).gated then (s, false, late)
  else if s.dtC ≤ dl then
    let s1 := ((s.setFlag (ctxA ch 0) 28 false).setFlag (ctxA ch 0) 25 false).setFld (ctxA ch 8) 15 8 0
    (s1.sendSet ch (s.buildSet ch stg), true, late)
  else
    let drop := s.flag (ctxA ch 1) 28
    let s1 := ((s.setFlag (ctxA ch 0) 28 true).setFlag (ctxA ch 0) 25 drop)
    let s2 :=
      if late then s1
      else
        let n := min (s1.fld (ctxA ch 8) 15 8 + 1) 255
        let lim := s1.fld (ctxA ch 8) 7 0
        let t := ((s1.setFld (ctxA ch 8) 15 8 n).bgCount (A.BGn_CNT_LATE b)).bgCause b 0
        if lim ≠ 0 ∧ n = lim ∧ s1.fld (ctxA ch 8) 15 8 ≠ n then t.raiseC 0x24 ch else t
    if drop then (s2.bgCause b 1, false, true) else (s2.sendSet ch (s.buildSet ch stg), true, true)

/-- DT of the end of slot S0, when it is valid (R171). -/
def s0End (s : State) (ch : Nat) : Option Nat := let v := s.getSlot ch 0; if v.valid then some v.ts else none

/-- COMMIT_TRACK (R45, R171, R190): the staged track write leaves, when a track is bound. `w`: angle, integer and fraction
of the speed, acceleration, flags. -/
def commitTrack (s : State) (ch rel : Nat) (w : List Word) : State :=
  let bu := s.ctx ch 2
  if ! bitOf bu 21 ∨ (s.getBog (s.bogieOf ch)).gated then s
  else
    let fl := w.getD 4 0
    { s with trkWrQ := s.trkWrQ ++ [⟨ch, bitsOf bu 25 22, (w.getD 0 0).toNat, (w.getD 1 0).toNat * 2 ^ 32 + (w.getD 2 0).toNat,
        bitOf fl 0, (w.getD 3 0).toInt, bitOf fl 1, (s.s0End ch).getD rel⟩] }

/-- COMMIT_CONSIST (R190): CF0–CF3 become the channel's fields, and an item of the captures that name it. -/
def commitConsist (s : State) (ch : Nat) (cf : List Word) : State :=
  let bu := s.ctx ch 2
  let lost := bitOf bu 21 && s.trkLost (bitsOf bu 25 22)
  (s.setCh ch { s.getCh ch with cf := cf }).capture 1 ch s.dtC (if lost then 4 else 0) cf

/-- COMMIT_CTX (R173): a working copy becomes the context. Key 256 is the quantity that RAMPDOWN_SAFE ramps (R212), when it
is no context word. -/
def commitCtx (s : State) (ch : Nat) (w : Sparse (Option Word)) : State :=
  w.foldl (fun s (e : Nat × Option Word) => match e.2 with
    | some v => if e.1 < 256 then s.setCtx ch e.1 v else s.setCh ch { s.getCh ch with ramp := some v }
    | none => s) s

/-! ### Tasks -/

/-- The channel that a bogie runs, shown in its STAT (R164). -/
def bgShow (s : State) (b : Nat) : State :=
  let s1 := match (s.getBog b).run with
    | some ch => (s.setFlag (A.BGn_STAT b) 17 true).setFld (A.BGn_STAT b) 23 18 ch
    | none => s.setFlag (A.BGn_STAT b) 17 false
  s1.bgDepth b

/-- The running task of a bogie ends or is dropped: stations are freed, and busy time is counted (R142, R163). -/
def bgStop (s : State) (b : Nat) : State :=
  let g := s.getBog b
  match g.run with
  | none => s
  | some ch =>
    let g1 := { g with run := none, task := {}, inflight := [], stations := g.stations.filter (fun x => x.ch != ch),
                       busyNs := g.busyNs + (s.dtC - g.busyFrom) }
    ({ s.setBog b g1 with tasks := s.tasks.filter (fun (t : Task) => ! (t.ch == ch && t.st == TaskSt.running)) }.bgShow b).mapDrain

/-- Every task of a channel stops (R147). -/
def stopTasks (s : State) (ch : Nat) : State :=
  let b := s.bogieOf ch
  let s1 := if (s.getBog b).run = some ch then s.bgStop b else s
  let g := s1.getBog b
  let s2 := s1.setBog b { g with stations := g.stations.filter (fun x => x.ch != ch) }
  let s3 := (s2.setCh ch { s2.getCh ch with save := none }).setGather ch none
  ({ s3 with tasks := s3.tasks.filter (fun (t : Task) => t.ch != ch) }.bgDepth b).mapDrain

/-! ### Modes (R147, R150) -/

/-- The bindings of R147 are invalid. -/
def bindBad (s : State) (ch : Nat) : Bool :=
  let w := s.ctx ch 2
  let kind := bitsOf w 31 30
  kind == 3 || (kind == 2 && decide (7 < bitsOf w 29 26))
    || (List.range 6).any (fun j => decide (128 + 71 < s.slotByte ch j))
    || (List.range 6).any (fun k => decide (17 ≤ s.stgPos ch k ∧ s.stgPos ch k ≤ 30))
    || s.chRoutine ch == 0

/-- Another channel holds the unit (R147). -/
def unitHeld (s : State) (ch : Nat) : Bool :=
  match s.chUnit ch with
  | none => false
  | some u => (List.range 64).any (fun c => c != ch && s.chUnit c == some u && decide (1 ≤ s.chMode c ∧ s.chMode c ≤ 4))

/-- R147 accepts a change of the channel's mode to `m`; a failed ROM check refuses STANDBY and RUN (R462). A change from HOLD or RAMPDOWN to STANDBY or RUN is decided as one
from OFF (DEDUCED, assumption 13). -/
def modeOk (s : State) (ch m : Nat) : Bool :=
  let cur := s.chMode ch
  if m = cur then true
  else if 6 ≤ m then false
  else if cur = 5 then m == 0
  else if (m = 1 ∨ m = 2) ∧ s.flag A.BG_UC_STAT 28 then false
  else if (m = 1 ∨ m = 2) ∧ cur ≠ 1 ∧ cur ≠ 2 then ! s.bindBad ch && ! s.unitHeld ch
  else true

/-- MODE_CHANGE (R147): the mode applies, or is refused with CFGERR. -/
def applyMode (s : State) (ch m : Nat) : State :=
  let cur := s.chMode ch
  if ! s.modeOk ch m then (s.setFlag (ctxA ch 0) 22 true).bgCause (s.bogieOf ch) 3
  else
    let s0 := s.setFlag (ctxA ch 0) 22 false
    if m = cur then s0
    else
      let s1 := if m = 0 ∨ m = 3 ∨ m = 5 then s0.stopTasks ch else s0
      let s2 := s1.setChMode ch m
      let c := s2.getCh ch
      let s3 := s2.setCh ch { c with first := m == 1 || m == 2 || c.first, rdFirst := m == 4, rdNext := none,
                                     ramp := if m = 4 then none else c.ramp }
      if m = 1 ∨ m = 2 then
        -- the newest results stay readable; each is valid once it has been delivered since this entry (R144)
        forUpTo 72 (fun sn t => t.setRes ch sn { t.getRes ch sn with valid := false }) s3
      else if m = 5 ∧ ! (s3.getBog (s3.bogieOf ch)).gated then s3.sendSet ch (s3.safeSet ch)
      else s3

/-- The guard places a channel in SAFE (R147, R405). -/
def guardSafe (s : State) (ch : Nat) : State :=
  if s.chMode ch = 5 then s else (s.stopTasks ch).applyMode ch 5

/-! ### Parameter port (R148, R164) -/

/-- One held write applies (R148). -/
def applyPWrite (s : State) (p : PWrite) : State :=
  let a := ctxA p.ch p.word
  let bad := p.word = 0 ∨ (9 ≤ p.word ∧ p.word ≤ 13)
  if bad then
    let s1 := s.setFlag A.BG_PPORT_STAT 30 true
    match p.wb with
    | some w => s1.wbNote w.1 none
    | none => s1
  else
    let rw := if p.word < 32 then typeMask (fieldsAt a) [.rw] else 0xFFFFFFFF#32
    let m := rw &&& p.mask
    -- of word 8, bits 15:8 stay and are a refused write (assumption 130)
    let s0 := if p.word = 8 ∧ bitsOf p.mask 15 8 ≠ 0 then s.setFlag A.BG_PPORT_STAT 30 true else s
    let s1 := s0.wr a ((s0.rd a &&& ~~~ m) ||| (p.val &&& m))
    let mode := p.word = 1 ∧ bitsOf p.mask 31 29 ≠ 0
    let ok := ! mode || s1.modeOk p.ch (bitsOf p.val 31 29)
    let s2 := if mode then s1.applyMode p.ch (bitsOf p.val 31 29) else s1
    match p.wb with
    | some w => (s2.setCtx p.ch 13 w.2).wbNote w.1 (if ok then none else some 14)
    | none => s2

/-- The first held write of a channel. -/
def firstWrite (s : State) (ch : Nat) : Option PWrite := s.pport.find? (fun p => p.ch == ch)

/-- An iteration boundary of a channel (R148, R213), unless a task of it is under way: RDNEXT first, then in arrival order
the held writes that reached the port before DT `cut` and take effect by `limit`. -/
def boundary (s : State) (ch cut : Nat) (limit : State → Nat) : State :=
  if s.chBusy ch then s
  else
    let s1 := match (s.getCh ch).rdNext with
      | some m => ((s.setCh ch { s.getCh ch with rdNext := none }).setFld (ctxA ch 1) 31 29 m).applyMode ch m
      | none => s
    (List.range s1.pport.length).foldl (fun (s : State) _ =>
      match s.firstWrite ch with
      | none => s
      | some p => if limit s < p.at_ ∨ cut ≤ p.arr then s else { s with pport := s.pport.erase p }.applyPWrite p) s1

/-- The boundary that a channel has reached by itself: writes up to the release of its queued task, or up to now. A write
of this very nanosecond waits until every write of the nanosecond is there (R29). -/
def iterBoundary (s : State) (ch : Nat) : State :=
  s.boundary ch s.dtC (fun u =>
    let m := u.chMode ch
    if m = 0 ∨ m = 3 ∨ m = 5 then u.dtC
    else match u.tasks.find? (fun t => t.ch == ch && t.st == TaskSt.queued) with
      | some t => t.rel
      | none => u.dtC)

/-- The boundary before a task of `ch` that was released at DT `t` is queued or dispatched (R148, R156). -/
def boundaryFor (s : State) (ch t : Nat) : State := s.boundary ch (s.dtC + 1) (fun _ => t)

/-- Writes of the host-queue engine reach the port: before those of a core that arrived in the same nanosecond (R29). -/
def enginePort (s : State) (ps : List PWrite) : State :=
  let k := s.pport.length - (s.pport.reverse.takeWhile (fun p => p.wb.isNone && p.arr == s.dtC)).length
  { s with pport := s.pport.take k ++ ps ++ s.pport.drop k }

/-- Writes of the engine wait for space in a bogie's queue of 64 (R164). -/
def engineWaits (s : State) : Bool :=
  (List.range 4).any (fun b => decide (64 < (s.pport.filter (fun p => p.ch / 16 == b)).length))

/-- Writes that the queue holds for channel `ch` (R164): those beyond the 64th of its bogie wait outside. -/
def portPend (s : State) (ch : Nat) : Nat :=
  (((s.pport.filter (fun p => p.ch / 16 == ch / 16)).take 64).filter (fun p => p.ch == ch)).length

/-- A task as a release queues it. -/
def newTask (ch t dl cause : Nat) (part : Bool) : Task := ⟨ch, t, dl, cause, part, cause == 6, .queued, 0, 0, 0⟩

/-- TASK_RELEASE (R145, R146, R154): a release of `ch` at DT `t`, after the writes that take effect by then. Causes: 1 window
result, 2 gather timeout, 3 timetable, 4 event line, 5 waybill, 6 catch-up. -/
def releaseTask (s0 : State) (ch t cause : Nat) (part : Bool) : State :=
  let s := s0.boundaryFor ch t
  let m := s.chMode ch
  if m = 0 ∨ m = 3 ∨ 5 ≤ m then s
  else
    let w := s.ctx ch 2
    let b := s.bogieOf ch
    let dl := s.deadline ch t
    let s1 := (s.setFlag (ctxA ch 0) 27 (bitOf w 21 && s.trkLost (bitsOf w 25 22))).setFlag (ctxA ch 0) 26 part
    let s2 := s1.wr (ctxA ch 9) (BitVec.ofNat 32 t)
    if s2.tasks.any (fun k => k.ch == ch && k.st == TaskSt.queued) then
      let merged := s2.tasks.map (fun k =>
        if k.ch == ch && k.st == TaskSt.queued then
          { k with rel := t, dl := min k.dl dl, cause := cause, part := part, und := 0 }
        else k)
      let dl' := (merged.find? (fun k => k.ch == ch && k.st == TaskSt.queued)).elim dl Task.dl
      (({ s2 with tasks := merged }).wr (ctxA ch 10) (BitVec.ofNat 32 dl')).bgCount (A.BGn_CNT_OVLP b)
    else
      let s3 := { s2 with tasks := s2.tasks ++ [newTask ch t dl cause part] }
      (s3.wr (ctxA ch 10) (BitVec.ofNat 32 dl)).bgDepth b

/-- An event on line `k` of unit `u` at DT `t` releases the tasks of the channels that select it (R111, R145). -/
def taskLine (s : State) (u k t : Nat) : State :=
  forUpTo 64 (fun ch s =>
    let w := s.ctx ch 2
    let hit : Bool := match bitsOf w 31 30 with
      | 1 => u == bitsOf w 29 26
      | 2 => u == 16 + 4 * bitsOf w 29 26
      | _ => false
    if hit && bitOf w 20 && bitsOf w 19 18 == k then s.releaseTask ch t 4 false else s) s

end State

/-- ITERATION_BOUNDARY. -/
def execIterationBoundary (ch : Fin 64) (s : State) : Out := .next (s.iterBoundary ch)

/-- A write of BG_PPORT_DATA (R164): queued for the channel and word of the requester's BG_PPORT_ADDR; the host's and the
lamplighter's are ignored. -/
def writePport (m : Master) (v : Word) (s : State) : State :=
  match m with
  | .host | .lamp => s
  | _ =>
    let a := s.getLatch m A.BG_PPORT_ADDR
    let ch := bitsOf a 13 8
    if 64 ≤ (s.pport.filter (fun p => p.ch / 16 == ch / 16)).length then s.setFlag A.BG_PPORT_STAT 31 true
    else { s with pport := s.pport ++ [(⟨ch, bitsOf a 7 0, v, 0xFFFFFFFF, s.dtC, none, s.dtC⟩ : PWrite)] }

/-- PPORT_DATA. -/
def execPportData (m : Master) (v : Word) (s : State) : Out := .next (writePport m v s)

/-- A delivered window result of sense channel `sn` reaches channel `ch` (R144, R145). -/
def deliverResult (ch sn : Nat) (r : Slot) (s : State) : State :=
  let hits := (List.range 6).filter (fun j => s.slotByte ch j == 128 + sn)
  let s0 := s.setRes ch sn r
  let s1 := if hits = [] then s0 else s0.noteTask ch (fun h => { h with got := hits.foldl (fun m j => m ||| 2 ^ j) h.got })
  let gate := bitsOf (s.ctx ch 4) 21 16
  let m := s.chMode ch
  -- in OFF, HOLD and SAFE the result is stored and no gather opens (R146, assumption 110)
  if m = 0 ∨ m = 3 ∨ 5 ≤ m then s1
  else if gate = 0 then s1.releaseTask ch s.dtC 1 false
  else
    let got := hits.foldl (fun m j => if gate.testBit j then m ||| 2 ^ j else m) 0
    if got = 0 then s1
    else
      let have_ := match s.getGather ch with
        | some g => g.got
        | none => 0
      let opened := match s.getGather ch with
        | some g => g.opened
        | none => s.dtC
      let s2 := if have_ &&& got = 0 then s1 else s1.bgCount (A.BGn_CNT_OVLP (s.bogieOf ch))
      let all := have_ ||| got
      if all &&& gate = gate then (s2.setGather ch none).releaseTask ch s.dtC 1 false
      else s2.setGather ch (some ⟨opened, all⟩)

/-- RESULT_DELIVERY: the oldest delivered result on the link reaches the bogie block. -/
def execResultDelivery (s : State) : Out :=
  match takeHead (fun m => match m with | .result lc sn r => some (lc, sn, r) | _ => none) s.toControl with
  | some ((lc, sn, r), rest) => .next (deliverResult lc sn r { s with toControl := rest })
  | none => .next s

/-- GATHER_TIMEOUT (R145): GATHERTO ns after it opened, a gather releases a task with PARTIAL. -/
def execGatherTimeout (ch : Fin 64) (s : State) : Out :=
  let g2 := bitsOf (s.ctx ch 6) 31 16
  match s.getGather ch with
  | some g =>
    if g2 ≠ 0 ∧ g.opened + g2 ≤ s.dtC then
      let s1 := (s.setGather ch none).releaseTask ch (g.opened + g2) 2 true
      let und := bitsOf (s.ctx ch 4) 21 16 &&& (63 - g.got &&& 63)
      .next { s1 with tasks := s1.tasks.map (fun k => if k.ch == ch.val && k.st == .queued then { k with und := und } else k) }
    else .next s
  | none => .next s

end Sys2Proof.Machine
end

