-- ==== Sys2Proof/Machine/Counters.lean ====
section
/-!
DEFINITION. General counters TC00–TC31 (R346–R363), but for the global start, which also starts PWM units.
-/
namespace Sys2Proof.Machine

namespace State

def tcEn (s : State) (n : Nat) : Bool := s.flag (A.TC_CTL n) 31
def tcOneShot (s : State) (n : Nat) : Bool := s.flag (A.TC_CTL n) 29
def tcSrc (s : State) (n : Nat) : Nat := s.fld (A.TC_CTL n) 28 27
def tcCnt (s : State) (n : Nat) : Nat := s.num (A.TC_CNT n)
def tcService (s : State) : Bool := s.flag A.TC_MODE 0

/-- Count `v` of counter `n`; LIVE shows the same (R360). -/
def tcSetCnt (s : State) (n v : Nat) : State :=
  (s.wr (A.TC_CNT n) (BitVec.ofNat 32 v)).wr (A.TC_LIVE n) (BitVec.ofNat 32 v)

/-- This instant is an edge of the field clock, which runs at 4 ns (R5, R346, R359) unless it is lost (R412). -/
def fclkEdge (s : State) : Bool := s.dtF % 4 == 0 && ! s.fieldClkLost

/-- Waiting for a global start (R359). -/
def tcWaiting (s : State) (n : Nat) : Bool := s.tcEn n && s.flag (A.TC_CTL n) 30 && ! (s.getTc n).started

/-- The counter runs but for its gate: enabled, armed in ONE-SHOT, and started (R350, R359). -/
def tcReady (s : State) (n : Nat) : Bool := s.tcEn n && (! s.tcOneShot n || s.flag (A.TC_STAT n) 30) && ! s.tcWaiting n

/-- The counter takes count edges (R349, R350): it is ready and its gate is open. A gate sourced from a counter follows that
counter's RUN and is closed in service (R358); `fuel` bounds the gates in a row, and a ring of them takes the RUN last
shown. -/
def tcRunF : Nat → Nat → State → Bool
  | 0, n, s => s.flag (A.TC_STAT n) 31
  | fuel + 1, n, s =>
    let g := s.rd (A.TC_GATE n)
    s.tcReady n &&
      (if ! bitOf g 31 then true
       else if ! bitOf g 29 then (s.getTc n).pins.getLsbD (bitsOf g 13 8) == bitOf g 30
       else ! s.tcService && tcRunF fuel (bitsOf g 4 0) s == bitOf g 30)

/-- STAT.RUN of counter `n`. -/
def tcRunning (s : State) (n : Nat) : Bool := tcRunF 32 n s

/-- STAT.CFGERR: invalid SRC, EDGE, chain or source field (R346–R348, R362). -/
def tcBad (s : State) (n : Nat) : Bool :=
  let c := s.rd (A.TC_CTL n)
  let t := s.rd (A.TC_TRG n)
  let g := s.rd (A.TC_GATE n)
  let l := s.rd (A.TC_LINK n)
  bitsOf c 28 27 == 3 || bitsOf c 26 25 == 3 || (bitsOf c 28 27 == 2 && n % 4 == 0)
    || (bitOf t 31 && (decide (3 ≤ bitsOf t 30 28) || (bitsOf t 30 28 == 0 && decide (48 ≤ bitsOf t 23 18))
        || (bitsOf t 30 28 == 1 && bitsOf t 25 24 == 3) || (bitsOf t 30 28 == 2 && bitsOf t 4 0 == n)))
    || (bitOf g 31 && bitOf g 29 && bitsOf g 4 0 == n)
    || (bitOf l 31 && (decide (2 ≤ bitsOf l 30 29) || bitsOf l 4 0 == n))

/-- RUN, GWAIT and CFGERR follow the configuration. -/
def tcRefresh (s : State) (n : Nat) : State :=
  ((s.setFlag (A.TC_STAT n) 31 (s.tcRunning n)).setFlag (A.TC_STAT n) 29 (s.tcWaiting n)).setFlag (A.TC_STAT n) 19 (s.tcBad n)

/-- A counter's interrupt cause: vector 144 + n when enabled (R362), which is wake source 11 too (R436). -/
def tcCause (s : State) (n bit : Nat) : State := if s.flag (A.TC_IRQEN n) bit then (s.raiseVec (144 + n)).wakeSource 11 else s

/-- An event of counter `n` is seen by its slaves at the next field-clock edge (R357): 0 OVF, 1 DONE, 2 M0, 3 M1, and 4
for TEV. -/
def tcEvent (s : State) (n e : Nat) : State :=
  forUpTo 32 (fun m t =>
    let l := t.rd (A.TC_LINK m)
    let g := t.rd (A.TC_TRG m)
    let h := t.getTc m
    if e < 4 then
      if bitOf l 31 && ! bitOf l 30 && bitsOf l 4 0 == n && bitsOf l 28 27 == e && m != n then
        t.setTc m { h with ev := h.ev ||| 1, evAt := if h.ev = 0 then s.dtF else h.evAt } else t
    else if bitOf g 31 && bitsOf g 30 28 == 2 && bitsOf g 4 0 == n && m != n then
      t.setTc m { h with ev := h.ev ||| 2, evAt := if h.ev = 0 then s.dtF else h.evAt }
    else t) s

/-- COMPARE_MATCH (R354): STAT.Mk, the pin action and TEV of compare `k`. -/
def tcMatch (s : State) (n k : Nat) : State :=
  let a := s.rd (A.TC_ACT n)
  let pact := if k = 0 then bitsOf a 15 14 else bitsOf a 31 30
  let pin := if k = 0 then bitsOf a 13 8 else bitsOf a 29 24
  let trg := if k = 0 then bitOf a 7 else bitOf a 23
  let s1 := ((s.setFlag (A.TC_STAT n) (26 - k) true).tcCause n k).tcEvent n (2 + k)
  let s2 := match pact with
    | 1 => s1.driveGpa pin 1
    | 2 => s1.driveGpa pin 0
    | 3 => s1.driveGpa pin 2
    | _ => s1
  if trg then s2.tcEvent n 4 else s2

/-- Both compares against the count that a count edge has left (R354, R356); in ONE-SHOT a compare of 0 never matches. -/
def tcMatches (s : State) (n : Nat) : State :=
  let c := s.tcCnt n
  if s.tcOneShot n ∧ c = 0 then s
  else
    let s1 := if s.num (A.TC_CMP0 n) = c then s.tcMatch n 0 else s
    if s.num (A.TC_CMP1 n) = c then s1.tcMatch n 1 else s1

/-- STAT.OVF with its cause (R350). -/
def tcOvf (s : State) (n : Nat) : State := (s.setFlag (A.TC_STAT n) 27 true).tcCause n 2

/-- One count edge of counter `n` (R350): its state after it, and whether the overflow event was raised. -/
def tcAdvance (s : State) (n : Nat) : State × Bool :=
  let c := s.tcCnt n
  if s.tcOneShot n then
    let c' := (c + 1) % 2 ^ 32
    let s1 := s.tcSetCnt n c'
    let s2 := if c' = 0 then s1.tcOvf n else s1
    let s3 :=
      if c' = s.num (A.TC_END n) then
        (((s2.setFlag (A.TC_STAT n) 30 false).setFlag (A.TC_STAT n) 28 true).tcCause n 3).tcEvent n 1
      else s2
    ((s3.tcMatches n).tcRefresh n, false)
  else if c = s.num (A.TC_RELOAD n) ∨ c = 2 ^ 32 - 1 then
    (((((s.tcSetCnt n 0).tcOvf n).tcEvent n 0).tcMatches n).tcRefresh n, true)
  else (((s.tcSetCnt n (c + 1)).tcMatches n).tcRefresh n, false)

/-- A CLOCK link takes the place of the source of counter `n` (R357). -/
def tcClocked (s : State) (n : Nat) : Bool := s.flag (A.TC_LINK n) 31 && s.fld (A.TC_LINK n) 30 29 == 1

/-- A count edge at counter `n`, discarded unless it runs, with the carry through its chain at the same edge (R348,
R349); `fuel` bounds the words above. -/
def tcEdge : Nat → Nat → State → State
  | 0, _, s => s
  | fuel + 1, n, s =>
    if ! s.tcRunning n then
      -- a gate that a link would have opened is ignored in service (R358)
      if s.tcService && s.tcReady n && s.flag (A.TC_GATE n) 31 && s.flag (A.TC_GATE n) 29
          && tcRunF 31 (s.fld (A.TC_GATE n) 4 0) s == s.flag (A.TC_GATE n) 30 then s.setFlag (A.TC_STAT n) 20 true else s
    else
      let r := s.tcAdvance n
      if r.2 ∧ (n + 1) % 4 ≠ 0 ∧ r.1.tcSrc (n + 1) = 2 ∧ ! r.1.tcClocked (n + 1) then tcEdge fuel (n + 1) r.1 else r.1

/-- The low word of the chain that `n` belongs to (R348). -/
def tcLow (s : State) (n : Nat) : Nat :=
  let d1 := if n % 4 ≠ 0 ∧ s.tcSrc n = 2 then n - 1 else n
  let d2 := if d1 ≠ n ∧ d1 % 4 ≠ 0 ∧ s.tcSrc d1 = 2 then d1 - 1 else d1
  if d2 ≠ d1 ∧ d2 % 4 ≠ 0 ∧ s.tcSrc d2 = 2 then d2 - 1 else d2

/-- The members of the chain above its low word `n`, in rising order (R348). -/
def tcUpper (s : State) (n : Nat) : List Nat :=
  let top := 4 * (n / 4) + 4
  ((List.range (top - (n + 1))).map (· + (n + 1))).takeWhile (fun m => s.tcSrc m == 2)

/-- ARM (R351). -/
def tcArm (s : State) (n : Nat) : State :=
  let h := s.getTc n
  let s0 := (s.tcSetCnt n 0).setTc n { h with presc := 0 }
  if ! s.tcOneShot n then s0.tcRefresh n
  else
    let rearm := s.flag (A.TC_STAT n) 30 && s.tcRunning n
    let s1 := if rearm then s0.setFlag (A.TC_STAT n) 22 true else s0
    if s.num (A.TC_END n) = 0 then
      (((s1.setFlag (A.TC_STAT n) 28 true).setFlag (A.TC_STAT n) 30 false).tcCause n 3).tcRefresh n
    else ((s1.setFlag (A.TC_STAT n) 28 false).setFlag (A.TC_STAT n) 30 true).tcRefresh n

/-- RESTART (R352). -/
def tcRestart (s : State) (n : Nat) : State := (s.tcSetCnt n 0).setTc n { s.getTc n with presc := 0 }

/-- CAPTURE (R352): every member of the chain, CAPEV at the counter that received it. -/
def tcCapture (s : State) (n : Nat) : State :=
  let lo := s.tcLow n
  let s1 := forEach (lo :: s.tcUpper lo) (fun m t => t.wr (A.TC_CAP m) (s.rd (A.TC_CNT m))) s
  (s1.setFlag (A.TC_STAT n) 23 true).tcCause n 5

/-- STOP (R352): clears EN. -/
def tcStop (s : State) (n : Nat) : State := (s.setFlag (A.TC_CTL n) 31 false).tcRefresh n

/-- TRG.ACT of counter `n` (R352, R362). -/
def tcAct (s : State) (n : Nat) : State :=
  match s.fld (A.TC_TRG n) 27 26 with
  | 0 => s.tcArm n
  | 1 => s.tcRestart n
  | 2 => s.tcCapture n
  | _ => s.tcStop n

/-- An event on line `k` of unit `u` is a hardware trigger of the counters that select it (R111, R352). -/
def tcLine (s : State) (u k : Nat) : State :=
  forUpTo 32 (fun n t =>
    let g := t.rd (A.TC_TRG n)
    if bitOf g 31 && bitsOf g 30 28 == 0 && bitsOf g 23 18 == u && bitsOf g 17 16 == k then
      t.setTc n { t.getTc n with trig := (t.getTc n).trig + 1 } else t) s

/-- An edge selection (R347): 0 rising, 1 falling, 2 both. -/
def edgeSel (sel : Nat) (lvl : Bool) : Bool := (sel == 0 && lvl) || (sel == 1 && ! lvl) || sel == 2

end State

/-- COUNT_EDGE: a field-clock edge at counter `n` with the field clock as its source, once at each edge (R346): every (PRESC + 1)th is a
count edge; a closed gate holds the prescaler (R349), and a CLOCK link takes the place of the source (R357). -/
def execCountEdge (n : Fin 32) (s : State) : Out :=
  if s.tcSrc n ≠ 0 ∨ s.tcClocked n ∨ ! s.fclkEdge ∨ (s.getTc n).clkAt = some s.dtF then .next s
  else if ! s.tcRunning n then .next ((s.setTc n { s.getTc n with clkAt := some s.dtF }).tcEdge 4 n)
  else
    let h := { s.getTc n with clkAt := some s.dtF }
    if h.presc < s.fld (A.TC_CTL n) 23 16 then .next (s.setTc n { h with presc := h.presc + 1 })
    else .next ((s.setTc n { h with presc := 0 }).tcEdge 4 n)

/-- TC_PIN_EDGE: the field-clock sample shows `ps` at GPA pin `p`, which counter `n` sees through its filter (R346, R347, R349,
R352). -/
def execTcPinEdge (n : Fin 32) (p : Fin 64) (ps : PinSample) (s : State) : Out :=
  let c := s.rd (A.TC_CTL n)
  let g := s.rd (A.TC_TRG n)
  let h := s.getTc n
  let onPin := bitsOf c 13 8 == p.val
  let onTrg := bitsOf g 13 8 == p.val
  let old := h.pins.getLsbD p
  let lvl := ps.filtered (bitsOf c 7 0) old
  let bit : BitVec 64 := 1#64 <<< p.val
  let s1 := s.setTc n { h with pins := if lvl then h.pins ||| bit else h.pins &&& ~~~bit }
  let s2 := if onPin && old != lvl && bitsOf c 28 27 == 1 && State.edgeSel (bitsOf c 26 25) lvl
      && ! s.tcClocked n then s1.tcEdge 4 n else s1
  let s3 := if onTrg && old != lvl && bitOf g 31 && bitsOf g 30 28 == 1 && State.edgeSel (bitsOf g 25 24) lvl then
      s2.tcAct n else s2
  if ! s.fclkEdge ∨ old = lvl then .next s else .next (s3.tcRefresh n)

/-- LINK_ACTION: from the field-clock edge after them on, the master events that wait at slave `n` act, or are ignored in service (R357, R358). -/
def execLinkAction (n : Fin 32) (s : State) : Out :=
  let h := s.getTc n
  if h.ev = 0 ∨ s.dtF / 4 ≤ h.evAt / 4 then .next s
  else
    let s0 := s.setTc n { h with ev := 0 }
    if s.tcService then .next (s0.setFlag (A.TC_STAT n) 20 true)
    else
      let s1 :=
        if h.ev.testBit 0 then
          if s.fld (A.TC_LINK n) 30 29 = 0 then s0.tcSetCnt n 0
          else if s.fld (A.TC_LINK n) 30 29 = 1 then s0.tcEdge 4 n else s0
        else s0
      .next (if h.ev.testBit 1 then s1.tcAct n else s1)

/-- A write of TCnn_CTL (R353): MODE and SRC change only while EN reads 0. -/
def writeTcCtl (n : Nat) (v : Word) (s : State) : State :=
  let old := s.rd (A.TC_CTL n)
  let new := applyWrite (fieldsAt (A.TC_CTL n)) s.locked old v 0 0
  let guarded : Word := 0x38000000
  let en := bitOf old 31
  let kept := if en then (new &&& ~~~ guarded) ||| (old &&& guarded) else new
  let h := s.getTc n
  let s1 := s.wr (A.TC_CTL n) kept
  let s2 := if en ∧ new &&& guarded ≠ old &&& guarded then s1.setFlag (A.TC_STAT n) 21 true else s1
  let s3 := if ! en ∧ bitOf new 31 then s2.setTc n { h with presc := 0, started := false } else s2
  s3.tcRefresh n

/-- A write of CNT, which changes only while EN reads 0 (R353). -/
def writeTcCnt (n : Nat) (v : Word) (s : State) : State :=
  if s.tcEn n then s.setFlag (A.TC_STAT n) 21 true else s.tcSetCnt n v.toNat

/-- A write of CMPk (R355): with CMPLATE a value at or below the count matches in the next field-clock cycle. -/
def writeTcCmp (n k : Nat) (v : Word) (s : State) : State :=
  let h := s.getTc n
  let s1 := s.wr (if k = 0 then A.TC_CMP0 n else A.TC_CMP1 n) v
  if s.flag (A.TC_CTL n) 24 ∧ v.toNat ≤ s.tcCnt n then s1.setTc n { h with late := h.late ||| 2 ^ k, lateAt := s.dtF } else s1

/-- TC_CMP_WRITE. -/
def execTcCmpWrite (n : Fin 32) (k : Fin 2) (v : Word) (s : State) : Out := .next (writeTcCmp n k v s)

/-- LATE_MATCH (R355): a compare written at or below the count matches in the next field-clock cycle, without a count edge. -/
def execLateMatch (n : Fin 32) (k : Fin 2) (s : State) : Out :=
  let h := s.getTc n
  if h.late.testBit k ∧ h.lateAt / 4 < s.dtF / 4 then
    .next ((((s.setTc n { h with late := h.late &&& (3 - 2 ^ k.val) }).setFlag (A.TC_STAT n) 24 true).tcCause n 4).tcMatch n k)
  else .next s

/-- A write of TC_GSTART (R359): the first field-clock edge 20 ns or more later. -/
def writeTcGstart (v : Word) (s : State) : State :=
  if bitOf v 0 then { s with gstart := some (ceilDiv (s.dtF + 20) 4 * 4) } else s

/-- TC_GSTART. -/
def execTcGstart (v : Word) (s : State) : Out := .next (writeTcGstart v s)

/-- A read of CNT or CAP of counter `n` (R360): a low word latches the words above it for the requester, an upper word
returns the requester's latch. -/
def readTcCnt (m : Master) (n : Nat) (cap : Bool) (s : State) : Word × State :=
  let a := fun k => if cap then A.TC_CAP k else A.TC_CNT k
  if s.tcLow n = n then (s.rd (a n), forEach (s.tcUpper n) (fun k t => t.setLatch m (a k) (s.rd (a k))) s)
  else (s.getLatch m (a n), s)

/-- TC_CNT_READ. -/
def execTcCntRead (m : Master) (n : Fin 32) (cap : Bool) (s : State) : Out :=
  let r := readTcCnt m n cap s
  .next (r.2.setData m r.1)

/-- The counter part of a global start (R359): a selected counter that waits loads 0, is armed in ONE-SHOT, and starts. -/
def tcGlobalStart (n : Nat) (s : State) : State :=
  if ! (s.rd A.TC_GSTART_TC).getLsbD n then s
  else if s.tcWaiting n then
    let h := s.getTc n
    let s1 := (s.tcSetCnt n 0).setTc n { h with presc := 0, started := true }
    (if s.tcOneShot n then s1.tcArm n else s1).tcRefresh n
  else s.setFlag A.TC_GSTAT 30 true

end Sys2Proof.Machine
end

