-- ==== Sys2Proof/Machine/PwmBase.lean ====
section
/-!
DEFINITION. PWM units and general outputs: positions, commanded signals, outputs, event lines (R89–R96, R105–R117).
Unit 0–15 is PU00–PU15, unit 16–47 is GP00–GP31.  Positions count in the unit's tick, instants in EU.
-/
namespace Sys2Proof.Machine

/-- Base address of a unit's registers (R119, R120). -/
def uBase (u : Nat) : Nat := if u < 16 then 0x08200000 + u * 0x1000 else 0x08210000 + (u - 16) * 0x100
def uCtl (u : Nat) : Nat := uBase u
def uStat (u : Nat) : Nat := uBase u + 4
def uSetReq (u : Nat) : Nat := uBase u + 0xC
def uPerEff (u : Nat) : Nat := uBase u + 0x14
def uPera (u : Nat) : Nat := uBase u + 0x18
def uIrqEn (u : Nat) : Nat := uBase u + 0x1C
/-- Pending set register `b` and its active copy. -/
def uSet (u b : Nat) : Nat := uBase u + 0x20 + 4 * b
def uAct (u b : Nat) : Nat := uBase u + (if u < 16 then 0x120 else 0xA0) + 4 * b
def uWmark (u : Nat) : Nat := uBase u + (if u < 16 then 0x64 else 0x3C)
def uEvCfg (u k : Nat) : Nat := uBase u + (if u < 16 then 0xA0 else 0x40) + 4 * k
/-- Registers in the set; index of MINP, OUTCTL and TRG0 in it (R119, R120). -/
def uSetLen (u : Nat) : Nat := if u < 16 then 17 else 7
def uMinpIx (u : Nat) : Nat := if u < 16 then 15 else 5
def uOutIx (u : Nat) : Nat := if u < 16 then 16 else 6
def uTrgIx (u : Nat) : Nat := if u < 16 then 7 else 3
/-- Pairs, outputs, and EU in one tick (R89, R114). -/
def uPairs (u : Nat) : Nat := if u < 16 then 3 else 1
def uOuts (u : Nat) : Nat := if u < 16 then 6 else 1
def uTick (u : Nat) : Nat := if u < 16 then 1 else 20
/-- The safe-state unit of a unit (R128). -/
def ssOf (u : Nat) : Nat := if u < 16 then u else 16 + (u - 16) / 4
/-- The units of a safe-state unit. -/
def unitsOf (su : Nat) : List Nat := if su < 16 then [su] else (List.range 4).map (fun i => 16 + 4 * (su - 16) + i)

/-- The commanded signal at position `e` (R90): `mid` the start of the down half. -/
def signalAt (mode per mid cu cd e : Nat) : Bool :=
  match mode with
  | 0 => decide (e < cu)
  | 1 => decide (per ≤ e + cd)
  | _ => if e < mid then decide (e < ceilDiv cu 2) else decide (per ≤ e + ceilDiv cd 2)

namespace State

/-- The unit whose counter `u` runs on: GP(4g) for an output with SHARE (R115). -/
def owner (s : State) (u : Nat) : Nat :=
  if 16 ≤ u ∧ (u - 16) % 4 ≠ 0 ∧ s.flag (uCtl u) 16 then u - (u - 16) % 4 else u

/-- The units that run on the counter of `u`. -/
def sharers (s : State) (u : Nat) : List Nat :=
  if s.owner u ≠ u then []
  else if 16 ≤ u ∧ (u - 16) % 4 = 0 then u :: ([u + 1, u + 2, u + 3].filter (fun v => s.owner v == u)) else [u]

def uMode (s : State) (u : Nat) : Nat := s.fld (uCtl (s.owner u)) 29 28
def uAngle (s : State) (u : Nat) : Bool := s.flag (uCtl (s.owner u)) 27
/-- STAT.RUN: the counter that drives the unit runs (R92, R115). -/
def uRun (s : State) (u : Nat) : Bool := s.flag (uStat u) 31
def uHid (s : State) (u : Nat) : PuHid := s.getPu (s.owner u)

/-- Position at instant `t`, held at the end of a computed period that no boundary has ended yet (R89, R95). -/
def uPos (s : State) (u t : Nat) : Nat :=
  let h := s.uHid u
  min ((t - h.t0) / uTick u) (h.per - 1)

/-- A compare of the active set, scaled in angle mode (R94). -/
def uCmp (s : State) (u b : Nat) : Nat :=
  let v := s.num (uAct u b)
  let h := s.uHid u
  let ref := s.num (uAct (s.owner u) 0)
  if s.uAngle u ∧ h.scaled ∧ ref ≠ 0 then (roundDiv (v * h.per : Nat) ref).toNat else v

def uCmpU (s : State) (u x : Nat) : Nat := s.uCmp u (1 + 2 * x)
def uCmpD (s : State) (u x : Nat) : Nat := s.uCmp u (2 + 2 * x)

/-- The commanded signal of pair `x` at position `e` of the running period. -/
def uSigAt (s : State) (u x e : Nat) : Bool :=
  let h := s.uHid u
  signalAt (s.uMode u) h.per h.eMid (s.uCmpU u x) (s.uCmpD u x) e

/-- Dead time before output `o` turns on: DTRx for xH, DTFx for xL; none at a GP output (R105, R114). -/
def uDead (s : State) (u o : Nat) : Nat := if u < 16 then s.fld (uAct u (9 + o)) 16 0 else 0

/-- OVR of output `o` in the active set (R110): 3 acts as 1. -/
def uOvr (s : State) (u o : Nat) : Nat :=
  let w := s.rd (uAct u (uOutIx u))
  let v := if u < 16 then bitsOf w (7 + 2 * o) (6 + 2 * o) else bitsOf w 2 1
  if v = 3 then 1 else v

def getOut (s : State) (u o : Nat) : OutSt := Sparse.get (fun _ => {}) (s.getPu u).outs o
def setOut (s : State) (u o : Nat) (v : OutSt) : State :=
  let h := s.getPu u
  s.setPu u { h with outs := Sparse.set (fun _ => {}) h.outs o v }

/-- POL of the outputs of `u` in the active set, a bit for each (R110). -/
def uPol (s : State) (u : Nat) : Nat := bitsOf (s.rd (uAct u (uOutIx u))) (if u < 16 then 5 else 0) 0

/-- The pin of output `o` is high: its level while the switch is on or off follows POL (R110); in Shed FD_IO holds the off
level under the POL of the last active set (R433). -/
def pinHigh (s : State) (u o : Nat) : Bool :=
  if s.fld A.PW_STAT 31 29 = 4 then (Sparse.get (fun _ => 0) s.pw.heldPol u).testBit o
  else (s.getOut u o).on != (s.uPol u).testBit o

/-- The other output of a pair. -/
def partner (o : Nat) : Nat := if o % 2 = 0 then o + 1 else o - 1

/-! ### Interrupts and event lines (R111–R113, R117) -/

/-- Cause `bit` of a unit's interrupt lines. -/
def uCause (s : State) (u bit : Nat) : State :=
  if u < 16 then
    let s1 := if s.flag (uIrqEn u) bit then s.raiseVec (112 + 2 * u) else s
    if s.flag (uIrqEn u) (16 + bit) then s1.raiseVec (113 + 2 * u) else s1
  else if s.flag (uIrqEn u) bit then
    (s.setFlag A.GP_IRQSRC (u - 16) true).raiseVec (113 + 2 * ((u - 16) / 2))
  else s

/-- EVENT_LINE (R111, R112): line `k` of `u` fires at instant `t` towards windows, tasks, counters and its causes. -/
def fireLine (s : State) (u k t : Nat) : State :=
  (((s.winLine u k t).taskLine u k (t / euPerNs)).tcLine u k).uCause u k

/-- A source event of unit `u` at instant `t`; `half` is 1 in the up half, 2 in the down half, 0 where DIRSEL does not
restrict it (R111): a line fires on every (PRESC + 1)th one. -/
def unitEvent (s : State) (u src half t : Nat) : State :=
  forUpTo 4 (fun k s =>
    let w := s.rd (uEvCfg u k)
    let dir := bitsOf w 30 29
    let ok := bitOf w 31 && bitsOf w 3 0 == src && (dir == 0 || half == 0 || dir == half || s.uMode u != 2) && dir != 3
    if ! ok then s
    else
      let h := s.getPu u
      let c := Sparse.get (fun _ => 0) h.evCnt k + 1
      if bitsOf w 11 8 + 1 ≤ c then
        (s.setPu u { h with evCnt := Sparse.set (fun _ => 0) h.evCnt k 0 }).fireLine u k t
      else s.setPu u { h with evCnt := Sparse.set (fun _ => 0) h.evCnt k c }) s

/-- Half of an UPDOWN period at position `e` (R111). -/
def uHalf (s : State) (u e : Nat) : Nat :=
  if s.uMode u = 2 then (if e < (s.uHid u).eMid then 1 else 2) else 0

/-! ### Outputs (R105–R110) -/

/-- The feedback of output `o` is used (R106). -/
def fbEn (s : State) (u o : Nat) : Bool := u < 16 && s.flag (A.PU_SFCFG u) o
def fbOn (s : State) (u o : Nat) : Bool := s.flag (A.PU_SFSTAT u) o

/-- A disagreement between feedback and commanded state begins, goes on or ends (R107). -/
def fbTrack (s : State) (u o t : Nat) : State :=
  if ! s.fbEn u o then s
  else
    let v := s.getOut u o
    if v.on = s.fbOn u o then
      let s1 := s.setOut u o { v with disSince := none, disRep := false }
      if (List.range 6).any (fun i => (s1.getOut u i).disRep) then s1 else s1.setActive 0x61 u false
    else if v.disSince.isSome then s
    else s.setOut u o { v with disSince := some t }

/-- Output `o` turns off at `t` (R105, R106); a turn-on that was due does not occur. -/
def outOff (s : State) (u o t : Nat) : State :=
  let v := s.getOut u o
  if v.on then
    (s.setOut u o { v with on := false, offAt := t, due := none, moved := false, minpEnd := none, minUntil := none, forced := false,
                           measFrom := if s.fbEn u o then some t else none }).fbTrack u o t
  else s.setOut u o { v with due := none, moved := false, forced := false }

/-- Output `o` turns on at `t`. -/
def outOn (s : State) (u o t : Nat) : State :=
  let v := s.getOut u o
  (s.setOut u o { v with on := true, onAt := t, due := none, moved := false }).fbTrack u o t

/-- STAT.MINPEV with its cause (R109, R113). -/
def minpEvent (s : State) (u : Nat) : State := (s.setFlag (uStat u) 20 true).uCause u 10

/-- The next position after `e` at which the signal of pair `x` differs from its present state, in this period or the
next one of the same shape, in ticks from the period's start (R109). -/
def nextChange (s : State) (u x e : Nat) : Option Nat :=
  let h := s.uHid u
  let mode := s.uMode u
  let cu := s.uCmpU u x
  let cd := s.uCmpD u x
  let now := s.uSigAt u x e
  let at_ := fun (p : Nat) =>
    if p < h.per then signalAt mode h.per h.eMid cu cd p else signalAt mode h.per (h.per / 2) cu cd (p - h.per)
  let cand := [cu, h.per - cd, ceilDiv cu 2, h.eMid, h.per - ceilDiv cd 2]
  let all := cand ++ [h.per] ++ cand.map (· + h.per) ++ [h.per + h.per / 2]
  let hits := all.filter (fun p => decide (e < p) && at_ p != now)
  hits.foldl (fun (m : Option Nat) p => match m with
    | none => some p
    | some q => some (min q p)) none

/-- A turn-on of output `o` is due at `t` (R109): the minimum-pulse rule tests the pulses of the commanded signal, then the
output turns on; an extending unit will keep it on for MINP. -/
def outTurnOn (s : State) (u o t : Nat) : State :=
  let minp := s.fld (uAct u (uMinpIx u)) 19 0
  let v := s.getOut u o
  let h := s.uHid u
  if minp = 0 ∨ s.uOvr u o ≠ 0 ∨ v.forced then s.outOn u o t
  else
    let short : Bool := match s.nextChange u (o / 2) (s.uPos u t) with
      | some p => decide (h.t0 + p * uTick u - t < minp * uTick u)
      | none => false
    if short && (v.moved || ! s.flag (uCtl u) 20) then
      (s.setOut u o { v with due := none, moved := false }).minpEvent u
    else
      let s1 := s.setOut u o { v with minUntil := if s.flag (uCtl u) 20 then some (t + minp * uTick u) else none }
      s1.outOn u o t

/-- The commanded state of output `o` under signal `sig` and the overrides of the active set (R90, R110). -/
def outWant (s : State) (u o : Nat) (sig : Bool) : Bool :=
  if ! s.uRun u then false
  else
    let v := s.uOvr u o
    let p := if u < 16 then s.uOvr u (partner o) else 0
    if v = 2 then p ≠ 2
    else if v = 1 then false
    else if p = 2 then false
    else if o % 2 = 0 then sig else ! sig

/-- The commanded signal of pair `x` that the unit holds. -/
def uSig (s : State) (u x : Nat) : Bool := (s.getPu u).sig.testBit x

/-- Output `o` follows the active set from `t` on; a turn-on passes through dead time counted from the partner's actual
turn-off (R110, R133), and the minimum-pulse rule tests it unless it is `forced` (R109). A dead time that runs completes as
it is (R104), and so does a pulse that R109 extends. -/
def outFollow (s : State) (u t : Nat) (forced : Bool) (o : Nat) : State :=
  let want := s.outWant u o (s.uSig u (o / 2))
  let v := s.getOut u o
  if want then
    if v.on ∨ v.due.isSome then s
    else
    let p := s.getOut u (partner o)
    let due := if u < 16 then max t (p.offAt + s.uDead u o) else t
    let s1 := s.setOut u o { v with forced := forced }
    if due ≤ t ∧ ! p.on then s1.outTurnOn u o t else s1.setOut u o { v with due := some due, forced := forced }
  else if v.on ∧ v.minpEnd.isSome ∧ s.uRun u ∧ s.uOvr u o = 0 ∧ ! (u < 16 ∧ s.uOvr u (partner o) = 2) then s
  else s.outOff u o t

/-- Every output of a pair that must turn off does so before one turns on. -/
def outsFollow (s : State) (u t : Nat) (forced : Bool) (os : List Nat) : State :=
  let offs := os.filter (fun o => ! s.outWant u o (s.uSig u (o / 2)))
  let ons := os.filter (fun o => s.outWant u o (s.uSig u (o / 2)))
  let s1 := forEach offs (fun o t' => t'.outFollow u t forced o) s
  let s2 := forEach ons (fun o t' => t'.outFollow u t forced o) s1
  let both := (List.range 3).any (fun x => u < 16 && s2.uOvr u (2 * x) == 2 && s2.uOvr u (2 * x + 1) == 2)
  if both then s2.setFlag (uStat u) 19 true else s2

/-- The outputs follow the active set anew from `t` on, after a safe state (R133). -/
def outsResume (s : State) (u t : Nat) : State :=
  let s1 := forUpTo (uOuts u) (fun o t' => t'.setOut u o { t'.getOut u o with due := none, moved := false }) s
  s1.outsFollow u t true (List.range (uOuts u))

/-- The commanded signal of pair `x` changes to `sig` at `t` (R105, R109): the outgoing output turns off, or is extended
to MINP, and the incoming one becomes due after its dead time. -/
def signalEdge (s : State) (u x t : Nat) (sig : Bool) : State :=
  let h := s.getPu u
  let s0 := s.setPu u { h with sig := if sig then h.sig ||| 2 ^ x else h.sig &&& (7 - 2 ^ x) }
  if h.safe = 1 then s0
  else
    let inc := if sig then 2 * x else 2 * x + 1
    let out := if sig then 2 * x + 1 else 2 * x
    -- the outgoing output of a pair, or the single output of a GP
    let stop := if u < 16 then some out else if sig then none else some 0
    let ext : Option Nat := match stop with
      | some o =>
        let v := s0.getOut u o
        match v.minUntil with
        | some e => if v.on ∧ s0.uOvr u o = 0 ∧ t < e then some e else none
        | none => none
      | none => none
    let s1 := match stop with
      | none => s0
      | some o =>
        if s0.uOvr u o ≠ 0 then s0
        else match ext with
          | some e => (s0.setOut u o { s0.getOut u o with minpEnd := some e }).minpEvent u
          | none => s0.outOff u o t
    let start := if u < 16 then some inc else if sig then some 0 else none
    match start with
    | none => s1
    | some o =>
      let v := s1.getOut u o
      if ! s1.outWant u o sig then s1
      else if v.on then s1.setOut u o { v with minpEnd := none }
      else
        let due := (match ext with | some e => e | none => t) + s1.uDead u o
        let s2 := s1.setOut u o { v with due := some due, moved := ext.isSome, forced := false }
        if due ≤ t then s2.outTurnOn u o t else s2

/-- The signals of unit `u` are taken anew at instant `t`; an edge that a compare causes is an event of its lines when
`cmpEv` (R90, R111). -/
def evalSignals (s : State) (u t : Nat) (cmpEv : Bool) : State :=
  if ! s.uRun u then s
  else
    forUpTo (uPairs u) (fun x s =>
      let e := s.uPos u t
      let sig := s.uSigAt u x e
      if sig = s.uSig u x then s
      else
        let s1 := s.signalEdge u x t sig
        if cmpEv then
          let half := s.uHalf u e
          let src := match s.uMode u with
            | 0 => 3 + 2 * x
            | 1 => 4 + 2 * x
            | _ => if half = 1 then 3 + 2 * x else 4 + 2 * x
          s1.unitEvent u src half t
        else s1) s

end State

end Sys2Proof.Machine
end

