-- ==== Sys2Proof/Machine/PwmSets.lean ====
section
/-!
DEFINITION. Pending, sealed and active sets, seals, transfers, DT_AUTO and the reshaping of a running period
(R91, R97–R104, R108).
-/
namespace Sys2Proof.Machine

/-- The whole set register mask of a unit (R119, R120). -/
def setMask (u : Nat) : Nat := 2 ^ uSetLen u - 1

/-- The 20 ns update guard in EU (R101). -/
abbrev guardEu : Nat := 400

namespace State

/-- The pending set of a unit. -/
def pendingSet (s : State) (u : Nat) : List Word := (List.range (uSetLen u)).map (fun b => s.rd (uSet u b))

/-- A set is valid (R91, R114, R115). -/
def setValid (s : State) (u : Nat) (ws : List Word) : Bool :=
  let at_ := fun b => ws.getD b 0
  let per := (at_ 0).toNat
  if u < 16 then
    decide (2000 ≤ per) && (List.range 6).all (fun i => decide (bitsOf (at_ (9 + i)) 16 0 ≤ 102000))
  else decide (100 ≤ per) || s.owner u != u

/-- The active set of a unit. -/
def activeSet (s : State) (u : Nat) : List Word := (List.range (uSetLen u)).map (fun b => s.rd (uAct u b))

/-! ### DT_AUTO (R108) -/

/-- DTAUTO governs pair `x`: its bit is set and both outputs have feedback. -/
def dtAuto (s : State) (u x : Nat) : Bool :=
  u < 16 && s.flag (uCtl u) (17 + x) && s.fbEn u (2 * x) && s.fbEn u (2 * x + 1)

/-- PROP_xy of output `o`. -/
def propA (u o : Nat) : Nat := A.PU_PROP_AH u + 4 * o

/-- The measured dead time before output `o` turns on, and whether it was clamped. -/
def dtMeasured (s : State) (u o : Nat) : Nat × Bool :=
  let out := propA u (partner o)
  let hi := s.fld (A.PU_DTA_MAX u) 16 0
  if s.fld out 31 24 < 8 then (hi, false)
  else
    let d := s.fld out 23 0 + s.fld (A.PU_DTA_MARGIN u) 16 0
    let c := clampN (s.fld (A.PU_DTA_MIN u) 16 0) hi d
    (c, c != d)

/-- The measured dead times in the active set. -/
def dtApply (s : State) (u : Nat) : State :=
  forUpTo 6 (fun o t => if t.dtAuto u (o / 2) then t.wr (uAct u (9 + o)) (BitVec.ofNat 32 (t.dtMeasured u o).1) else t) s

/-- The sealed dead times return to a pair that DTAUTO names and whose outputs no longer both have feedback (R108). -/
def dtRestore (s : State) (u : Nat) : State :=
  forUpTo 6 (fun o t =>
    if u < 16 ∧ t.flag (uCtl u) (17 + o / 2) ∧ ! t.dtAuto u (o / 2) then t.wr (uAct u (9 + o)) ((t.getPu u).sealedDt.getD o 0) else t) s

/-- DT_AUTO at a period boundary or middle: dead times, and F_DEADTIME_LIMIT for each pair that enters its clamp. -/
def dtAutoPoint (s : State) (u : Nat) : State :=
  if 16 ≤ u then s
  else
    let now := (List.range 3).foldl (fun m x =>
      if s.dtAuto u x && ((s.dtMeasured u (2 * x)).2 || (s.dtMeasured u (2 * x + 1)).2) then m ||| 2 ^ x else m) 0
    let h := s.getPu u
    let s1 := (s.dtApply u).setPu u { h with clamped := now }
    let s2 := s1.setActive 0x62 u (now != 0)
    forUpTo 3 (fun x t =>
      if now.testBit x ∧ ! h.clamped.testBit x then ((t.setFlag (uStat u) 22 true).uCause u 8).raiseF 0x62 u else t) s2

/-! ### Transfers (R98–R101, R104) -/

/-- A sealed set becomes the active set (R97); a pair under DT_AUTO keeps the measured dead times, which change at the
boundaries and middles alone (R104, R108). -/
def activate (s : State) (u : Nat) (x : SealedSet) : State :=
  let keeps := fun (b : Nat) => u < 16 && decide (9 ≤ b ∧ b < 15) && s.dtAuto u ((b - 9) / 2)
  let s1 := forUpTo (uSetLen u) (fun b t => if keeps b then t else t.wr (uAct u b) (x.words.getD b 0)) s
  (s1.setPu u { s1.getPu u with sealedDt := (x.words.drop 9).take 6 }).setFld (uStat u) 7 0 x.seq

/-- The sealed sets that `p` accepts transfer in order. -/
def transferSets (s : State) (u : Nat) (p : SealedSet → Bool) : State :=
  let q := (s.getPu u).sealQ
  let go := q.filter p
  let rest := q.filter (fun x => ! p x)
  if go.isEmpty then s
  else
    let s1 := s.setPu u { s.getPu u with sealQ := rest }
    (forEach go (fun x t => t.activate u x) s1).setFlag (uStat u) 29 (! rest.isEmpty)

/-- A set waits that `p` accepts. -/
def hasSet (s : State) (u : Nat) (p : SealedSet → Bool) : Bool := (s.getPu u).sealQ.any p

/-- The update point at instant `t` is one that the set takes (R100, R101): `mid` for a period middle. -/
def takesPoint (mid : Bool) (t : Nat) (x : SealedSet) : Bool :=
  (x.upd == 2 || x.upd == (if mid then 1 else 0)) && decide (x.at_ + guardEu ≤ t)

/-- The update point is passed over by a set sealed less than 20 ns before it (R101): LATE_SEAL. -/
def lateSeal (s : State) (u : Nat) (mid : Bool) (t : Nat) : State :=
  if (s.getPu u).sealQ.any (fun x =>
      (x.upd == 2 || x.upd == (if mid then 1 else 0)) && decide (x.at_ < t ∧ t < x.at_ + guardEu)) then
    (s.setFlag (uStat u) 27 true).uCause u 6
  else s

/-- A notice to the bogie block when a channel in STANDBY, RUN or RAMPDOWN binds the unit (R152): `b` and `p` in EU. -/
def sendNotice (s : State) (u b p : Nat) : State :=
  let su := ssOf u
  let bound := (List.range 64).any (fun ch =>
    s.chUnit ch == some su && (s.chMode ch == 1 || s.chMode ch == 2 || s.chMode ch == 4))
  if bound && (u < 16 || (u - 16) % 4 == 0) then
    s.sendC (.notice su ⟨b, p, s.uMode u, s.fld (uCtl u) 22 21⟩)
  else s

/-- OVR field of output `o` in an OUTCTL word of unit `u`. -/
def ovrField (u o : Nat) (w : Word) : Nat := if u < 16 then bitsOf w (7 + 2 * o) (6 + 2 * o) else bitsOf w 2 1

/-- What follows a transfer at `t`: the UPDATE event and cause (R111, R113), and the outputs of pairs whose override
changed (R110). -/
def afterTransfer (s : State) (u t : Nat) (oldOut : Word) : State :=
  let s1 := (s.unitEvent u 11 0 t).uCause u 4
  let new := s1.rd (uAct u (uOutIx u))
  let changed := fun (o : Nat) => ovrField u o oldOut != ovrField u o new
  if (s1.getPu u).safe = 1 then s1
  else
    let os := (List.range (uOuts u)).filter (fun o => changed o || (u < 16 && changed (partner o)))
    if os.isEmpty then s1 else s1.outsFollow u t true os

/-- The period length that time mode takes from the active set, bit 0 cleared in UPDOWN (R89). -/
def activePer (s : State) (u : Nat) : Nat :=
  let p := s.num (uAct u 0)
  if s.uMode u = 2 then p / 2 * 2 else p

/-- PEREFF and STAT.CDOWN of `u` and of the outputs that share its counter (R93, R115). DESIGN CHOICE (assumption 128): in a
period that a transfer reshaped PEREFF shows the length that it then has. -/
def showPer (s : State) (u p : Nat) : State :=
  forEach (s.sharers u) (fun v st => st.wr (uPerEff v) (BitVec.ofNat 32 p)) s
def showDown (s : State) (u : Nat) (down : Bool) : State :=
  forEach (s.sharers u) (fun v st => st.setFlag (uStat v) 30 down) s

/-- A transfer at `t` that leaves the running period of `u` no time: it ends there (R104). -/
def endsHere (s : State) (u t : Nat) : Bool :=
  ! s.uAngle u && s.uMode u != 2 && decide (s.activePer u ≤ (t - (s.getPu u).t0) / uTick u)

/-- The shape of the running period after a transfer at `t` that is not at a period boundary (R104): angle mode keeps it
and scales the new compares. -/
def reshape (s : State) (u t : Nat) (mid : Bool) : State :=
  if s.uAngle u then s.setPu u { s.getPu u with scaled := true }
  else
    let h := s.getPu u
    let e := (t - h.t0) / uTick u
    let p := s.activePer u
    let h1 : PuHid :=
      if s.uMode u ≠ 2 then { h with per := p, midDone := h.midDone || decide (p / 2 < e) }
      else if mid then { h with cTop := p, per := h.eMid + p / 2 }
      else if e < h.eMid then
        if p ≤ 2 * e then { h with eMid := e, cTop := p, per := e + p / 2 }
        else { h with eMid := p / 2, cTop := p, per := p }
      else
        let c := h.cTop - 2 * (e - h.eMid)
        { h with eMid := e, cTop := min c p, per := e + min c p / 2 }
    (s.setPu u h1).showPer u h1.per

/-- The length of the periods that follow (R152). -/
def nextPer (s : State) (u : Nat) : Nat := if s.uAngle u then (s.uHid u).per else s.activePer u

/-- A transfer inside the running period, at `t` (R104): the sets that `p` accepts, the new shape, events and notice;
`anew` starts a period at `t` where the transfer ends the running one. -/
def transferInside (s : State) (u t : Nat) (mid : Bool) (p : SealedSet → Bool) (anew : State → State) : State :=
  if ! s.hasSet u p ∨ (s.getPu u).safe = 2 then s
  else
    let old := s.rd (uAct u (uOutIx u))
    let s1 := s.transferSets u p
    if s.owner u = u ∧ s1.endsHere u t then (anew s1).afterTransfer u t old
    else
      let s2 := if s.owner u = u then s1.reshape u t mid else s1
      let s3 := forEach (s2.sharers (s2.owner u)) (fun v t' => t'.evalSignals v t false) s2
      let h := s3.uHid u
      let nx := s3.nextPer u * uTick u
      (s3.afterTransfer u t old).sendNotice u (h.t0 + h.per * uTick u - nx) nx

/-! ### Seals (R97–R103) -/

/-- The update points that follow in the running period and the next (R103), in EU. -/
def pointsAhead (s : State) (u upd : Nat) : List Nat :=
  let h := s.uHid u
  let k := uTick u
  let n := s.nextPer u
  -- an angle unit that holds waits for its firing, at the latest for the end of the hold (R95)
  let fin := h.t0 + (if h.hold then h.per + h.per / 8 else h.per) * k
  let mid := h.t0 + (if s.uMode u = 2 then h.eMid else h.per / 2) * k
  match upd with
  | 0 => [fin, fin + n * k, fin + 2 * n * k]
  | 1 => [mid, fin + n / 2 * k, fin + n * k + n / 2 * k]
  | _ => [mid, fin, fin + n / 2 * k, fin + n * k]

/-- The target of a waiting set, as the running period predicts it; none while the counter is stopped or the unit holds in a
safe state, where no transfer takes place (R92, R130). -/
def sealTarget (s : State) (u : Nat) (x : SealedSet) : Option Nat :=
  if ! s.uRun u ∨ ((s.getPu u).safe = 2 ∧ ! (s.getPu u).leaving) then none
  else if x.upd = 3 then some (x.at_ + guardEu)
  else (s.pointsAhead u x.upd).find? (fun p => decide (x.at_ + guardEu ≤ p))

/-- A seal of a valid set with its required registers is accepted at `t` (R98, R102, R103), for the update points of the
counter that drives the unit (R115). -/
def sealAccept (s : State) (u seq t : Nat) (ws : List Word) : State :=
  let x : SealedSet := ⟨seq, t, s.fld (uCtl (s.owner u)) 22 21, ws⟩
  let h := s.getPu u
  let replace : Bool := match h.sealQ.getLast? with
    | none => false
    | some w => match s.sealTarget u w with
      | none => true
      | some p => w.upd != 3 && decide (t + guardEu ≤ p)
  let q := if replace then h.sealQ.dropLast ++ [x] else h.sealQ ++ [x]
  let s1 := if replace then s.setFlag (uStat u) 26 true else s
  (((s1.setPu u { h with sealQ := q, marked := true }).setFld (uStat u) 15 8 seq).wr (uWmark u) 0).setFlag (uStat u) 29 true

/-- The marks or the values refuse a seal of `ws` (R98). -/
def sealRefused (s : State) (u : Nat) (commit : Bool) (ws : List Word) : Bool :=
  (! commit && (s.rd (uSetReq u) &&& ~~~ s.rd (uWmark u) != 0)) || ! s.setValid u ws

/-- A refused seal (R98). -/
def sealRefuse (s : State) (u : Nat) (ws : List Word) : State :=
  let s1 := (s.setFlag (uStat u) 28 true).uCause u 5
  if s.setValid u ws then s1 else s1.setFlag (uStat u) 25 true

/-- A seal of the pending set (R98). -/
def sealUnit (s : State) (u seq : Nat) : State :=
  let ws := s.pendingSet u
  if s.sealRefused u false ws then s.sealRefuse u ws else s.sealAccept u seq (instant s.dtF 0) ws

end State

end Sys2Proof.Machine
end

