-- ==== Sys2Proof/Machine/Brakes.lean ====
section
/-!
DEFINITION. Comparators, brake filters and lines, safe-state units and their self-tests (R122–R140, R410–R413).
-/
namespace Sys2Proof.Machine

namespace State

/-! ### Safe-state units (R128–R133, R410, R417) -/

def limp (s : State) : Bool := s.flag A.FG_STAT 31
def limpLock (s : State) : Bool := s.flag A.FG_STAT 30

/-- A line that `su` subscribes is latched (R128). -/
def lineSafe (s : State) (su : Nat) : Bool := s.fld (A.BL_SS_CFG su) 15 8 &&& s.fld A.BL_STAT 7 0 != 0

/-- `su` is safe: by a line, by its GSAFE bit, by limp, or with the field clock lost (R128, R410, R412, R417). -/
def unitSafe (s : State) (su : Nat) : Bool :=
  s.lineSafe su || s.flag A.FG_STAT su || s.limp || s.fieldClkLost

def ssCode (s : State) (su : Nat) : Nat := s.fld (A.BL_SS_CFG su) 6 4

/-- SS is marked CFGERR for the unit (R128). -/
def ssBad (s : State) (su : Nat) : Bool :=
  let c := s.ssCode su
  decide (5 ≤ c) || (decide (16 ≤ su) && (c == 1 || c == 2 || c == 4))

/-- SPEEDSEL at the trip or at an evaluation (R131): whether LOW applies, and whether LOSTSEL was used. -/
def speedSel (s : State) (su : Nat) (trip old : Bool) : Bool × Bool :=
  match s.trkEstimate (s.fld (A.BL_SS_CFG su) 3 0) with
  | none => (! s.flag (A.BL_SS_CFG su) 16, true)
  | some v =>
    let asc := s.num (A.BL_SS_ASC su)
    let hys := s.num (A.BL_SS_HYS su)
    if asc * 2 ^ 16 < v then (true, false)
    else if trip then (false, false)
    else if v ≤ (asc - hys) * 2 ^ 16 then (false, false)
    else (old, false)

/-- The state in force (BL_SSu_STAT.APPLIED): 0 OFF, 1 LOW, 2 HIGH, 3 HOLD. With the field clock lost (R25), and in Shed
(R433), every output is off. -/
def ssApplied (s : State) (su : Nat) : Nat :=
  if s.fieldClkLost ∨ s.ssBad su ∨ 4 ≤ s.fld A.PW_STAT 31 29 then 0
  else match s.ssCode su with
    | 1 => 1
    | 2 => 2
    | 3 => 3
    | 4 => if (s.getSs su).low then 1 else 0
    | _ => 0

/-- The safe state keeps output `o` on: xL under LOW, xH under HIGH (R128). -/
def keepsOn (applied o : Nat) : Bool := (applied == 1 && o % 2 == 1) || (applied == 2 && o % 2 == 0)

/-- The partner's feedback, where it is enabled, shows it off (R132). -/
def fbPartnerOff (s : State) (u o : Nat) : Bool := ! s.fbEn u (partner o) || ! s.fbOn u (partner o)

/-- FBWAIT: some output waits on feedback beyond its dead time (R132). -/
def fbWait (s : State) (su t : Nat) : State :=
  let w := su < 16 && (List.range 6).any (fun o =>
    let v := s.getOut su o
    (s.getPu su).safe == 1 && ! v.on && (match v.due with | some d => decide (d ≤ t) | none => false)
      && ! s.fbPartnerOff su o)
  s.setFlag (A.BL_SS_STAT su) 25 w

/-- One output of unit `u` under the safe state `applied` from `t` on (R132).  Where its partner was the incoming switch of
a dead time at the trip (`inc`), the dead time also runs from the output's own turn-off (assumption 129). -/
def safeOutput (s : State) (u applied t : Nat) (inc : Bool) (o : Nat) : State :=
  let v := s.getOut u o
  let p := s.getOut u (partner o)
  let d := p.offAt + s.uDead u o
  if keepsOn applied o then
    if v.on ∧ ! p.on ∧ d ≤ t ∧ s.fbPartnerOff u o then s.setOut u o { v with minpEnd := none }
    else
      let s1 := s.outOff u o t
      let p1 := s1.getOut u (partner o)
      let d0 := if inc then (s1.getOut u o).offAt + s.uDead u o else 0
      let d1 := max (max t d0) (p1.offAt + s.uDead u o)
      if d1 ≤ t ∧ ! p1.on ∧ s1.fbPartnerOff u o then s1.outOn u o t
      else s1.setOut u o { s1.getOut u o with due := some d1 }
  else s.outOff u o t

/-- Unit `u` drives `applied` from `t` on: outputs that turn off do so first (R132). -/
def driveSafe (s : State) (u applied t : Nat) : State :=
  if applied = 3 then
    let h := s.getPu u
    let s1 := s.setPu u { h with safe := 2, leaving := false }
    -- from another safe state the outputs follow the active set again
    if h.safe = 1 then s1.outsResume u t else s1
  else
    let s0 := s.setPu u { s.getPu u with safe := 1, leaving := false }
    let os := List.range (uOuts u)
    -- in a dead time when the state is entered, with the partner of `o` as the incoming switch
    let inc := fun (o : Nat) => (s.getPu u).safe != 1 && u < 16 && (s.getOut u (partner o)).due.isSome
    let s1 := forEach (os.filter (fun o => ! keepsOn applied o)) (fun o t' => t'.safeOutput u applied t false o) s0
    forEach (os.filter (keepsOn applied)) (fun o t' => t'.safeOutput u applied t (inc o) o) s1

/-- SAFE_STATE_ENTRY (R131, R132) of `su` at instant `t`. -/
def enterSafe (s : State) (su t : Nat) : State :=
  let sp := s.speedSel su true false
  let s1 := s.setSs su { low := sp.1, evalAt := t / euPerNs }
  let s2 := if s.ssCode su = 4 then s1.setFlag (A.BL_SS_STAT su) 24 sp.2 else s1
  let ap := s2.ssApplied su
  let s3 := ((s2.setFlag (A.BL_SS_STAT su) 31 true).setFld (A.BL_SS_STAT su) 30 28 ap).setFlag (A.BL_SS_STAT su) 26 (s.ssBad su)
  (forEach (unitsOf su) (fun u t' => t'.driveSafe u ap t) s3).fbWait su t

/-- SAFE_STATE_EXIT (R130, R133): unit `u` follows its active set from `t` on; an IMMEDIATE set whose update point
passed while the unit held transfers now. -/
def leaveSafe (s : State) (u t : Nat) : State :=
  let h := s.getPu u
  let s1 := s.setPu u { h with safe := 0, leaving := false }
  let s2 := if h.safe = 2 then s1.transferInside u t false (fun x => x.upd == 3 && decide (x.at_ + guardEu ≤ t)) id else s1
  let s3 := if h.safe = 1 then s2.outsResume u t else s2
  let su := ssOf u
  if (unitsOf su).any (fun v => (s3.getPu v).safe != 0) then s3
  else (s3.setFlag (A.BL_SS_STAT su) 31 false).setFlag (A.BL_SS_STAT su) 25 false

/-- The safe state of `su` after a change of its causes at instant `t` (R128, R133). -/
def refreshSafe (t : Nat) (su : Nat) (s : State) : State :=
  let safe := s.flag (A.BL_SS_STAT su) 31
  if s.unitSafe su then
    if ! safe then s.enterSafe su t
    else forEach (unitsOf su) (fun u t' =>
      let h := t'.getPu u
      if h.safe = 0 then t'.driveSafe u (t'.ssApplied su) t else t'.setPu u { h with leaving := false }) s
  else if safe then
    forEach (unitsOf su) (fun u t' =>
      let h := t'.getPu u
      if h.safe = 0 then t' else if t'.uRun u then t'.setPu u { h with leaving := true } else t'.leaveSafe u t) s
  else s

/-- Every safe-state unit after a change of lines, GSAFE or limp. -/
def refreshAll (s : State) (t : Nat) : State := forUpTo 24 (fun su t' => t'.refreshSafe t su) s

/-- Every safe unit takes its own safe state again, after a rung in which FD_IO held it off (R433). -/
def redrive (s : State) (t : Nat) : State :=
  forUpTo 24 (fun su t' => if t'.flag (A.BL_SS_STAT su) 31 then t'.enterSafe su t else t') s

/-- SAFE_N (R413): low while any unit is safe. -/
def safeN (s : State) : Bool := ! (List.range 24).any (fun su => s.flag (A.BL_SS_STAT su) 31)

/-! ### Lines (R127, R139) -/

/-- Configuration and status addresses of source `i`: 0–63 CW, 64–111 DW(i − 64). -/
def srcCfg (i : Nat) : Nat := if i < 64 then A.CW_CFG i else A.DW_CFG (i - 64)
def srcThr (i : Nat) : Nat := if i < 64 then A.CW_THR i else A.DW_THR (i - 64)
def srcStat (i : Nat) : Nat := if i < 64 then A.CW_STAT i else A.DW_STAT (i - 64)
def getCmp (s : State) (i : Nat) : CmpHid := if i < 64 then s.getCw i else s.getDw (i - 64)
def setCmp (s : State) (i : Nat) (h : CmpHid) : State := if i < 64 then s.setCw i h else s.setDw (i - 64) h

/-- An enabled source of line `k` has its filtered condition true (R135). -/
def lineActive (s : State) (k : Nat) : Bool :=
  (List.range 112).any (fun i => s.flag (srcCfg i) 31 && s.flag (srcCfg i) k && s.flag (srcStat i) 30)

/-- BL_STAT.SRCACT. -/
def srcAct (s : State) : State := forUpTo 8 (fun k t => t.setFlag A.BL_STAT (8 + k) (t.lineActive k)) s

/-- BRAKE_LINE_LATCH (R127): source `i` latches line `k` at instant `t`. In one filter cycle the lowest code is kept. A line
that latches is wake source 10 (R436). -/
def latchLine (s : State) (i k t : Nat) : State :=
  let cyc := t / 100 + 1
  let w := s.rd (A.BL_SRC k)
  let rec? := ! bitOf w 31 || (Sparse.get (fun _ => 0) s.blAt k == cyc && decide (i < bitsOf w 6 0))
  if s.flag A.BL_STAT k then
    if rec? ∧ Sparse.get (fun _ => 0) s.blAt k = cyc then s.wr (A.BL_SRC k) (BitVec.ofNat 32 (2 ^ 31 + i)) else s
  else
    let s1 := { s.setFlag A.BL_STAT k true with blAt := Sparse.set (fun _ => 0) s.blAt k cyc }
    let s2 := if rec? then s1.wr (A.BL_SRC k) (BitVec.ofNat 32 (2 ^ 31 + i)) else s1
    let s3 := (((s2.raiseF 0x60 k).setActive 0x60 k true).sendC (.brakeLine (s2.fld A.BL_STAT 7 0))).wakeSource 10
    if s.flag A.BL_IRQEN k then s3.raiseVec (208 + k) else s3

/-- The filtered condition of source `i` is `q` from instant `t` on (R126, R127). -/
def setFiltered (s : State) (i : Nat) (q : Bool) (t : Nat) : State :=
  let was := s.flag (srcStat i) 30
  let s1 := s.setFlag (srcStat i) 30 q
  if q ∧ ! was then
    let s2 := s1.setFlag (srcStat i) 29 true
    let lines := s.fld (srcCfg i) 7 0
    let s3 := forUpTo 8 (fun k t' => if s.flag (srcCfg i) 31 && lines.testBit k then t'.latchLine i k t else t') s2
    s3.srcAct.refreshAll t
  else if was ∧ ! q then s1.srcAct
  else s1

/-- The first filter sample at or after DT `t`: the 200 MHz filter clock has its edges at multiples of 5 ns (assumption 129). -/
def filtSample (t : Nat) : Nat := ceilDiv t 5 * 5

/-- The filter of source `i` has seen its raw condition false. -/
def filtClear (s : State) (i t : Nat) : State :=
  (s.setCmp i { s.getCmp i with since := none, fell := none }).setFiltered i false (instant t 0)

/-- The raw condition of source `i` at its filter input is `r` from now on (R124, R126): FILT = 0 passes it; else a filter
sample has to see it. -/
def setRaw (s : State) (i : Nat) (r : Bool) : State :=
  let h := s.getCmp i
  let filt := s.fld (srcCfg i) 15 8
  let s1 := s.setFlag (srcStat i) 31 r
  if r then
    -- a false that no sample has seen leaves the count
    let s2 := match h.fell with
      | some f => if filtSample f < s.dtF then s1.filtClear i (filtSample f) else s1
      | none => s1
    let h2 := s2.getCmp i
    let s3 := s2.setCmp i { h2 with fell := none, since := some (h2.since.getD (filtSample s.dtF)) }
    if filt = 0 then s3.setFiltered i true (instant s.dtF 0) else s3
  else if h.since.isNone then s1.setFiltered i false (instant s.dtF 0)
  else
    let f := h.fell.getD s.dtF
    if filt = 0 ∨ filtSample f ≤ s.dtF then s1.filtClear i s.dtF else s1.setCmp i { h with fell := some f }

/-- Full scale of an SN tap in nV (R65, R123). -/
def cwFullScale (range : Nat) : Int := 100000000 * 4 ^ range

/-- A threshold of a CW in units of nV / 512 (R123). -/
def cwLevel (cfg : Word) (code : Int) : Int :=
  if bitsOf cfg 22 16 < 48 then code * cwFullScale (bitsOf cfg 28 27) else code * 2500000 * 512

/-- The raw condition of CW `n` for input `v` (nV), given that it was `was` (R124). -/
def cwRaw (s : State) (n : Nat) (v : Int) (was : Bool) : Bool :=
  let c := s.rd (A.CW_CFG n)
  let t := s.rd (A.CW_THR n)
  let sn := bitsOf c 22 16 < 48
  let code := fun x => if sn then sxInt 10 x else (x : Int)
  let up := code (bitsOf t 25 16)
  let lo := code (bitsOf t 9 0)
  let h : Int := match bitsOf c 26 25 with | 0 => 0 | 1 => 2 | 2 => 4 | _ => 8
  let x := v * 512
  let above := decide (cwLevel c up < x)
  let below := decide (x < cwLevel c lo)
  let notUnder := decide (cwLevel c (up - h) ≤ x)
  let notOver := decide (x ≤ cwLevel c (lo + h))
  if ! bitOf c 31 || 63 < bitsOf c 22 16 then false
  else match bitsOf c 30 29 with
    | 0 => above || (was && h != 0 && notUnder)
    | 1 => below || (was && h != 0 && notOver)
    | 2 => above || below || (was && h != 0 && (notUnder || notOver))
    | _ => false

/-- CW `n` is evaluated against the tap that SRC selects (R122); in its in-service test the filter input keeps its last raw
value (R138). In Shed a CW that taps an SN input is held false (R433). -/
def cwEval (s : State) (n : Nat) : State :=
  let h := s.getCw n
  let v := Sparse.get (fun _ => 0) s.cwIn (s.fld (A.CW_CFG n) 22 16)
  let off := s.fld A.PW_STAT 31 29 == 4 && decide (s.fld (A.CW_CFG n) 22 16 < 48)
  let r := ! off && s.cwRaw n v (if h.testEnd.isSome then h.live else s.flag (A.CW_STAT n) 31)
  let s1 := s.setCw n { h with live := r }
  if h.testEnd.isSome then s1 else s1.setRaw n r

/-- The raw condition of DW `n` for an F code (R125). -/
def dwRaw (s : State) (n : Nat) (code : Int) : Bool :=
  let c := s.rd (A.DW_CFG n)
  let t := s.rd (A.DW_THR n)
  let above := decide (sxInt 10 (bitsOf t 25 16) < code)
  let below := decide (code < sxInt 10 (bitsOf t 9 0))
  match bitsOf c 30 29 with
  | 0 => above
  | 1 => below
  | 2 => above || below
  | _ => false

end State

/-! ### Commands -/

/-- CW_CONDITION: the input that CWn selects is now `v` nV, for every CW that taps it (R122, R124). -/
def execCwCondition (n : Fin 64) (v : Int) (s : State) : Out :=
  let k := s.fld (A.CW_CFG n) 22 16
  if 64 ≤ k then .next s
  else .next (forUpTo 64 (fun m t => if t.fld (A.CW_CFG m) 22 16 = k then t.cwEval m else t)
    { s with cwIn := Sparse.set (fun _ => 0) s.cwIn k v })

/-- BRAKE_FILTER (R126): the filter of source `i` (0–63 CW, 64–111 DW) passes a raw condition that has been true at FILT
consecutive samples, or one that a sample has seen false. -/
def execBrakeFilter (i : Fin 112) (s : State) : Out :=
  let h := s.getCmp i
  match h.since with
  | some c =>
    match h.fell with
    | some f => .next (if State.filtSample f ≤ s.dtF then s.filtClear i (State.filtSample f) else s)
    | none =>
      if s.flag (State.srcCfg i) 31 ∧ c + 5 * (s.fld (State.srcCfg i) 15 8 - 1) ≤ s.dtF then
        .next (s.setFiltered i true (instant s.dtF 0))
      else .next s
  | none => .next s

/-- An in-service failure of comparator `i` (R138): 0–63 CW, 64–111 DW. -/
def inServiceFail (i : Nat) (s : State) : State :=
  let first := ! s.flag A.CP_STSTAT 29 && ! s.flag A.CP_STSTAT 30
  let s1 := ((s.setFlag (State.srcStat i) 28 true).setFlag A.CP_STSTAT 29 true).raiseF 0x67 i
  if first then s1.setFld A.CP_STSTAT 6 0 i else s1

/-- F_SAMPLE (R79, R81, R125, R138): an F sample of channel `c`; `dup` names the DWs whose duplicate differs at it. -/
def execFSample (c : Fin 72) (x : BitVec 31) (dup : BitVec 48) (s : State) : Out :=
  if ! s.snEn c then .next s
  else
    let r := fSample c x s
    .next (forUpTo 48 (fun n t =>
      let cfg := t.rd (A.DW_CFG n)
      if ! (bitOf cfg 31 && bitsOf cfg 22 16 == c.val) then t
      else
        let t1 := if dup.getLsbD n then inServiceFail (64 + n) t else t
        if r.2.1 then (t1.setDw n { t1.getDw n with fresh := true }).setRaw (64 + n) (t1.dwRaw n r.1) else t1) r.2.2)

/-- SAFE_TURN_ON (R132): at this instant output `o` of unit `u`, which its safe state turns on, has its dead time behind
it and its partner's feedback off. -/
def execSafeTurnOn (u : Fin 16) (o : Fin 6) (eu : Fin 20) (s : State) : Out :=
  let t := instant s.dtF eu
  let v := s.getOut u o
  match v.due with
  | some d =>
    if (s.getPu u).safe = 1 ∧ d ≤ t then
      if s.fbPartnerOff u o ∧ ! (s.getOut u (State.partner o)).on then .next ((s.outOn u o t).fbWait u t)
      else .next (s.fbWait u t)
    else .next s
  | none => .next s

/-- SPEEDSEL_EVAL (R131): every 1 µs while safe. -/
def execSpeedselEval (su : Fin 24) (s : State) : Out :=
  let h := s.getSs su
  if s.flag (A.BL_SS_STAT su) 31 ∧ s.ssCode su = 4 ∧ ! s.ssBad su ∧ h.evalAt + 1000 ≤ s.dtF then
    let r := s.speedSel su false h.low
    let s1 := (s.setSs su { low := r.1, evalAt := h.evalAt + 1000 }).setFlag (A.BL_SS_STAT su) 24 r.2
    let ap := s1.ssApplied su
    let s2 := s1.setFld (A.BL_SS_STAT su) 30 28 ap
    if r.1 = h.low then .next s2
    else
      let t := instant s.dtF 0
      .next ((forEach (unitsOf su) (fun u t' =>
        if (t'.getPu u).safe = 0 then t'
        else
          let lv := (t'.getPu u).leaving
          let t1 := t'.driveSafe u ap t
          t1.setPu u { t1.getPu u with leaving := lv }) s2).fbWait su t)
  else .next s

/-- A write of BL_CLR (R135). -/
def writeBlClr (v : Word) (s : State) : State :=
  let s1 := forUpTo 8 (fun k t =>
    if ! v.getLsbD k || ! t.flag A.BL_STAT k then t
    else if t.lineActive k then t.setFlag A.BL_STAT (16 + k) true
    else ((t.setFlag A.BL_STAT k false).setFlag (A.BL_SRC k) 31 false).setActive 0x60 k false) s
  s1.refreshAll (instant s.dtF 0)

/-- BRAKE_LINE_STATUS: the oldest line status on the link reaches the control die. -/
def execBrakeLineStatus (s : State) : Out :=
  match takeHead (fun m => match m with | .brakeLine l => some l | _ => none) s.toControl with
  | some (l, rest) => .next { s with toControl := rest, brakeCd := l }
  | none => .next s

/-- A write of BL_SSu_CFG (R136): refused while a line or GSAFE holds the unit safe; one that is safe by limp alone enters a new
SS at once. -/
def writeSsCfg (su : Nat) (v : Word) (s : State) : State :=
  if s.flag (A.BL_SS_STAT su) 31 ∧ (s.lineSafe su ∨ s.flag A.FG_STAT su) then s.setFlag (A.BL_SS_STAT su) 27 true
  else
    let s1 := s.plainWrite (A.BL_SS_CFG su) v
    let s2 := s1.setFlag (A.BL_SS_STAT su) 26 (s1.ssBad su)
    let t := instant s.dtF 0
    if s.flag (A.BL_SS_STAT su) 31 ∧ s2.ssCode su ≠ s.ssCode su then (s2.enterSafe su t).refreshSafe t su
    else s2.refreshSafe t su

/-- A write of CWnn_CFG, DWnn_CFG or THR (R136): the filter restarts; the condition is taken anew. -/
def writeCmp (i : Nat) (thr : Bool) (v : Word) (s : State) : State :=
  let was := s.flag (State.srcCfg i) 31
  let s1 := s.plainWrite (if thr then State.srcThr i else State.srcCfg i) v
  let c := s1.rd (State.srcCfg i)
  let bad := bitsOf c 30 29 == 3 || decide ((if i < 64 then 64 else 72) ≤ bitsOf c 22 16)
  let s2 := s1.setFlag (State.srcStat i) 27 bad
  let h := s2.getCmp i
  let s3 := (s2.setCmp i { h with since := none, fell := none }).setFiltered i false (instant s.dtF 0)
  if i < 64 then s3.cwEval i
  else if ! bitOf c 31 ∨ ! was ∨ bad then (s3.setCmp i { s3.getCmp i with fresh := false }).setRaw i false
  else s3.setRaw i (s3.flag (State.srcStat i) 31)

/-- The self-test of this start of the field die has an outcome (R137). -/
def State.selfTested (s : State) : Bool := s.flag A.CP_STSTAT 31 || s.flag A.CP_STSTAT 30

/-- The start-up comparator self-test (R137): passed, or failed with the instance of its first failure, a CW (0–63) or a brake
line (112–119). -/
def compSelftest (fail : Option Nat) (s : State) : State :=
  match fail with
  | none => s.setFlag A.CP_STSTAT 31 true
  | some f =>
    let s1 := ((s.setFlag A.CP_STSTAT 30 true).setFld A.CP_STSTAT 6 0 f).raiseF 0x67 f
    if f < 64 then s1.setFlag (A.CW_STAT f) 28 true else s1

/-- COMP_SELFTEST_DONE: it ends once in each start of the field die, before the die reports ready (R137). -/
def execCompSelftestDone (fail : Option (Fin 128)) (s : State) : Out :=
  let bad : Bool := match fail with
    | some f => decide (64 ≤ f.val ∧ f.val < 112) || decide (120 ≤ f.val)
    | none => false
  if s.selfTested ∨ bad then .next s else .next (compSelftest (fail.map Fin.val) s)

/-- Every enabled CW has had its test in this sweep. -/
def State.bgDone (s : State) (m : Nat) : Bool := (List.range 64).all (fun n => ! s.flag (A.CW_CFG n) 31 || m.testBit n)

/-- CW_BG_TEST (R138): at its slot a 400 ns in-service test of CWn starts, one at a time, unless the CW is busy, when its
test is retried at the next slot.  The slots lie SWEEP ms / 64 apart, and a sweep tests every enabled CW once
(assumption 129). -/
def execCwBgTest (n : Fin 64) (s : State) : Out :=
  let w := s.rd A.CP_STCTL
  if bitsOf w 6 0 = 0 ∨ 100 < bitsOf w 6 0 then .next (s.setFlag A.CP_STSTAT 28 true)
  else if ! bitOf w 31 ∨ ! s.flag (A.CW_CFG n) 31 ∨ s.dtF < s.bg.next ∨ s.bg.swept.testBit n
      ∨ (List.range 64).any (fun m => (s.getCw m).testEnd.isSome) then .next s
  else
    let h := s.getCw n
    let slot := s.dtF + bitsOf w 6 0 * 1000000 / 64
    if s.flag (A.CW_STAT n) 31 ∨ h.since.isSome then .next { s with bg := { s.bg with next := slot } }
    else
      let m := s.bg.swept ||| 2 ^ n.val
      .next ({ s with bg := ⟨slot, if s.bgDone m then 0 else m⟩ }.setCw n { h with testEnd := some (s.dtF + 400), live := false })

/-- CW_BG_TEST_DONE (R138): the test ends, with its outcome. -/
def execCwBgTestDone (n : Fin 64) (ok : Bool) (s : State) : Out :=
  let h := s.getCw n
  match h.testEnd with
  | some e =>
    if s.dtF < e then .next s
    else
      let s1 := (s.setCw n { h with testEnd := none }).cwEval n
      .next (if ok then s1 else inServiceFail n s1)
  | none => .next s

end Sys2Proof.Machine
end

