-- ==== Sys2Proof/Machine/Pwm.lean ====
section
/-!
DEFINITION. Commands of the PWM units and general outputs (R89–R121) and the global start (R359).
-/
namespace Sys2Proof.Machine

namespace State

/-- An instant that has come (EU). -/
def reached (s : State) (t : Nat) : Bool := decide (t ≤ instant s.dtF 19)

/-! ### Configuration errors (R89, R108, R111) -/

/-- An invalid MODE, EVCFG, DTAUTO or DTA setting. -/
def puBad (s : State) (u : Nat) : Bool :=
  let ev := (List.range 4).any (fun k =>
    let w := s.rd (uEvCfg u k)
    decide (12 ≤ bitsOf w 3 0) || bitsOf w 30 29 == 3)
  s.fld (uCtl u) 29 28 == 3 || ev || (u < 16 &&
    ((List.range 3).any (fun x => s.flag (uCtl u) (17 + x) && ! (s.fbEn u (2 * x) && s.fbEn u (2 * x + 1)))
      || decide (s.fld (A.PU_DTA_MAX u) 16 0 < s.fld (A.PU_DTA_MIN u) 16 0)
      || decide (102000 < s.fld (A.PU_DTA_MAX u) 16 0)))

def puSetCfgErr (s : State) (u : Nat) : State := s.setFlag (uStat u) 17 (s.puBad u || (s.getPu u).badStart)

/-! ### Periods (R89, R92, R95, R101, R104, R111, R133) -/

/-- A period of `u` and of the outputs that share its counter begins at instant `t` (an END update point): `start` for
the unit's start, `per` the length in angle mode. -/
def beginPeriod (s : State) (u t : Nat) (start : Bool) (per : Option Nat) : State :=
  let vs := s.sharers u
  let takes := fun (st : State) (v : Nat) (x : SealedSet) =>
    (start || takesPoint false t x) && ((st.getPu v).safe != 2 || (st.getPu v).leaving)
  let moved := vs.filter (fun v => s.hasSet v (takes s v))
  let old := fun v => s.rd (uAct v (uOutIx v))
  let s1 := forEach vs (fun v st => (if start then st else st.lateSeal v false t).transferSets v (takes s v)) s
  let s2 := s1.dtAutoPoint u
  let p := match per with | some p => p | none => s2.activePer u
  let h := s2.getPu u
  -- new compares of a period without a firing are scaled by PEREFF / new PER too (R104)
  let s3 := s2.setPu u { h with t0 := t, per := p, eMid := p / 2, cTop := p, midDone := false, hold := false,
                                scaled := h.scaled || (! start && ! moved.isEmpty) }
  let s4 := (s3.showPer u p).showDown u (s3.uMode u == 1)
  let s5 := forEach vs (fun v st => st.evalSignals v t false) s4
  let s6 := forEach vs (fun v st => if (st.getPu v).leaving then st.leaveSafe v t else st) s5
  let s7 := forEach vs (fun v st => st.unitEvent v 1 0 t) s6
  let s8 := forEach moved (fun v st => st.afterTransfer v t (old v)) s7
  let s9 := s8.sendNotice u t (p * uTick u)
  if moved.isEmpty then s9 else s9.sendNotice u t (s9.nextPer u * uTick u)

/-- A unit starts at instant `t` (R92): every waiting set transfers; a unit whose active set is then not valid does not
run.  MODE 3 does not run (DEDUCED, assumption 11). -/
def startUnit (s : State) (u t : Nat) : State :=
  let vs := s.sharers u
  let s1 := forEach vs (fun v st =>
    let h := st.getPu v
    -- a HOLD unit that is safe transfers nothing (R130)
    (st.setPu v { h with startAt := none, evCnt := [], sig := 0, scaled := false, missed := false, badStart := false }).transferSets
      v (fun _ => h.safe != 2)) s
  let ok := fun v => s1.setValid v (s1.activeSet v)
  if ! ok u || s1.uMode u == 3 then
    (s1.setPu u { s1.getPu u with badStart := true }).puSetCfgErr u
  else
    let s2 := forEach vs (fun v st =>
      if ok v then (st.setFlag (uStat v) 31 true).puSetCfgErr v
      else (st.setPu v { st.getPu v with badStart := true }).puSetCfgErr v) s1
    let moved := vs.filter (fun v => s.hasSet v (fun _ => (s.getPu v).safe != 2))
    let s3 := s2.beginPeriod u t true (some (s2.activePer u))
    let s4 := forEach vs (fun v st =>
      if (st.getPu v).safe = 1 then st else st.outsFollow v t false (List.range (uOuts v))) s3
    forEach moved (fun v st => (st.unitEvent v 11 0 t).uCause v 4) s4

/-- A unit's counter stops at once at instant `t`, with every output off; a unit that waits to leave its safe state
leaves it (R92, R129, R133). -/
def stopUnit (s : State) (u t : Nat) : State :=
  forEach (s.sharers u) (fun v st =>
    let h := st.getPu v
    let s1 := ((st.setPu v { h with startAt := none, hold := false, sig := 0 }).setFlag (uStat v) 31 false).setFlag
      (uStat v) 30 false
    if h.safe = 1 ∧ ! h.leaving then s1
    else
      let s2 := forUpTo (uOuts v) (fun o st' => st'.outOff v o t) s1
      if h.leaving then s2.leaveSafe v t else s2) s

/-! ### Angle mode (R94–R96) -/

/-- PEREFF at a firing (R94): round(20 × PERA / s), or the running length without a valid estimate. -/
def angleLen (s : State) (u : Nat) : Nat :=
  let h := s.getPu u
  let k := if u < 16 then 20 else 1
  match s.trkEstimate (s.fld (uCtl u) 26 23) with
  | some v =>
    if v = 0 then h.per
    else
      let p := clampN (if u < 16 then 2000 else 100) 0xFFFFFFFF
        (roundDiv (k * s.num (uPera u) * 2 ^ 32 : Nat) v).toNat
      if s.uMode u = 2 then p / 2 * 2 else p
  | none => h.per

/-- PWM_SYNC (R96): a firing with argument `arg` at instant `t`; at a GP output the period starts on the nanosecond of the
firing (R114). DESIGN CHOICE (assumption 128): at an output that runs on the counter of GP(4g) it does nothing. -/
def pwmSync (s : State) (u arg t0 : Nat) : State :=
  let t := t0 / uTick u * uTick u
  if s.owner u ≠ u ∨ ! s.flag (uCtl u) 31 then s
  else if ! s.flag (uCtl u) 27 ∧ arg ≠ 0 then s.setFlag (uStat u) 23 true
  else if ! s.uRun u then s
  else if s.flag (uCtl u) 27 then
    let p := s.angleLen u
    let s1 := s.setPu u { s.getPu u with scaled := true, missed := false }
    s1.beginPeriod u t false (some p)
  else s.beginPeriod u t false none

end State

/-! ### Control writes -/

/-- A write of CTL (R92). DESIGN CHOICE (assumption 128): the PWMCLK edges lie at even DT nanoseconds. -/
def writeUnitCtl (u : Nat) (v : Word) (s : State) : State :=
  let old := s.rd (uCtl u)
  let new0 := applyWrite (fieldsAt (uCtl u)) s.locked old v 0 0
  let new := if 16 ≤ u ∧ (u - 16) % 4 = 0 then new0 &&& ~~~ (0x00010000 : Word) else new0
  let guarded : Word := 0x3F800000
  let en := bitOf old 31
  let kept := if en then (new &&& ~~~ guarded) ||| (old &&& guarded) else new
  let shares := 16 ≤ u && (u - 16) % 4 != 0
  let was := shares && bitOf old 16
  let now := shares && bitOf new 16
  let t := instant s.dtF 0
  -- an output that joins or leaves the counter of its group leaves the one it ran on (assumption 107)
  let s0 := if now && ! was then s.stopUnit u t else s
  let s1 := s0.wr (uCtl u) kept
  let s2 := if en ∧ new &&& guarded ≠ old &&& guarded then s1.setFlag (uStat u) 18 true else s1
  let s3 :=
    if now && ! was then s2.setFlag (uStat u) 31 (s2.uRun (s2.owner u))
    else
      let s' := if was && ! now then s2.stopUnit u t else s2
      if ! en ∧ bitOf new 31 ∧ ! bitOf new 30 ∧ ! now then
        s'.setPu u { s'.getPu u with startAt := some (instant (ceilDiv (s.dtF + 20) 2 * 2) 0) }
      else if en ∧ ! bitOf new 31 then s'.stopUnit u t
      else s'
  s3.puSetCfgErr u

/-- PU_START: the start that EN has set is due (R92). -/
def execPuStart (u : Fin 48) (s : State) : Out :=
  match (s.getPu u).startAt with
  | some t => .next (if s.reached t then s.startUnit u t else s)
  | none => .next s

/-- GLOBAL_START: the global-start edge that GO chose (R359). -/
def execGlobalStart (s : State) : Out :=
  match s.gstart with
  | none => .next s
  | some e =>
    if s.dtF < e then .next s
    else
      let s1 := forUpTo 32 tcGlobalStart { s with gstart := none }
      let sel := fun u => if u < 16 then s.flag A.TC_GSTART_PU u else s.flag A.TC_GSTART_GP (u - 16)
      let s2 := forUpTo 48 (fun u st =>
        if ! sel u then st
        else if st.flag (uCtl u) 31 && st.flag (uCtl u) 30 && ! st.uRun u && st.owner u == u then st.startUnit u (instant e 0)
        else st.setFlag A.TC_GSTAT 30 true) s1
      .next ((s2.setFlag A.TC_GSTAT 31 true).wr64 A.TC_GSTS_L A.TC_GSTS_H e)

/-! ### Positions of the period -/

/-- PERIOD_BOUNDARY (R89, R95): in time mode the next period begins; in angle mode the counter and the outputs hold,
unless periods already repeat without firings. -/
def execPeriodBoundary (u : Fin 48) (s : State) : Out :=
  let h := s.getPu u
  let fin := h.t0 + h.per * uTick u
  if s.owner u ≠ u ∨ ! s.uRun u ∨ h.per = 0 ∨ ! s.reached fin then .next s
  else if ! s.flag (uCtl u) 27 then .next (s.beginPeriod u fin false none)
  else if h.missed then
    .next (((s.setFlag (uStat u) 24 true).uCause u 7).beginPeriod u fin false (some h.per))
  else .next (s.setPu u { h with hold := true })

/-- SYNC_MISS (R95): no firing within PEREFF/8 after the period end. -/
def execSyncMiss (u : Fin 48) (s : State) : Out :=
  let h := s.getPu u
  let t := h.t0 + (h.per + h.per / 8) * uTick u
  if s.owner u ≠ u ∨ ! s.uRun u ∨ ! s.flag (uCtl u) 27 ∨ h.per = 0 ∨ ! s.reached t then .next s
  else
    let s1 := s.setPu u { h with missed := true }
    .next (((s1.setFlag (uStat u) 24 true).uCause u 7).beginPeriod u t false (some h.per))

/-- PERIOD_MIDDLE (R89, R100, R104, R108). -/
def execPeriodMiddle (u : Fin 48) (s : State) : Out :=
  let h := s.getPu u
  let m := if s.uMode u = 2 then h.eMid else h.per / 2
  let t := h.t0 + m * uTick u
  if s.owner u ≠ u ∨ ! s.uRun u ∨ h.midDone ∨ h.per = 0 ∨ ! s.reached t then .next s
  else
    let vs := s.sharers u
    let s1 := s.setPu u { h with midDone := true }
    -- measured dead times first: a transfer leaves them (R104, R108)
    let s3 := forEach vs (fun v st => (st.lateSeal v true t).transferInside v t true (State.takesPoint true t)
      (fun st' => st'.beginPeriod v t false none)) (s1.dtAutoPoint u)
    let s4 := if s.uMode u = 2 then s3.showDown u true else s3
    let s5 := forEach vs (fun v st => st.evalSignals v t false) s4
    .next (forEach vs (fun v st => st.unitEvent v 2 0 t) s5)

/-- SIGNAL_EDGE (R90): at this instant the commanded signal of pair `x` changes. -/
def execSignalEdge (u : Fin 48) (eu : Fin 20) (s : State) : Out :=
  .next (s.evalSignals u (instant s.dtF eu) true)

/-- The positions at which a trigger compare of value `v` gives its events (R111); in UPDOWN the up half ends at `mid`, and
the down half runs from c = `top` (R104). -/
def triggerHits (mode per mid top v e : Nat) : Bool :=
  if v = 0 then false
  else match mode with
    | 0 => e == v && decide (v < per)
    | 1 => e + v == per && decide (v < per)
    | _ => (decide (e < mid) && e == ceilDiv v 2) || (decide (mid ≤ e ∧ v < top) && e + ceilDiv v 2 == per)

/-- At this instant the counter of unit `u` crosses TRGk (R111). -/
def State.trgCrossing (s : State) (u : Fin 48) (k : Fin 2) (eu : Fin 20) : State :=
  let t := instant s.dtF eu
  let h := s.uHid u
  let e := (t - h.t0) / uTick u
  if s.uRun u ∧ h.t0 + e * uTick u = t ∧ e < h.per ∧ triggerHits (s.uMode u) h.per h.eMid h.cTop (s.uCmp u (uTrgIx u + k)) e then
    s.unitEvent u (9 + k) (s.uHalf u e) t
  else s

/-- DEAD_TIME_END (R105): the turn-on that output `o` waits for is due. -/
def execDeadTimeEnd (u : Fin 48) (o : Fin 6) (s : State) : Out :=
  match (s.getOut u o).due with
  | some d =>
    if (s.getPu u).safe = 1 ∨ ! s.reached d then .next s else .next (s.outTurnOn u o d)
  | none => .next s

/-- MINP_END (R109): the extended pulse of output `o` ends. -/
def execMinpEnd (u : Fin 48) (o : Fin 6) (s : State) : Out :=
  match (s.getOut u o).minpEnd with
  | some e => if s.reached e then .next (s.outOff u o e) else .next s
  | none => .next s

/-! ### Sets and seals -/

/-- A write of set register `b`, accepted by the field die (R97). -/
def writeUnitSet (u b : Nat) (v : Word) (s : State) : State :=
  (s.plainWrite (uSet u b) v).setFlag (uWmark u) b true

/-- A group seal of the pending sets (R116): all four outputs or none. -/
def sealGroup (g seq : Nat) (commit : Bool) (s : State) : State × Bool :=
  let us := unitsOf (16 + g)
  let bad := us.filter (fun u => s.sealRefused u commit (s.pendingSet u))
  if bad.isEmpty then (forEach us (fun u st => st.sealAccept u seq (instant s.dtF 0) (st.pendingSet u)) s, true)
  else (forEach bad (fun u st => st.sealRefuse u (st.pendingSet u)) s, false)

/-- IMMEDIATE_TRANSFER (R100): 20 ns after an IMMEDIATE seal. -/
def execImmediateTransfer (u : Fin 48) (s : State) : Out :=
  match (s.getPu u).sealQ.find? (fun x => x.upd == 3) with
  | some x =>
    let t := x.at_ + guardEu
    if s.uRun u ∧ s.reached t then .next (s.transferInside u t false (fun y => y.upd == 3 && decide (y.at_ + guardEu ≤ t))
      (fun st => st.beginPeriod u t false none))
    else .next s
  | none => .next s

/-! ### Authority (R415) -/

/-- A transfer that the field die does not accept (R415): `inst` 0 stale epoch, 1 host write, 2 unclaimed. -/
def rejectTransfer (inst : Nat) (s : State) : State :=
  let s1 := (s.satAdd A.FG_REJCNT 31 0 1).sendC (.reject inst (s.num A.FG_EPOCH) s.limp)
  if s.rejArmed ∨ s.rejAt + 1000000 ≤ s.dtF then ({ s1 with rejArmed := false, rejAt := s.dtF }).raiseF 0x52 inst else s1

/-- The transfer's epoch is the field die's, and it is not 0 (R415). -/
def State.epochOk (s : State) (e : Nat) : Bool := s.num A.FG_EPOCH == e && e != 0

/-- Instance of the reject of a transfer of epoch `e` (none: a host write). -/
def State.rejectKind (s : State) (e : Option Nat) : Nat :=
  match e with
  | none => 1
  | some _ => if s.num A.FG_EPOCH = 0 then 2 else 0

/-- The registers of a GP group that a commit writes (R149). -/
def groupCommitWrites (g : Nat) (ws : List Word) (s : State) : State :=
  let u0 := 16 + 4 * g
  let at_ := fun i => ws.getD i 0
  let s1 := writeUnitSet u0 4 (at_ 10) (writeUnitSet u0 3 (at_ 9) (writeUnitSet u0 0 (at_ 0) s))
  forUpTo 4 (fun i st =>
    writeUnitSet (u0 + i) 6 (at_ (12 + i)) (writeUnitSet (u0 + i) 5 (at_ 11)
      (writeUnitSet (u0 + i) 2 (at_ (2 + 2 * i)) (writeUnitSet (u0 + i) 1 (at_ (1 + 2 * i)) st)))) s1

/-- A bogie commit at the field die (R102, R149, R151, R415). -/
def applyCommit (c : Commit) (s : State) : State :=
  if ! s.epochOk c.epoch.toNat then
    (rejectTransfer (s.rejectKind (some c.epoch.toNat)) s).sendC (.sealAck c.ch false 1 c.seq s.dtF)
  else if c.unit < 16 then
    let u := c.unit
    let s1 := forUpTo 17 (fun b st => writeUnitSet u b (c.words.getD b 0) st) s
    let ws := s1.pendingSet u
    if s1.sealRefused u true ws then (s1.sealRefuse u ws).sendC (.sealAck c.ch false 0 c.seq s.dtF)
    else (s1.sealAccept u c.seq (instant s.dtF 0) ws).sendC (.sealAck c.ch true 0 c.seq s.dtF)
  else
    let r := sealGroup (c.unit - 16) c.seq true (groupCommitWrites (c.unit - 16) c.words s)
    r.1.sendC (.sealAck c.ch r.2 0 c.seq s.dtF)

/-- BOGIE_COMMIT: the oldest commit on the link reaches the field die. -/
def execBogieCommit (s : State) : Out :=
  match takeHead (fun m => match m with | .commit c => some c | _ => none) s.toField with
  | some (c, rest) => .next (applyCommit c { s with toField := rest })
  | none => .next s

/-! ### Switch feedback (R106, R107) -/

/-- SW_FEEDBACK_EDGE: the level at the feedback input of output `o` becomes `lvl`. -/
def execSwFeedbackEdge (u : Fin 16) (o : Fin 6) (lvl : Bool) (eu : Fin 20) (s : State) : Out :=
  let t := instant s.dtF eu
  let cfg := s.rd (A.PU_SFCFG u)
  let on := lvl != bitOf cfg (6 + o)
  let s0 := s.setOut u o { s.getOut u o with fbRaw := lvl }
  if s.fbOn u o = on then .next s0
  else
    let s1 := s0.setFlag (A.PU_SFSTAT u) o on
    let v := s1.getOut u o
    let s2 :=
      match v.measFrom with
      | some t0 =>
        if on ∨ ! bitOf cfg o then s1
        else
          let s' := s1.setOut u o { v with measFrom := none }
          if bitsOf cfg 27 16 * 40 < t - t0 then s'
          else
            let ms := ((t - t0) :: v.meas).take 8
            let mean := (ms.foldl (· + ·) 0) / ms.length
            ((s'.setOut u o { v with measFrom := none, meas := ms }).setFld (State.propA u o) 23 0 mean).satAdd
              (State.propA u o) 31 24 1
      | none => s1
    -- a turn-on that waited on this feedback may now take place (R132)
    .next ((s2.fbTrack u o t).fbWait u t)

/-- SW_FEEDBACK_DISAG (R107): the disagreement of output `o` has lasted more than SFWIN × 2 ns. -/
def execSwFeedbackDisag (u : Fin 16) (o : Fin 6) (eu : Fin 20) (s : State) : Out :=
  let v := s.getOut u o
  let win := s.fld (A.PU_SFCFG u) 27 16
  match v.disSince with
  | some t0 =>
    if s.fbEn u o ∧ win ≠ 0 ∧ t0 + win * 40 < instant s.dtF eu ∧ ! v.disRep then
      let s1 := (s.setOut u o { v with disRep := true }).setFlag (A.PU_SFSTAT u) (8 + o) true
      .next ((((s1.setFlag (uStat u) 21 true).uCause u 9).raiseF 0x61 u).setActive 0x61 u true)
    else .next s
  | none => .next s

/-- A write of SFCFG (R106, R108, R119): LEVEL follows INV, clearing EN restarts NMEAS and TOFF of the output, and a DTAUTO
pair that has lost its feedback takes its sealed dead times again. -/
def writeSfcfg (u : Nat) (v : Word) (s : State) : State :=
  let old := s.rd (A.PU_SFCFG u)
  let s0 := s.plainWrite (A.PU_SFCFG u) v
  let s1 := forUpTo 6 (fun o st => st.setFlag (A.PU_SFSTAT u) o ((st.getOut u o).fbRaw != st.flag (A.PU_SFCFG u) (6 + o))) s0
  let s2 := forUpTo 6 (fun o st =>
    if bitOf old o ∧ ! st.flag (A.PU_SFCFG u) o then
      (st.setOut u o { st.getOut u o with measFrom := none, meas := [], disSince := none, disRep := false }).wr
        (State.propA u o) 0
    else st.fbTrack u o (instant s.dtF 0)) s1
  (s2.dtRestore u).puSetCfgErr u

/-- A write of EVCFGk (R112): the line's event count restarts. -/
def writeEvCfg (u k : Nat) (v : Word) (s : State) : State :=
  let s1 := s.plainWrite (uEvCfg u k) v
  let h := s1.getPu u
  (s1.setPu u { h with evCnt := Sparse.set (fun _ => 0) h.evCnt k 0 }).puSetCfgErr u

/-- CNT at a read (R93): c at the PWMCLK edge, truncated to a whole PWMCLK cycle of counts. DESIGN CHOICE (assumption 128): CNT of
a stopped unit reads 0, and that of a GP output, whose counts are ns, is truncated to 2 counts (4 in UPDOWN). -/
def State.unitCnt (s : State) (u : Nat) : Nat :=
  if ! s.uRun u then 0
  else
    let h := s.uHid u
    let e := s.uPos u (instant (s.dtF / 2 * 2) 0)
    let step := if u < 16 then 40 else 2
    match s.uMode u with
    | 0 => e / step * step
    | 1 => (h.per - e) / step * step
    | _ => (if e < h.eMid then 2 * e else h.cTop - 2 * (e - h.eMid)) / (2 * step) * (2 * step)

end Sys2Proof.Machine
end

