-- ==== Sys2Proof/Machine/Bogie.lean ====
section
/-!
DEFINITION. The bogies: acknowledgements, notices, faults, relief, utilisation (R151, R152,
R157–R166).
-/
namespace Sys2Proof.Machine

/-- SEAL_ACK (R151): the oldest seal acknowledgement reaches the bogie block. -/
def sealAck (ch : Nat) (ok : Bool) (seq dt : Nat) (s : State) : State :=
  let b := s.bogieOf ch
  let s1 := s.noteTask ch (fun h => if h.ackWait = some seq then { h with ackWait := none } else h)
  if ok then (s1.setFlag (ctxA ch 0) 24 false).setCtx ch 11 (BitVec.ofNat 32 dt)
  else ((s1.setFlag (ctxA ch 0) 24 true).bgCount (A.BGn_CNT_SETREF b)).bgCause b 2

def execSealAck (s : State) : Out :=
  match takeHead (fun m => match m with | .sealAck ch ok _ seq dt => some (ch, ok, seq, dt) | _ => none) s.toControl with
  | some ((ch, ok, seq, dt), rest) => .next (sealAck ch ok seq dt { s with toControl := rest })
  | none => .next s

/-- UNIT_NOTICE (R152): the newest notice of a unit. -/
def execUnitNotice (s : State) : Out :=
  match takeHead (fun m => match m with | .notice u n => some (u, n) | _ => none) s.toControl with
  | some ((u, n), rest) => .next ({ s with toControl := rest }.setNotice u n)
  | none => .next s

/-- The notice that safe-state unit `su` would send now (R152, R383). -/
def State.noticeNow (s : State) (su : Nat) : Notice :=
  let u := if su < 16 then su else 16 + 4 * (su - 16)
  let h : PuHid := s.uHid u
  let p := s.nextPer u * uTick u
  ⟨h.t0 + h.per * uTick u - p, p, s.uMode u, s.fld (uCtl u) 22 21⟩

/-! ### Faults and relief (R157–R162) -/

/-- The preempted task of a channel is dropped with its save slot and stations (R158, R189). -/
def State.dropSaved (s : State) (b ch : Nat) : State :=
  let g := s.getBog b
  let s1 := s.setBog b { g with stations := g.stations.filter (fun x => x.ch != ch) }
  let s2 := s1.setCh ch { s1.getCh ch with save := none }
  ({ s2 with tasks := s2.tasks.filter (fun (t : Task) => ! (t.ch == ch && t.st == TaskSt.preempted)) }.bgDepth b).mapDrain

/-- Relief fails (R160): F_RELIEF_FAIL, and vector 107 with BG_IRQEN.DONE. -/
def reliefFails (inst : Nat) (s : State) : State :=
  let s1 := s.raiseC 0x25 inst
  if s1.flag A.BG_IRQEN 1 then s1.raiseVec 107 else s1

/-- A fault of a bogie that the guard reacts to (R157): FAULT bit, poisoning of the running task (R158), and what a fault
of BG4 does to relief (R160, R162). Kinds: 0 residue, 1 parity, 2 overrun, 3 context ECC. -/
def bogieFault (b kind : Nat) (s : State) : State :=
  let id := [0x20, 0x21, 0x22, 0x23].getD kind 0x20
  let s1 := (s.setFlag (A.BGn_STAT b) (26 + kind) true).raiseC id b
  let s2 := match (s1.getBog b).run with
    | some ch => (s1.setFlag (ctxA ch 0) 21 true).bgStop b
    | none => match (s1.getBog b).saving with
      -- the task that is being saved (R189)
      | some ch => if s1.dtC < (s1.getBog b).freeAt then (s1.setFlag (ctxA ch 0) 21 true).dropSaved b ch else s1
      | none => s1
  if b ≠ 4 then s2
  else
    let st := s2.fld A.BG_RELIEF 31 29
    if st = 0 then s2.setFld A.BG_RELIEF 31 29 4
    else if 1 ≤ st ∧ st ≤ 3 then reliefFails 4 { s2 with reliefFailed := true }
    else s2

/-- RELIEVE (R160): the reaction to a fault of bogie `b`, detected at DT `td`. What a fault of BG4 does to relief has
happened at its detection (R162). -/
def relieve (b td : Nat) (s : State) : State :=
  let s0 := s.setBog b { s.getBog b with gated := true }
  if 4 ≤ b then s0
  else if ! s.flag A.BG_CTRL 31 ∨ s.fld A.BG_RELIEF 31 29 ≠ 0 then reliefFails b s0
  else
    -- what the failed bogie had in hand ends poisoned; its queue passes to BG4
    let s1 := match (s0.getBog b).run with
      | some ch => (s0.setFlag (ctxA ch 0) 21 true).bgStop b
      | none => s0
    let s2 := { s1 with tasks := s1.tasks.filter (fun (t : Task) => ! (t.ch / 16 == b && t.st != TaskSt.queued)),

                        chs := forUpTo 16 (fun i (m : Sparse ChHid) => Sparse.set (fun _ => ({} : ChHid)) m (16 * b + i)
                          { Sparse.get (fun _ => ({} : ChHid)) m (16 * b + i) with save := none }) s1.chs }
    let s3 := (s2.setBog b { s2.getBog b with stations := [] }).mapDrain.setFld (A.BGn_STAT b) 31 30 2
    let s4 := ((s3.setFld A.BG_RELIEF 31 29 1).setFld A.BG_RELIEF 28 27 b).wr64 A.BG_RELDT_L A.BG_RELDT_H td
    -- the yards of the bogie go to BG4 (R328)
    let s5 := forUpTo 16 (fun n t =>
      if t.ydOwner n = 3 + b ∧ ! t.flag (A.YD_OWN n) 31 then beginHandover n ⟨7, false, true, t.dtC⟩ t else t) s4
    let s6 := { s5 with reliefFailed := false }
    if s6.flag A.BG_IRQEN 0 then s6.raiseVec 106 else s6

/-- The result that a sense channel's registers hold (R73, R160). -/
def State.storedResult (s : State) (c : Nat) : Slot :=
  let f := s.rd (A.SN_WFLG c)
  ⟨bitOf f 31, s.rd (A.SN_WRES c), f, s.num (A.SN_WLEN c), bitsOf f 15 0, s.num64 (A.SN_WTS_L c) (A.SN_WTS_H c)⟩

/-- RELIEF_ADOPTED (R159, R160): BG4 has the contexts, results and deadlines. What the mirror's SECDED met: a double-bit
error, which fails the relief, and words with a single-bit one, corrected and counted. -/
def execReliefAdopted (m : MirrorErr) (s : State) : Out :=
  if s.fld A.BG_RELIEF 31 29 ≠ 1 then .next s
  else
    let b := s.fld A.BG_RELIEF 28 27
    let sc := if m.one = 0 then s else (s.satAdd (A.BGn_CNT_ECC1 4) 31 0 m.one).bgCause 4 5
    let s0 := if m.two then reliefFails b { sc with reliefFailed := true } else sc
    -- fresh results of every valid slot, fresh notices of every bound unit
    let s1 := forUpTo 16 (fun i t =>
      let ch := 16 * b + i
      let t1 := forUpTo 6 (fun j u =>
        let sb := u.slotByte ch j
        if 128 ≤ sb ∧ sb < 128 + 72 then u.setRes ch (sb - 128) (u.storedResult (sb - 128)) else u) t
      match t1.chUnit ch with
      | some u => t1.setNotice u (t1.noticeNow u)
      | none => t1) s0
    let s2 := { s1 with tasks := s1.tasks.map (fun (t : Task) => if t.ch / 16 == b then { t with dl := s1.deadline t.ch t.rel } else t) }
    let s3 := s2.setFld A.BG_RELIEF 31 29 2
    .next (forUpTo 16 (fun i t =>
      let ch := 16 * b + i
      let m := t.chMode ch
      if m = 1 ∨ m = 2 ∨ m = 4 then
        let u := t.releaseTask ch t.dtC 6 false
        { u with tasks := u.tasks.map (fun (k : Task) => if k.ch == ch && k.st == TaskSt.queued then { k with catchup := true } else k) }
      else t) s3)

/-- RELIEF_CATCHUP_DONE (R160): every catch-up task has ended. -/
def execReliefCatchupDone (s : State) : Out :=
  if s.fld A.BG_RELIEF 31 29 ≠ 2 ∨ s.tasks.any (fun t => t.catchup) then .next s
  else
    let s1 := (s.setFld A.BG_RELIEF 31 29 3).setFld (A.BGn_STAT 4) 31 30 3
    .next (if s1.flag A.BG_IRQEN 1 then s1.raiseVec 107 else s1)

/-- RELIEF_TIMEOUT (R160): 9.8 µs after the fault a catch-up task is not complete. -/
def execReliefTimeout (s : State) : Out :=
  let st := s.fld A.BG_RELIEF 31 29
  if (st = 1 ∨ (st = 2 ∧ s.tasks.any (fun t => t.catchup))) ∧ ! s.reliefFailed
      ∧ s.num64 A.BG_RELDT_L A.BG_RELDT_H + 9800 ≤ s.dtC then
    .next (reliefFails (s.fld A.BG_RELIEF 28 27) { s with reliefFailed := true })
  else .next s

/-- BOGIE_OVERRUN (R157): the running task has run longer than OVRB ns. -/
def execBogieOverrun (b : Fin 5) (s : State) : Out :=
  let o := s.fld (A.BGn_OVRB b) 10 0
  let bound := if 200 ≤ o ∧ o ≤ 2000 then o else 2000
  match (s.getBog b).run with
  | none => .next s
  | some ch =>
    match s.tasks.find? (fun t => t.ch == ch && t.st == TaskSt.running) with
    | some t => if bound < t.ran + (s.dtC - t.since) then .next (bogieFault b 2 s) else .next s
    | none => .next s

/-! ### Utilisation and clears (R163, R164) -/

/-- UTIL_WINDOW: a 1 ms window ends. -/
def execUtilWindow (b : Fin 5) (s : State) : Out :=
  let g := s.getBog b
  let w := s.dtC / 1000000 * 1000000
  if w ≤ g.utilEnd then .next s
  else
    let busy := if g.run.isSome then g.busyNs + (w - g.busyFrom) else g.busyNs
    let util := min (min busy 1000000 * 1024 / 1000000) 1023
    let s1 := s.setBog b { g with busyNs := 0, busyFrom := max g.busyFrom w, utilEnd := w }
    let s2 := (s1.setFld (A.BGn_UTIL b) 9 0 util).setFld (A.BGn_UTIL b) 25 16 (max util (s.fld (A.BGn_UTIL b) 25 16))
    .next (if 716 < util then s2.bgCause b 4 else s2)

/-- BGn_CLR.CNT. -/
def bgClrCnt (b : Nat) (s : State) : State :=
  [A.BGn_CNT_LATE b, A.BGn_CNT_TRAP b, A.BGn_CNT_OVLP b, A.BGn_CNT_SETREF b, A.BGn_CNT_ECC1 b, A.BGn_CNT_STNW b].foldl
    (fun t a => t.wr a 0) s
/-- BGn_CLR.TGAP. -/
def bgClrTgap (b : Nat) (s : State) : State := s.wr (A.BGn_TGAP b) 0
/-- BGn_CLR.PEAK. -/
def bgClrPeak (b : Nat) (s : State) : State := s.setFld (A.BGn_UTIL b) 25 16 0

def execBgClrCnt (b : Fin 5) (s : State) : Out := .next (bgClrCnt b s)
def execBgClrTgap (b : Fin 5) (s : State) : Out := .next (bgClrTgap b s)
def execBgClrPeak (b : Fin 5) (s : State) : Out := .next (bgClrPeak b s)

end Sys2Proof.Machine
end

