-- ==== Sys2Proof/Machine/Consist.lean ====
section
/-!
DEFINITION. Consists (R392–R396, R402): the health word, channel records, snapshots and their publication.
-/
namespace Sys2Proof.Machine

namespace State

/-- The channels that `p` names, in rising order. -/
def chansOf (p : Nat → Bool) : List Nat := (List.range 64).filter p

/-- The track that a channel binds, when it binds one (R143). -/
def chTrk (s : State) (ch : Nat) : Option Nat :=
  let w := s.ctx ch 2
  if bitOf w 21 then some (bitsOf w 25 22) else none

/-- Bit u: unit u is safe (R128). -/
def safeMask (s : State) : Nat :=
  (List.range 24).foldl (fun m u => if s.flag (A.BL_SS_STAT u) 31 then m ||| 2 ^ u else m) 0

/-- Logbook bits set (R421). -/
def logCount (s : State) : Nat := s.fld A.GD_LOGCNT 16 0

/-- HEALTH (R396) over the channels of a set. -/
def health (s : State) (set : List Nat) : Word :=
  let st := s.fld A.BG_RELIEF 31 29
  let lost := set.any (fun ch => match s.chTrk ch with | some k => s.trkLost k | none => false)
  BitVec.ofNat 32
    ((decide (st = 3)).toNat + 2 * (if 1 ≤ st ∧ st ≤ 3 then s.fld A.BG_RELIEF 28 27 else 0) + 8 * (s.flag A.TD_STAT 31).toNat
      + 16 * s.limp.toNat + 32 * s.fld A.OD_STAT 31 30 + 128 * lost.toNat + 256 * (decide (s.safeMask ≠ 0)).toNat
      + 512 * (decide (s.logCount ≠ 0)).toNat + 65536 * s.fld A.BL_STAT 7 0
      + 2 ^ 24 * (! s.flag A.LK_FARSTAT 31).toNat)

/-- The channel record of `ch` at DT `t` (R396); `noIter`: no task has completed since the last consist. -/
def record (s : State) (ch t : Nat) (noIter : Bool) : List Byte :=
  let st := s.ctx ch 0
  let unit := s.chUnit ch
  -- the unit whose registers stand for the bound one: GP(4g) for GGg
  let u := match unit with | some v => if v < 16 then some v else some (16 + 4 * (v - 16)) | none => none
  let trk := s.chTrk ch
  let b := fun (k : Nat) => (bitOf st k).toNat
  let fl := b 28 + 2 * (match trk with | some k => s.trkLost k | none => false).toNat + 4 * b 26 + 8 * b 25 + 16 * b 23
    + 32 * b 21 + 64 * b 24 + 128 * noIter.toNat
  let slots := (List.range 6).map (fun j => s.getSlot ch j)
  let tflags := match trk with
    | some k => (s.trkRev k).toNat + 2 * (s.trkLost k).toNat + 4 * (s.flag (A.TRK_STAT k) 29).toNat
    | none => 0
  let cmps : List Word := match unit with
    | none => List.replicate 6 0
    | some v =>
      if v < 16 then (List.range 6).map (fun i => s.rd (uAct v (1 + i)))
      else (List.range 4).map (fun i => s.rd (uAct (16 + 4 * (v - 16) + i) 1)) ++ [0, 0]
  numBytes 1 ch ++ numBytes 1 (s.chMode ch) ++ numBytes 1 fl ++ numBytes 1 (bitsOf st 7 0)
    ++ wordBytes (s.ctx ch 13) ++ wordBytes (s.ctx ch 12) ++ wordBytes (s.ctx ch 41)
    ++ (slots.map (fun x => wordBytes (if x.valid then x.code else 0))).flatten
    ++ numBytes 1 ((List.range 6).foldl (fun m j => if (slots.getD j {}).valid then m ||| 2 ^ j else m) 0)
    ++ numBytes 1 (match u with | some v => s.fld (uStat v) 7 0 | none => 0)
    ++ numBytes 1 tflags ++ [(0 : Byte)]
    ++ numBytes 4 (match trk with | some k => s.trkAng k t | none => 0)
    ++ numBytes 8 (match trk with | some k => s.trkSpeed k t | none => 0)
    ++ ((s.getCh ch).cf.map wordBytes).flatten
    ++ wordBytes (s.ctx ch 40)
    ++ wordBytes (match u with | some v => s.rd (uPerEff v) | none => 0)
    ++ (cmps.map wordBytes).flatten
    ++ numBytes 8 (s.getCh ch).s0end ++ wordBytes (s.ctx ch 9) ++ wordBytes (s.ctx ch 11) ++ List.replicate 8 (0 : Byte)

/-! ### Streams -/

/-- The channels of a stream's set, in rising order. -/
def csSet (s : State) (c : Nat) : List Nat := chansOf (fun n => (s.num64 (A.CS_SET_L c) (A.CS_SET_H c)).testBit n)

/-- Size of a slot (R394). -/
def csSlotSize (s : State) (c : Nat) : Nat := 64 + 128 * (s.csSet c).length

/-- Host address of the slot of generation `g` (R394). -/
def csSlot (s : State) (c g : Nat) : Nat :=
  s.num64 (A.CS_BASE_L c) (A.CS_BASE_H c) + (g - 1) % s.fld (A.CS_CFG c) 6 0 * s.csSlotSize c

def csLastOf (s : State) (c : Nat) : Option Nat := Sparse.get (fun _ => none) s.host.csLast c

/-- CONSIST_SNAPSHOT (R392–R394, R396): a trigger of stream `c` at `t`; cause 0 timetable, 1 period. A snapshot that cannot
be taken counts in DROP. -/
def csTrigger (s : State) (c t cause : Nat) : State :=
  if ! s.flag (A.CS_CFG c) 31 then s
  else
    let soon : Bool := match s.csLastOf c with | some l => decide (t < l + 10000) | none => false
    if soon ∨ ! s.hostUp ∨ ! s.flag A.LK_UPSTAT 29 ∨ ! s.flag A.LK_UPSTAT 28 then s.satAdd (A.CS_DROP c) 31 0 1
    else
      let r := s.stageAccess 8 true 0
      if ! r.2 then r.1.satAdd (A.CS_DROP c) 31 0 1
      else
      let s := r.1
      let set := s.csSet c
      let g := csAfter (s.csUsed c)
      let a := s.csSlot c g
      let recs := (set.map (fun ch =>
        s.record ch t (Sparse.get (fun _ => 0) s.host.csIter (c * 64 + ch) == s.ctx ch 12))).flatten
      let head := wordBytes (s.health set) ++ numBytes 8 t ++ numBytes 8 (s.num64 (A.CS_SET_L c) (A.CS_SET_H c))
        ++ numBytes 2 set.length ++ numBytes 1 c ++ numBytes 1 cause ++ numBytes 4 s.logCount
        ++ numBytes 4 s.safeMask ++ wordBytes (s.rd (A.CS_DROP c)) ++ List.replicate 24 (0 : Byte)
      let s1 := ((s.hostWr a (numBytes 4 0)).hostWr (a + 64) recs).hostWr (a + 4) head
      let iters := set.foldl (fun m ch => Sparse.set (fun _ => 0) m (c * 64 + ch) (s.ctx ch 12)) s1.host.csIter
      { s1 with host := { s1.host with
          csLast := Sparse.set (fun _ => none) s1.host.csLast c (some t), csIter := iters,
          csPub := s1.host.csPub ++ [(c, g, t)], csHist := s1.host.csHist ++ [(c, g, t)] } }

/-- A stream starts anew: the first generation is 1, and a slot that was being written keeps GEN = 0 (R394). -/
def csRestart (s : State) (c : Nat) : State :=
  let s1 := ((s.wr (A.CS_GEN c) 0).wr (A.CS_DT_L c) 0).wr (A.CS_DT_H c) 0
  { s1 with host := { s1.host with
      csLast := Sparse.set (fun _ => none) s1.host.csLast c none,
      csPub := s1.host.csPub.filter (fun p => p.1 != c), csHist := s1.host.csHist.filter (fun p => p.1 != c),
      csIter := Sparse.drop (fun k => k / 64 == c) s1.host.csIter } }

/-- A stream whose CFG has just been written: NSLOT outside 2–64 keeps it off (R402). -/
def csCheck (s : State) (c : Nat) (was : Bool) : State :=
  let n := s.fld (A.CS_CFG c) 6 0
  if ! s.flag (A.CS_CFG c) 31 then s.setFlag (A.CS_CFG c) 29 false
  else if n < 2 ∨ 64 < n then (s.setFlag (A.CS_CFG c) 31 false).setFlag (A.CS_CFG c) 29 true
  else
    let s1 := s.setFlag (A.CS_CFG c) 29 false
    if was then s1 else s1.csRestart c

end State

/-- A write of a register of stream `c` by a core or the host (R402): only EN and IRQ change while EN reads 1. -/
def writeCs (c : Nat) (a : Nat) (v : Word) (s : State) : State :=
  let was := s.flag (A.CS_CFG c) 31
  if a = A.CS_CFG c then
    let v' := if was then (s.rd a &&& 0x3FFFFFFF) ||| (v &&& 0xC0000000) else v
    (s.plainWrite a v').csCheck c was
  else if was then s
  else s.plainWrite a v

/-- CONSIST_CONFIG (R381, R402): every register of stream `c` in one step. `ws` are the words of its waybill. -/
def consistConfig (c : Nat) (ws : List Word) (s : State) : State :=
  let w := fun i => ws.getD i 0
  let n := bitsOf (w 9) 7 0
  let cfg := (decide (n ≠ 0)).toNat * 2 ^ 31 + bitsOf (w 9) 8 8 * 2 ^ 30 + bitsOf (w 9) 21 16 * 256
    + (if n = 0 then s.fld (A.CS_CFG c) 6 0 else n)
  let s1 := ((((s.wr (A.CS_BASE_L c) (w 4 &&& 0xFFFFFFC0)).wr (A.CS_BASE_H c) (w 5)).wr (A.CS_SET_L c) (w 6)).wr
    (A.CS_SET_H c) (w 7)).wr (A.CS_PERIOD c) (w 8)
  (s1.wr (A.CS_CFG c) (BitVec.ofNat 32 cfg)).csCheck c false

/-- CONSIST_PERIOD (R392): DT is a multiple of PERIOD; 1–9,999 acts as 10,000. -/
def execConsistPeriod (c : Fin 2) (s : State) : Out :=
  let p := s.num (A.CS_PERIOD c)
  if p = 0 ∨ s.dtC % max p 10000 ≠ 0 ∨ ! s.cdOn then .next s else .next (s.csTrigger c s.dtC 1)

/-- CONSIST_PUBLISH (R394): the body of the oldest snapshot of stream `c` is globally observed; GEN is written. -/
def execConsistPublish (c : Fin 2) (s : State) : Out :=
  match takeFirst (fun p => if p.1 = c.val then some p.2 else none) s.host.csPub with
  | none => .next s
  | some ((g, t), rest) =>
    if ! s.hostUp then .next s
    else
      let s0 := { s with host := { s.host with csPub := rest } }
      let s1 := s0.hostWr (s.csSlot c g) (numBytes 4 g)
      let s2 := ((s1.wr (A.CS_GEN c) (BitVec.ofNat 32 g)).wr64 (A.CS_DT_L c) (A.CS_DT_H c) t).hqCause 3
      .next (if s.flag (A.CS_CFG c) 30 then s2.msix (s.fld (A.CS_CFG c) 13 8) else s2)

end Sys2Proof.Machine
end

