-- ==== Sys2Proof/Machine/Timetable.lean ====
section
/-!
DEFINITION. The timetable (R51–R62): targets, prediction and commit, firing, fallback, cancels and writes of entries, and
the angle entries of the host-queue engine (R383).
-/
namespace Sys2Proof.Machine

namespace State

/-! ### Entries -/

def ttDir (s : State) (e : Nat) : Nat := s.fld (A.TT_CTL e) 29 28
def ttDiv (s : State) (e : Nat) : Nat := s.fld (A.TT_CTL e) 19 12

/-- target_k of entry `e` (R51). -/
def ttTarget (s : State) (e : Nat) (k : Int) : Nat :=
  let off := if s.ttDiv e = 0 then k * (s.num (A.TT_STRIDE e) : Int) else roundDiv (k * 2 ^ 32) (s.ttDiv e)
  toBits 32 ((s.num (A.TT_TGT e) : Int) + off)

/-- P in whole counts, rounded down. -/
def ttPeriod (s : State) (e : Nat) : Nat := if s.ttDiv e = 0 then s.num (A.TT_STRIDE e) else 2 ^ 32 / s.ttDiv e

/-- ACT, DEST, ARG or DIR of a CTL word is invalid (R52, R62). -/
def ttBad (w : Word) : Bool :=
  let act := bitsOf w 23 20
  let dest := bitsOf w 11 4
  let arg := bitsOf w 3 0
  bitsOf w 29 28 == 3 || (match act with
    | 0 | 8 => false
    | 1 | 2 => decide (72 ≤ dest)
    | 3 => decide (48 ≤ dest ∨ 2 ≤ arg)
    | 4 => decide (32 ≤ dest)
    | 5 => decide (64 ≤ dest)
    | 6 => decide (2 ≤ dest)
    | 7 => decide (64 ≤ dest ∨ 3 ≤ arg)
    | _ => true)

/-- An action is executed on the field die (R52). -/
def ttField (act : Nat) : Bool := act == 1 || act == 2 || act == 3 || act == 4 || act == 7

/-! ### Prediction (R53) -/

/-- Time in EU until track `n`, at angle `ang` at DT `now`, meets `tgt` in direction `dir`; none while it waits. -/
def predictEu (s : State) (n dir tgt ang now : Nat) : Option Nat :=
  let spd := s.trkSpeed n now
  let rev := s.trkRev n
  if spd = 0 ∨ (dir = 0 ∧ rev) ∨ (dir = 1 ∧ ! rev) then none
  else
    let d0 := if rev then angDiff tgt ang else angDiff ang tgt
    let d := if d0 = 0 then 2 ^ 32 else d0
    -- corr / t0, limited to one half either way
    let qn : Int := s.trkAcc n * (d : Int) * 2 ^ 64
    let qd : Int := 131072000 * ((spd * spd : Nat) : Int)
    let q2 := clampI (-qd) qd (2 * qn)
    -- t0 · (1 − corr / t0), in EU
    some (roundDiv (20 * (d : Int) * 2 ^ 32 * (2 * qd - q2)) (2 * spd * qd.toNat)).toNat

/-- The angle of track `n` at an instant inside DT `dt`, in counts. -/
def trkAngEu (s : State) (n dt eu : Nat) : Nat :=
  let a := s.trkAng64 n dt
  let d := sxInt 64 ((s.trkAng64 n (dt + 1) + 2 ^ 64 - a) % 2 ^ 64)
  ((a : Int) + d * (eu : Int) / 20).toNat / 2 ^ 32 % 2 ^ 32

/-- The step of `k` after a firing (R55). -/
def kStep (rev : Bool) (k : Int) : Int := if rev then k - 1 else k + 1

/-- Targets predicted less than 24 ns after a firing at `t` are skipped (R55). -/
def ttSkip (e ang t : Nat) (rev : Bool) : Nat → State → State
  | 0, s => s
  | f + 1, s =>
    let h := s.getTt e
    match s.predictEu (s.ttTrk e) (s.ttDir e) (s.ttTarget e h.k) ang t with
    | some d =>
      if d < 480 then
        ttSkip e ang t rev f ((s.setTt e { h with k := kStep rev h.k }).satAdd (A.TT_STAT e) 22 15 1)
      else s
    | none => s

/-- Entry `e` is a candidate for prediction: enabled, valid, uncommitted, on a track that is not lost (R53). -/
def ttOpen (s : State) (e : Nat) : Bool :=
  s.ttEn e && ! s.ttCfgErr e && (s.getTt e).commit.isNone && ! s.trkLost (s.ttTrk e)

/-- A predicted instant that lies within 64 ns of `now` commits, not earlier than 24 ns after it: the instant in EU, and
NEAR. -/
def commitAt (now d : Nat) : Option (Nat × Bool) :=
  if d ≤ 1280 then some (instant now 0 + max d 480, decide (d < 480)) else none

/-- One step of prediction for entry `e` (R53). -/
def ttPredictOne (e : Nat) (s : State) : State :=
  if ! s.ttOpen e then s
  else
    let h := s.getTt e
    let n := s.ttTrk e
    let now := s.dtC
    let tgt := s.ttTarget e h.k
    match s.predictEu n (s.ttDir e) tgt (s.trkAng n now) now with
    | none => (s.setTt e { h with pred := none }).ttShowPred e
    | some d =>
      match commitAt now d with
      | none => (s.setTt e { h with pred := some (instant now d) }).ttShowPred e
      | some (t, near) =>
        let ctl := s.rd (A.TT_CTL e)
        -- the committed time is a DT nanosecond, and for PWM_SYNC also the EU within it (R54)
        let eu := if bitsOf ctl 23 20 = 3 then t % euPerNs else 0
        let c : TtCommit := ⟨t / euPerNs, eu, s.trkRev n, tgt, bitsOf ctl 23 20, bitsOf ctl 11 4, bitsOf ctl 3 0,
          n, s.ttTok⟩
        let s1 := ({ s with ttTok := s.ttTok + 1 }.setTt e
          { h with pred := none, commit := some c, lastCommit := some (instant c.dt c.eu), revd := false }).ttShowPred e
        let s2 := s1.setFlag (A.TT_STAT e) 30 true
        let s3 := if near then s2.setFlag (A.TT_STAT e) 27 true else s2
        if ttField c.act then s3.sendF (.ttCommit e c) else { s3 with ttExec := s3.ttExec ++ [⟨e, false, c⟩] }

/-- The effect kind of a waybill (R380). -/
def wbEff (w : WbPend) : Nat := bitsOf (w.ws.getD 0 0) 10 8

/-- The angle entries of the host-queue engine (R383): a commit gives the waybill its instant; a loss holds it. -/
def ttPredictWb (s : State) : State :=
  { s with host := { s.host with wbs := s.host.wbs.map (fun (w : WbPend) =>
      if wbEff w = 3 ∧ w.angAt.isSome ∧ w.t.isNone then
        let n := bitsOf (w.ws.getD 3 0) 3 0
        if s.trkLost n then w
        else match s.predictEu n (bitsOf (w.ws.getD 3 0) 9 8) (w.ws.getD 2 0).toNat (s.trkAng n s.dtC) s.dtC with
          | none => w
          | some d => match commitAt s.dtC d with
            | some (t, _) => { w with t := some (t / euPerNs) }
            | none => w
      else w) } }

/-! ### Firing (R54–R58) -/

/-- The TT block records a firing of entry `e`: `late` LATEFIRE, `fb` a fallback (R54–R57).  A fallback leaves a commit of
the entry, its prediction and `k` as they are.  DESIGN CHOICE (R51, assumption 124): a one-shot entry (STRIDE = DIV = 0)
that is rewritten while it is committed keeps EN after the committed firing, and a fallback firing of a one-shot entry
leaves EN set, so that the entry can fire again after the track recovers. -/
def ttRecord (e : Nat) (c : TtCommit) (late fb : Bool) (s : State) : State :=
  let h := s.getTt e
  let t := instant c.dt c.eu
  let lost := s.trkLost c.trk
  let ang := s.trkAngEu c.trk c.dt c.eu
  let w0 := setBit (setBit (s.rd (A.TT_STAT e)) 31 true) 30 (fb && h.commit.isSome)
  let w1 := if late then setBit w0 26 true else w0
  let w2 := if ! fb ∧ (h.revd ∨ s.trkRev c.trk ≠ c.rev) then setBit w1 29 true else w1
  let w3 := if lost ∨ fb then setBit w2 28 true else w2
  let once := ! fb && ! h.restart && s.ttDiv e == 0 && s.num (A.TT_STRIDE e) == 0
  let s1 := (s.wr (A.TT_STAT e) w3).setFlag (A.TT_FIRED (e / 32)) (e % 32) true
  let s2 := s1.wr (A.TT_ERR e) (BitVec.ofNat 32 (angDiff c.tgt ang))
  let h3 : TtHid :=
    if fb then { h with fbAt := none, lastFire := some t,
                        lastCommit := if h.commit.isSome then h.lastCommit else some t }
    else { h with commit := none, pred := none, lastCommit := some t, lastFire := some t,
                  k := if h.restart then 0 else kStep c.rev h.k, restart := false, revd := false }
  let s3 := (s2.setTt e h3).ttShowPred e
  if ! s.ttEn e then s3
  else
    let s4 := if s.trkLost (s.ttTrk e) ∧ h3.commit.isNone then s3.setFlag (A.TT_STAT e) 25 true else s3
    if once then s4.setFlag (A.TT_CTL e) 31 false
    else if fb ∨ s.trkLost (s.ttTrk e) then s4
    else
      let p := max 1 (s.ttPeriod e)
      ttSkip e ang c.dt c.rev (24 * s.trkSpeed (s.ttTrk e) c.dt / 2 ^ 32 / p + 2) s4

/-- Two firings name one destination so that only one takes effect (R58). -/
def ttSame (x y : TtExec) : Bool :=
  x.c.act == y.c.act && (match x.c.act with
    | 3 | 4 | 5 | 6 => x.c.dest == y.c.dest
    | 8 => x.c.arg == y.c.arg
    | _ => false)

/-- The action of firing `x` among those that fire in the same nanosecond, in rising order of entries (R52, R58). -/
def ttAction (all : List TtExec) (x : TtExec) (s : State) : State :=
  let c := x.c
  if all.any (fun y => decide (y.entry < x.entry) && ttSame y x) then s
  else
    match c.act with
    | 1 => s.winEvent c.dest (instant c.dt 0) true false
    | 2 => s.winEvent c.dest (instant c.dt 0) false true
    | 3 =>
      let t := (all.filter (fun y => ttSame y x)).foldl (fun m y => min m (instant y.c.dt y.c.eu)) (instant c.dt c.eu)
      s.pwmSync c.dest c.arg t
    | 4 => s.tcAct c.dest
    | 5 => (s.noteTask c.dest (fun h => { h with fired := true })).releaseTask c.dest c.dt 3 false
    | 6 => s.csTrigger c.dest c.dt 0
    | 7 => s.driveGpa c.dest c.arg
    | 8 => s.raiseVec (192 + c.arg)
    | _ => s

/-- Firings put in rising order of entries. -/
def insEntry (x : TtExec) : List TtExec → List TtExec
  | [] => [x]
  | y :: l => if x.entry ≤ y.entry then x :: y :: l else y :: insEntry x l

/-- The firings of one nanosecond take effect, and the TT block records those that it still knows (R54, R58).  A late one
takes effect now, and is recorded at its committed time. -/
def ttFireAll (fs : List TtExec) (late : Bool) (s : State) : State :=
  let fs := fs.foldr insEntry []
  let acts := if late then fs.map (fun x => { x with c := { x.c with dt := s.dtF, eu := 0 } }) else fs
  let s1 := forEach acts (ttAction acts) s
  forEach fs (fun x t =>
    match (t.getTt x.entry).commit with
    | some c => if c.tok = x.c.tok then t.ttRecord x.entry c late false else t
    | none => t) s1

/-- An executor's commit is due. -/
def ttDue (s : State) (x : TtExec) : Bool := decide (x.c.dt ≤ if x.field then s.dtF else s.dtC)

/-! ### Writes (R51, R57, R59) -/

/-- `k` restarts at 0: now, or after the committed firing (R59). -/
def ttRestart (s : State) (e : Nat) : State :=
  let h := s.getTt e
  if h.commit.isSome then s.setTt e { h with restart := true }
  else (s.setTt e { h with k := 0, pred := none }).ttShowPred e

/-- A committed firing of entry `e` is cancelled. -/
def ttCancelled (s : State) (e : Nat) : State :=
  let h := s.getTt e
  ((s.setTt e { h with commit := none, restart := false, revd := false, k := if h.restart then 0 else h.k }).setFlag (A.TT_STAT e) 30
    false).setFlag (A.TT_STAT e) 23 true

/-- EN of entry `e` clears (R59): a firing at least 16 ns ahead is cancelled, by a message when it lies on the field die. -/
def ttDisable (s : State) (e : Nat) : State :=
  let h := s.getTt e
  let s1 := ((s.setTt e { h with fbAt := none, pred := none }).setFlag (A.TT_STAT e) 25 false).ttShowPred e
  match h.commit with
  | none => s1
  | some c =>
    if c.dt < s.dtC + 16 then s1
    else if ttField c.act then s1.sendF (.ttCancel e c.tok)
    else { s1.ttCancelled e with ttExec := s1.ttExec.filter (fun x => x.entry != e || x.field) }

/-- An entry that is enabled, or bound to another track, while its track is lost holds at once (R57). -/
def ttHold (s : State) (e : Nat) : State :=
  if s.trkLost (s.ttTrk e) then
    ((s.setTt e { s.getTt e with fbAt := none, pred := none }).setFlag (A.TT_STAT e) 25 true).ttShowPred e
  else (s.setTt e { s.getTt e with fbAt := none }).setFlag (A.TT_STAT e) 25 false

end State

/-- A write of register `r` of entry `e` (R59): 0 CTL, 1 TGT, 2 STRIDE, 3 FBDLY, 4 STAT. -/
def writeTt (e r : Nat) (v ev : Word) (s : State) : State :=
  match r with
  | 0 =>
    let was := s.rd (A.TT_CTL e)
    let s1 := s.plainWrite (A.TT_CTL e) v
    let new := s1.rd (A.TT_CTL e)
    let s2 := (((s1.setFld (A.TT_STAT e) 22 15 0).setFlag (A.TT_STAT e) 24 (State.ttBad new))).ttRestart e
    if bitOf was 31 ∧ ! bitOf new 31 then s2.ttDisable e
    else if bitOf new 31 ∧ (! bitOf was 31 ∨ bitsOf was 27 24 ≠ bitsOf new 27 24) then s2.ttHold e
    else s2
  | 1 => (s.plainWrite (A.TT_TGT e) v).ttRestart e
  | 2 => (s.plainWrite (A.TT_STRIDE e) v).ttRestart e
  | 3 => s.plainWrite (A.TT_FBDLY e) v
  | 4 =>
    let s1 := s.plainWrite (A.TT_STAT e) v ev
    s1.setFlag (A.TT_FIRED (e / 32)) (e % 32) (s1.flag (A.TT_STAT e) 31)
  | _ => s

/-- TT_ENTRY_WRITE: a write of register `r` of entry `e`. -/
def execTtEntryWrite (e : Fin 512) (r : Fin 8) (v : Word) (s : State) : Out := .next (writeTt e r v 0 s)

/-- A write of TT_FIREDj: the mirror bit and the entry's FIRED clear together (R62). -/
def writeTtFired (j : Nat) (v ev : Word) (s : State) : State :=
  forUpTo 32 (fun b t =>
    if bitOf v b || bitOf ev b then
      (t.setFlag (A.TT_FIRED j) b (bitOf ev b)).setFlag (A.TT_STAT (32 * j + b)) 31 (bitOf ev b)
    else t) s

/-- TT_FIRED_WRITE. -/
def execTtFiredWrite (j : Fin 16) (v : Word) (s : State) : Out := .next (writeTtFired j v 0 s)

/-- A read of TTnnn_PRED_L latches PRED_H and PREDEU (R62). -/
def readPredL (m : Master) (e : Nat) (s : State) : Word × State :=
  let s1 := s.setLatch m (A.TT_PRED_H e) (s.rd (A.TT_PRED_H e))
  (s.rd (A.TT_PRED_L e), s1.setLatch m (A.TT_STAT e) (BitVec.ofNat 32 (s.fld (A.TT_STAT e) 4 0)))

/-- PRED_L_READ. -/
def execPredLRead (m : Master) (e : Fin 512) (s : State) : Out :=
  let r := readPredL m e s
  .next (r.2.setData m r.1)

/-- TT_PREDICT: at a DT that is a multiple of 16, with TT_CTRL.EN. -/
def execTtPredict (s : State) : Out :=
  if s.dtC % 16 ≠ 0 ∨ ! s.flag A.TT_CTRL 0 ∨ ! s.cdOn then .next s
  else .next (forUpTo 512 State.ttPredictOne s).ttPredictWb

/-- TT_COMMIT: the oldest commit on the link reaches its executor; one that arrives after its time fires at once (R54). -/
def execTtCommit (s : State) : Out :=
  match takeHead (fun m => match m with | .ttCommit e c => some (e, c) | _ => none) s.toField with
  | none => .next s
  | some ((e, c), rest) =>
    let s1 := { s with toField := rest }
    if c.dt < s.dtF then .next (s1.ttFireAll [⟨e, true, c⟩] true)
    else .next { s1 with ttExec := s1.ttExec ++ [⟨e, true, c⟩] }

/-- TT_FIRE: the earliest nanosecond with commits that are due. -/
def execTtFire (s : State) : Out :=
  match s.ttExec.filter s.ttDue with
  | [] => .next s
  | x :: l =>
    let d := l.foldl (fun m y => min m y.c.dt) x.c.dt
    let hit := fun (y : TtExec) => s.ttDue y && y.c.dt == d
    .next ({ s with ttExec := s.ttExec.filter (fun y => ! hit y) }.ttFireAll (s.ttExec.filter hit) false)

/-- TT_FALLBACK_FIRE (R57): FBDLY ns after the loss of its track, entry `e` fires once and then holds.  One that became
invalid meanwhile never fires (R52). -/
def execTtFallbackFire (e : Fin 512) (s : State) : Out :=
  match (s.getTt e).fbAt with
  | none => .next s
  | some d =>
    if s.dtC < d then .next s
    else if s.ttCfgErr e then
      let s1 := s.setTt e { s.getTt e with fbAt := none }
      .next (if s.trkLost (s.ttTrk e) ∧ (s.getTt e).commit.isNone then s1.setFlag (A.TT_STAT e) 25 true else s1)
    else
      let ctl := s.rd (A.TT_CTL e)
      let n := s.ttTrk e
      let c : TtCommit := ⟨d, 0, s.trkRev n, s.ttTarget e (s.getTt e).k, bitsOf ctl 23 20, bitsOf ctl 11 4, bitsOf ctl 3 0, n, 0⟩
      let x : TtExec := ⟨e, State.ttField c.act, c⟩
      let s1 := if State.ttField c.act ∧ ! s.linkUp then s else State.ttAction [x] x s
      .next (State.ttRecord e c false true s1)

/-- TT_CANCEL (R59): the oldest cancel on the link reaches the executor; before the committed time it cancels the firing. -/
def execTtCancel (s : State) : Out :=
  match takeHead (fun m => match m with | .ttCancel e k => some (e, k) | _ => none) s.toField with
  | none => .next s
  | some ((e, k), rest) =>
    let s1 := { s with toField := rest }
    if s.ttExec.any (fun x => x.field && x.entry == e && x.c.tok == k && decide (s.dtF < x.c.dt)) then
      let s2 := { s1 with ttExec := s1.ttExec.filter (fun x => ! (x.field && x.entry == e && x.c.tok == k)) }
      match (s2.getTt e).commit with
      | some c => .next (if c.tok = k then s2.ttCancelled e else s2)
      | none => .next s2
    else .next s1

end Sys2Proof.Machine
end

