-- ==== Sys2Proof/Machine/FieldCmds.lean ====
section
/-!
DEFINITION. Commands of the field die that meet timetable actions: register writes and triggers of window decimators, units
and counters.  In the same field-clock cycle the timetable's action on a destination applies first (R58, R76).
-/
namespace Sys2Proof.Machine

namespace State

/-- The commits of the field die that are due fire, the earliest nanosecond first, `f` of them at most. -/
def ttFirstN : Nat → State → State
  | 0, s => s
  | f + 1, s =>
    match s.ttExec.filter (fun x => x.field && s.ttDue x) with
    | [] => s
    | x :: l =>
      let d := l.foldl (fun m y => min m y.c.dt) x.c.dt
      let hit := fun (y : TtExec) => y.field && y.c.dt == d
      ttFirstN f ({ s with ttExec := s.ttExec.filter (fun y => ! hit y) }.ttFireAll (s.ttExec.filter hit) false)

/-- The state in which every timetable action that is due on the field die has been applied. -/
def ttFirst (s : State) : State := ttFirstN s.ttExec.length s

end State

/-- SN_CFG_WRITE. -/
def execSnCfgWrite (c : Fin 72) (v : Word) (s : State) : Out := .next (writeSnCfg c v s.ttFirst)

/-- WCFG_WRITE. -/
def execWcfgWrite (c : Fin 72) (v : Word) (s : State) : Out := .next (writeWcfg c v s.ttFirst)

/-- WCTL_START. -/
def execWctlStart (c : Fin 72) (s : State) : Out :=
  let s0 := s.ttFirst
  .next (s0.winEvent c (instant s0.dtF 0) true false)

/-- WCTL_END. -/
def execWctlEnd (c : Fin 72) (s : State) : Out :=
  let s0 := s.ttFirst
  .next (s0.winEvent c (instant s0.dtF 0) false true)

/-- A register write of the control die to a block that needs its epoch (R17, R97, R135, R415): made under the epoch that the
control die holds, it applies, or the field die rejects it. -/
def underEpoch (s : State) (f : State → State) : State :=
  let e := s.num A.CPL_EPOCH
  if s.epochOk e then f s.ttFirst else rejectTransfer (s.rejectKind (some e)) s

/-- PU_CTL_WRITE: unit 0–15 PU, 16–47 GP00–GP31. -/
def execPuCtlWrite (u : Fin 48) (v : Word) (s : State) : Out := .next (underEpoch s (writeUnitCtl u v))

/-- PU_SET_WRITE. -/
def execPuSetWrite (u : Fin 48) (b : Fin 17) (v : Word) (s : State) : Out :=
  .next (if b.val < uSetLen u then underEpoch s (writeUnitSet u b v) else s)

/-- BL_CLR. -/
def execBlClr (v : Word) (s : State) : Out := .next (underEpoch s (writeBlClr v))

/-- BL_SS_CFG_WRITE. -/
def execBlSsCfgWrite (su : Fin 24) (v : Word) (s : State) : Out := .next (underEpoch s (writeSsCfg su v))

/-- CW_CFG_WRITE. -/
def execCwCfgWrite (i : Fin 112) (thr : Bool) (v : Word) (s : State) : Out := .next (underEpoch s (writeCmp i thr v))

/-- TRIGGER_CROSSING (R111): at this instant the counter crosses TRGk. -/
def execTriggerCrossing (u : Fin 48) (k : Fin 2) (eu : Fin 20) (s : State) : Out := .next (s.ttFirst.trgCrossing u k eu)

/-- SEAL: a write of SEAL (R98). -/
def execSeal (u : Fin 48) (seq : BitVec 8) (s : State) : Out :=
  .next (underEpoch s (fun t => t.sealUnit u seq.toNat))

/-- GP_GSEAL. -/
def execGpGseal (g : Fin 8) (seq : BitVec 8) (s : State) : Out :=
  .next (underEpoch s (fun t => (sealGroup g seq.toNat false t).1))

/-- TC_TRIGGER: at a field-clock edge a waiting hardware trigger applies TRG.ACT (R352). -/
def execTcTrigger (n : Fin 32) (s : State) : Out :=
  let s0 := s.ttFirst
  let h := s0.getTc n
  if h.trig = 0 ∨ ! s0.fclkEdge then .next s0 else .next ((s0.setTc n { h with trig := 0 }).tcAct n)

/-- TC_ARM. -/
def execTcArm (n : Fin 32) (s : State) : Out := .next (s.ttFirst.tcArm n)

/-- TC_RESTART. -/
def execTcRestart (n : Fin 32) (s : State) : Out := .next (s.ttFirst.tcRestart n)

/-- TC_CAPTURE. -/
def execTcCapture (n : Fin 32) (s : State) : Out := .next (s.ttFirst.tcCapture n)

/-- TC_CTL_WRITE. -/
def execTcCtlWrite (n : Fin 32) (v : Word) (s : State) : Out := .next (writeTcCtl n v s.ttFirst)

end Sys2Proof.Machine
end

