-- ==== Sys2Proof/Machine/Odometer.lean ====
section
/-!
DEFINITION. The odometer (R448–R457): monitors, supply stepping, margin states, the 900 MHz bogie clock and the margin
report.
-/
namespace Sys2Proof.Machine

namespace State

/-- Fault `id` counts as active for some instance (R407). -/
def idActive (s : State) (id : Nat) : Bool := s.active.any (fun e => e.1 / 256 == id && e.2)

/-- Cause `b` of the OD block (R457). -/
def odCause (s : State) (b : Nat) : State :=
  let s1 := s.setFlag A.OD_IRQST b true
  if s.flag A.OD_IRQEN b then s1.raiseVec 244 else s1

def odCode (s : State) : Nat := s.fld A.OD_VCD 3 0

/-- The margin state in force, the highest that holds (R451). -/
def odMargin (s : State) : State :=
  let m := if s.od.slow then 3 else if s.od.exhausted then 2 else if s.od.low.any (fun e => e.2) then 1 else 0
  if m = s.fld A.OD_STAT 31 30 then s else (s.setFld A.OD_STAT 31 30 m).odCause 0

/-- The supply code becomes `c` (R450): a step begins to settle; EXHAUSTED ends below 15, and its fault is active while the code
is 15 (R452). -/
def odStep (s : State) (c : Nat) : State :=
  let h := { s.od with settling := true, good := 0, exhausted := s.od.exhausted && decide (15 ≤ c) }
  let s1 := ({ s with od := h }.setFld A.OD_VCD 3 0 c).odCause 1
  s1.setActive 0xA1 0 (decide (c = 15))

/-- Supply stepping of one evaluation with lowest slack `slack` (R450). While F_CORE_SUPPLY is active there is no step and no
good evaluation counts (assumption 157). -/
def odSupply (s : State) (slack : Int) : State :=
  if ! s.flag A.OD_CTRL 31 ∨ s.od.settling then s
  else
    let target := (s.fld A.OD_SLACKTH 7 0 : Int)
    let hys := (s.fld A.OD_SLACKTH 19 12 : Int)
    let code := s.odCode
    if slack < target then
      if code < 15 then (if s.idActive 0x03 then s else s.odStep (code + 1))
      else if s.od.exhausted then s
      else ({ s with od := { s.od with exhausted := true } }.raiseC 0xA1 0).setActive 0xA1 0 true
    else if target + hys ≤ slack then
      if s.idActive 0x03 then s else
      let g := s.od.good + 1
      if g = 16 ∧ s.fld A.OD_VCD 11 8 < code then s.odStep (code - 1)
      else { s with od := { s.od with good := g } }
    else { s with od := { s.od with good := 0 } }

/-- Drift of output `o` of PU `u` against its baseline; none where it is not checked (R448, R449). -/
def odDrift (s : State) (u o : Nat) : Option Int :=
  let base := s.fld (A.OD_PBASE (6 * u + o)) 23 0
  let p := A.PU_PROP_AH u + 4 * o
  if base = 0 ∨ s.fld p 31 24 < 8 then none else some ((s.fld p 23 0 : Int) - base)

/-- The largest drift of PU `u` and the output that gave it. -/
def odWorst (s : State) (u : Nat) : Option (Int × Nat) :=
  (List.range 6).foldl (fun (m : Option (Int × Nat)) o =>
    match s.odDrift u o, m with
    | some d, some (d', o') => if d' < d then some (d, o) else some (d', o')
    | some d, none => some (d, o)
    | none, m => m) none

/-- A condition of R452 at an evaluation: F_MARGIN_LOW at its onset. -/
def odCond (s : State) (inst : Nat) (b : Bool) : State :=
  let was := Sparse.get (fun _ => false) s.od.low inst
  let s1 := { s with od := { s.od with low := Sparse.set (fun _ => false) s.od.low inst b } }
  if b && ! was then s1.raiseC 0xA0 inst else s1

/-- The evaluation period in ns (R457). -/
def odPeriod (s : State) : Nat := 1000000 * clampN 1 100 (s.fld A.OD_CFG 6 0)

end State

/-- The margin report as an evaluation takes it (R456). -/
def odReport (s : State) : List Byte :=
  let sat16 := fun (d : Int) => numBytes 2 (toBits 16 (clampI (-32768) 32767 d))
  let b := (s.flag A.OD_CLK 0).toNat + 2 * (s.flag A.OD_CTRL 31).toNat + 4 * (s.flag A.OD_STAT 29).toNat
  numBytes 1 (s.fld A.OD_STAT 31 30) ++ numBytes 1 s.odCode ++ numBytes 1 b ++ numBytes 1 (s.fld A.OD_SLACKMON 5 0)
    ++ wordBytes (s.rd A.OD_SLACK) ++ sat16 s.od.roMax ++ numBytes 2 0
    ++ wordBytes (s.rd A.YD_NVWEARMAX) ++ wordBytes (s.rd A.PM_WEARMAX)
    ++ ((List.range 16).map (fun u => sat16 (sxInt 24 (s.fld (A.OD_PDRIFT u) 23 0)))).flatten
    ++ numBytes 8 s.od.evalAt ++ numBytes 4 0

/-- OD_EVALUATE (R448–R452): the monitors give their lowest slack, in ps, the monitor that gave it, and the largest RO
drift; once at each instant. All of the margin report is taken here. -/
def execOdEvaluate (slack : BitVec 32) (om : Fin 64) (ro : BitVec 16) (s : State) : Out :=
  if s.dtC % s.odPeriod ≠ 0 ∨ ! s.cdOn ∨ s.od.evalDone = some s.dtC then .next s
  else
    let s1 := (s.wr A.OD_SLACK slack).setFld A.OD_SLACKMON 5 0 om
    let s2 := { s1 with od := { s1.od with evalAt := s.dtC, evalDone := some s.dtC, roMax := ro.toInt } }
    let s3 := forUpTo 16 (fun u t => match t.odWorst u with
      | some (d, o) => t.wr (A.OD_PDRIFT u) (BitVec.ofNat 32 (o * 2 ^ 24 + toBits 24 d))
      | none => t.wr (A.OD_PDRIFT u) 0) s2
    let s4 := s3.odSupply slack.toInt
    let s5 := s4.odCond 0 (decide (slack.toInt < (s.fld A.OD_SLACKLOW 7 0 : Int)))
    let s6 := s5.odCond 1 (decide ((s.fld A.OD_ROTH 15 0 : Int) < ro.toInt))
    let s7 := forUpTo 16 (fun u t => t.odCond (0x40 + u) (match t.odWorst u with
      | some (d, _) => decide ((s.fld A.OD_PTH 16 0 : Int) < d)
      | none => false)) s6
    let s8 := s7.odMargin
    .next { s8 with od := { s8.od with report := odReport s8 } }

/-- SUPPLY_STEP_SETTLED (R450). -/
def execSupplyStepSettled (s : State) : Out := .next { s with od := { s.od with settling := false } }

/-- A write of OD_CTRL.PCAP (R449): every output with eight measurements takes its TOFF as baseline. -/
def odPcap (s : State) : State :=
  forUpTo 16 (fun u s => forUpTo 6 (fun o t =>
    let p := A.PU_PROP_AH u + 4 * o
    if t.fld p 31 24 < 8 then t else t.wr (A.OD_PBASE (6 * u + o)) (BitVec.ofNat 32 (t.fld p 23 0))) s) s

/-- OD_PCAP. -/
def execOdPcap (s : State) : Out := .next (odPcap s)

/-- A relief is in state ADOPTING or CATCHUP (R453). -/
def State.relieving (s : State) : Bool := let st := s.fld A.BG_RELIEF 31 29; st == 1 || st == 2

/-- A write of OD_CLK (R453, R454). -/
def writeOdClk (v : Word) (s : State) : State :=
  let refuse := (s.setFlag A.OD_STAT 28 true).odCause 2
  if bitOf v 0 then
    if ! s.flag A.OD_STAT 29 ∨ s.relieving then refuse
    else { (s.setFlag A.OD_STAT 29 false).setFlag A.OD_CLK 0 true with od := { s.od with clkTo := some true } }
  else if 15 ≤ s.odCode ∨ s.relieving then refuse
  else if ! s.flag A.OD_CLK 0 then s
  else { s.setFlag A.OD_CLK 0 false with od := { s.od with clkTo := some false } }

/-- OD_CLK_SEL_900. -/
def execOdClkSel900 (s : State) : Out := .next (writeOdClk 1 s)
/-- OD_CLK_SEL_1G. -/
def execOdClkSel1g (s : State) : Out := .next (writeOdClk 0 s)

/-- BOGIE_CLOCK_SWITCH (R453): the five bogies change clock together. -/
def execBogieClockSwitch (s : State) : Out :=
  match s.od.clkTo with
  | none => .next s
  | some b => .next ({ s with od := { s.od with clkTo := none, slow := b } }.odMargin)

/-- A write of an OD register (R457). -/
def writeOd (a : Nat) (v ev : Word) (s : State) : State :=
  if a = A.OD_CLK then writeOdClk v s
  else if a = A.OD_CTRL then
    let s1 := s.plainWrite a (setBit v 30 false)
    if bitOf v 30 then odPcap s1 else s1
  else s.plainWrite a v ev

end Sys2Proof.Machine
end

