-- ==== Sys2Proof/Machine/Trig.lean ====
section
/-!
DEFINITION. The CORDIC unit (R179). The manual gives each result within bounds: a magnitude within 2^-14 of the exact
one relative to the input magnitude, an angle within 2^15 counts. The model computes the exact result far inside those
bounds and adds a free error that keeps within them (assumption 1).
-/
namespace Sys2Proof.Machine.Trig

open F32

/-- 2π in units of 2^-60. -/
abbrev twoPi60 : Int := 7244019458077122842

/-- The Taylor sum of degree `2n` (from `k`) with terms in units of 2^-60: `t` the running term, `x2` the square of the
argument. -/
def taylor (x2 : Int) : Nat → Nat → Int → Int
  | 0, _, t => t
  | n + 1, k, t => t + taylor x2 n (k + 2) (-(t * x2 / 2 ^ 60) / (k * (k + 1) : Nat))

/-- Sine and cosine, in units of 2^-60, of an angle in counts within an eighth of a turn of 0. -/
def sinCos8 (r : Int) : Int × Int :=
  let x := r * twoPi60 / 2 ^ 32
  let x2 := x * x / 2 ^ 60
  (taylor x2 8 2 x, taylor x2 8 1 (2 ^ 60))

/-- Sine and cosine of an angle in counts (R8), in units of 2^-60. -/
def sinCos (th : Nat) : Int × Int :=
  let a : Nat := th % 2 ^ 32
  let q : Nat := (a + 2 ^ 29) / 2 ^ 30
  let (s, c) := sinCos8 ((a : Int) - (q * 2 ^ 30 : Nat))
  match q % 4 with
  | 0 => (s, c)
  | 1 => (c, -s)
  | 2 => (-s, -c)
  | _ => (-c, s)

/-- The angle of the vector (x, y) in counts, by halving within its quadrant. -/
def bisect (x y : Int) : Nat → Nat → Nat
  | 0, lo => lo
  | n + 1, lo =>
    let mid := lo + 2 ^ n
    let (s, c) := sinCos mid
    bisect x y n (if 0 ≤ y * c - x * s then mid else lo)

/-- `atan2(y, x)` in counts; 0 for the zero vector. -/
def atan2 (y x : Int) : Nat :=
  if x = 0 ∧ y = 0 then 0
  else if 0 < x ∧ 0 ≤ y then bisect x y 30 0
  else if x ≤ 0 ∧ 0 < y then 2 ^ 30 + bisect y (-x) 30 0
  else if x < 0 ∧ y ≤ 0 then 2 ^ 31 + bisect (-x) (-y) 30 0
  else 3 * 2 ^ 30 + bisect (-y) x 30 0

/-- A signed fraction of magnitude below 1 with 31 bits, taken from a free value. -/
def frac31 (v : BitVec 64) (i : Nat) : Int := sxInt 32 (v.toNat / 2 ^ (32 * i))

/-- The magnitude of (x, y): at least 50 significant bits of the exact root. -/
def hypot (x y : Dy) : Dy :=
  let s := (x.mul x).add (y.mul y)
  if s.m ≤ 0 then ⟨0, 0⟩
  else
    let up : Nat := if s.e % 2 = 0 then 100 else 101
    ⟨Nat.sqrt (s.m.toNat * 2 ^ up), (s.e - up) / 2⟩

/-- A magnitude result: `d` moved by a free part of 2^-14 of the input magnitude `mag`. -/
def withErr (d mag : Dy) (v : BitVec 64) (i : Nat) : Word :=
  ofDy (d.add (mag.mul ⟨frac31 v i * 255, -(31 + 14 + 8)⟩))

/-- An angle result within 2^15 counts of `a`. -/
def angErr (a : Nat) (v : BitVec 64) : Nat := (a + 2 ^ 32 + v.toNat % 65535 - 32767) % 2 ^ 32

/-- ROTATE: (x, y) turned by `th`. Of an input that is not finite the manual states no result. -/
def rotate (x y : Word) (th : Nat) : Word × Word :=
  let v := Config.errBits 1 x y (BitVec.ofNat 32 th)
  if isFinite x ∧ isFinite y then
    let (s, c) := sinCos th
    let sd : Dy := ⟨s, -60⟩
    let cd : Dy := ⟨c, -60⟩
    let a := dy x
    let b := dy y
    let m := hypot a b
    (withErr ((a.mul cd).add (b.mul sd).neg) m v 0, withErr ((a.mul sd).add (b.mul cd)) m v 1)
  else (BitVec.ofNat 32 v.toNat, BitVec.ofNat 32 (v.toNat / 2 ^ 32))

/-- VECTOR: magnitude and angle of (x, y). The angle of the zero vector is not stated. -/
def vector (x y : Word) : Word × Nat :=
  let v := Config.errBits 2 x y 0
  if isFinite x ∧ isFinite y then
    let a := dy x
    let b := dy y
    let e := if a.e ≤ b.e then a.e else b.e
    let xi := a.m * 2 ^ (a.e - e).toNat
    let yi := b.m * 2 ^ (b.e - e).toNat
    let m := hypot a b
    (withErr m m v 0, if xi = 0 ∧ yi = 0 then v.toNat / 2 ^ 32 else angErr (atan2 yi xi) (v >>> 32))
  else (BitVec.ofNat 32 v.toNat, v.toNat / 2 ^ 32)

/-- SINCOS: cosine and sine of `th`; the input magnitude is 1. -/
def sincos (th : Nat) : Word × Word :=
  let v := Config.errBits 3 (BitVec.ofNat 32 th) 0 0
  let (s, c) := sinCos th
  (withErr ⟨c, -60⟩ ⟨1, 0⟩ v 0, withErr ⟨s, -60⟩ ⟨1, 0⟩ v 1)

end Sys2Proof.Machine.Trig
end

