-- ==== Sys2Proof/Machine/Vec.lean ====
section
/-!
DEFINITION. The vector limiter and the space-vector unit (R177).
-/
namespace Sys2Proof.Machine

open F32

/-- `x · num / den` of positive `num` and `den`, rounded toward zero so that a magnitude never exceeds its limit. -/
def scaleTrunc (x num den : Dy) : Word :=
  if x.m = 0 ∨ num.m ≤ 0 ∨ den.m ≤ 0 then 0
  else
    let n := x.m.natAbs * num.m.toNat * 2 ^ (den.m.toNat.log2 + 64)
    let q := n / den.m.toNat
    let sh := q.log2 - 23
    ofDy ⟨(if x.m < 0 then -1 else 1) * ((q / 2 ^ sh : Nat) : Int), x.e + num.e - den.e - (den.m.toNat.log2 + 64 : Nat) + sh⟩

/-- LIMV: (x, y) scaled to magnitude `|b|` when it is longer, direction kept; whether it was. Of inputs that are not finite
the manual states no result. -/
def limv (x y b : Word) : (Word × Word) × Bool :=
  if isFinite x ∧ isFinite y ∧ isFinite b then
    let dx := dy x
    let dyy := dy y
    let lim := dy (F32.abs b)
    let sq := (dx.mul dx).add (dyy.mul dyy)
    if (lim.mul lim).lt sq then
      let m := Trig.hypot dx dyy
      ((scaleTrunc dx lim m, scaleTrunc dyy lim m), true)
    else ((flush x, flush y), false)
  else
    let v := Config.errBits 4 x y b
    ((BitVec.ofNat 32 v.toNat, BitVec.ofNat 32 (v.toNat / 2 ^ 32)), Config.freePick 4 x y)

/-- The result of an SVU operation: duties, sector 1–6, and whether the input was scaled. -/
structure Svu where
  a : Word
  b : Word
  c : Word
  sector : Nat
  hi : Bool
  deriving DecidableEq, Repr

/-- SVU (R177): centred duties of the vector (α, β), with 1.0 equal to the DC-link voltage. Sector k spans 60(k − 1)° to
60k°; the sector of the zero vector is not stated. -/
def svu (al be : Word) : Svu :=
  let l := limv al be 0x3F13CD3A
  let x := l.1.1
  let y := l.1.2
  let va := x
  let h := F32.mul x 0xBF000000
  let vb := F32.fma y 0x3F5DB3D7 h
  let vc := F32.fma (F32.neg y) 0x3F5DB3D7 h
  let ab := F32.lt va vb
  let bc := F32.lt vb vc
  let ca := F32.lt vc va
  let mx := if ab then (if bc then vc else vb) else (if ca then va else vc)
  let mn := if F32.lt vb va then (if bc then vb else vc) else (if ca then vc else va)
  let ofs := F32.fma (F32.add mx mn) 0xBF000000 0x3F000000
  let d := fun (v : Word) => (F32.clamp (F32.add ofs v) 0 one).1
  let lt := F32.lt
  let le := F32.le
  let sec :=
    if lt vb va ∧ le vc vb then 1
    else if le va vb ∧ lt vc va then 2
    else if lt vc vb ∧ le va vc then 3
    else if le vb vc ∧ lt va vb then 4
    else if lt va vc ∧ le vb va then 5
    else if le vc va ∧ lt vb vc then 6
    else (Config.errBits 5 al be 0).toNat % 6 + 1
  ⟨d va, d vb, d vc, sec, l.2⟩

end Sys2Proof.Machine
end

