-- ==== Sys2Proof/Machine/Routines.lean ====
section
/-!
DEFINITION. The ROM routines of the bogies (R200–R213). A routine is a function of the context, the track and the
maps at its commit and of the slots at its start; it answers the context words that it writes, its flags, what it stages and how it commits.
The order of the float operations within a formula is a DESIGN CHOICE (assumption 14).
-/
namespace Sys2Proof.Machine

open F32

/-- What a routine answers: the state (lookups and free values change it), context words to be written, RSTAT flags, staged
destinations (0–5 s0–s5, 6–10 track write, 11–14 CF0–CF3), whether RDDONE is set, and how a task with missing inputs
counts in MISSCNT. -/
structure ROut where
  s : State
  wr : List (Nat × Word) := []
  fl : Nat := 0
  stg : List (Nat × Word) := []
  done : Bool := false
  miss : Bool := false

/-- RSTAT bits 15:0 (R204). -/
def fMISS : Nat := 1
def fSAT : Nat := 2
def fMAPFB : Nat := 4
def fTRKLOST : Nat := 8
def fVLIM : Nat := 16
def fILIM : Nat := 32
def fSPLIM : Nat := 64
def fZEROVEC : Nat := 128
def fRDACTIVE : Nat := 256
def fPARERR : Nat := 512

/-- RSTAT after a task with flags `fl` (R204): bits 31:16 are sticky. -/
def rstat (old : Word) (fl : Nat) : Word :=
  let st := (if fl.testBit 0 then 2 ^ 22 else 0) + (if fl.testBit 2 then 2 ^ 23 else 0)
    + (if fl.testBit 7 then 2 ^ 24 else 0) + (if fl.testBit 9 then 2 ^ 25 else 0)
  (old &&& 0xFFFF0000#32) ||| BitVec.ofNat 32 (fl + st)

/-- `m` when `b`. -/
def flagIf (b : Bool) (m : Nat) : Nat := if b then m else 0

namespace REnv

/-- A context word: the words that R205 clears read 0 in a first task. -/
def c (e : REnv) (s : State) (w : Nat) : Word :=
  if e.first ∧ (w = 40 ∨ w = 42 ∨ w = 43 ∨ (96 ≤ w ∧ w ≤ 127)) then 0 else s.ctx e.ch w

/-- A context word that is an integrator: 0 in STANDBY (R205). -/
def integ (e : REnv) (s : State) (w : Nat) : Word := if e.standby then 0 else e.c s w

/-- A usable slot (R201). -/
def slot (e : REnv) (_ : State) (j : Nat) : Option Slot :=
  let v := e.slots.getD j {}
  if v.valid && ! bitOf v.flags 27 && ! e.task.und.testBit j then some v else none

/-- ITOF23 of a slot's code, times a scale word (R202). -/
def phys (e : REnv) (s : State) (scale : Nat) (v : Slot) : Word :=
  F32.mul (ofDy ⟨v.code.toInt, -23⟩) (s.ctx e.ch scale)

/-- Current and voltage of a slot; of a slot that is not usable, 0 (the caller does not use it). -/
def cur (e : REnv) (s : State) (j : Nat) : Word := match e.slot s j with | some v => e.phys s 38 v | none => 0
def volt (e : REnv) (s : State) (j : Nat) : Word := match e.slot s j with | some v => e.phys s 39 v | none => 0

/-- All of the named slots are usable. -/
def usable (e : REnv) (s : State) (js : List Nat) : Bool := js.all (fun j => (e.slot s j).isSome)

/-- SAT: one of the usable slots among those carries it (R201). -/
def sat (e : REnv) (s : State) (js : List Nat) : Nat :=
  flagIf (js.any (fun j => match e.slot s j with | some v => bitOf v.flags 30 | none => false)) fSAT

/-- The bound track (R143, R171). -/
def trk (e : REnv) (s : State) : Option Nat :=
  let w := s.ctx e.ch 2
  if bitOf w 21 then some (bitsOf w 25 22) else none

/-- TRKLOST: the bound track is lost or stalled (R48, R208). -/
def trkBad (e : REnv) (s : State) : Bool :=
  match e.trk s with
  | some n => s.trkLost n || (n != 0 && s.flag (A.TRK_STAT n) 29)
  | none => false

/-- The signed speed of the bound track at the release, counts per ns as 32.32. -/
def spd (e : REnv) (s : State) : Int :=
  match e.trk s with
  | some n => if s.trkRev n then -(s.trkSpeed n e.task.rel : Int) else (s.trkSpeed n e.task.rel : Int)
  | none => 0

/-- Its angle at a DT, 32.32. -/
def ang (e : REnv) (s : State) (t : Nat) : Int :=
  match e.trk s with
  | some n => (s.trkAng64 n t : Int)
  | none => 0

/-- The DT at which the word that reads select 46 issues: the manual does not say which one it is, so a free one between the
first word and now (assumption 48). -/
def issueDt (e : REnv) (s : State) : Nat :=
  e.start + (Config.errBits 9 (BitVec.ofNat 32 e.rid) (BitVec.ofNat 32 e.start) (BitVec.ofNat 32 s.dtC)).toNat % (s.dtC - e.start + 1)

/-- ω in rad/s (R207). -/
def omega (e : REnv) (s : State) : Word := F32.mul (F32.mul (ofDy ⟨e.spd s, -32⟩) 0x30C90FDB) 0x4E6E6B28

/-- DT that passed between the ends of S0 of the last task and of this one (R210), as a float in seconds. -/
def dt (e : REnv) (s : State) : Word :=
  let last := (s.getCh e.ch).s0end
  let t := match e.slot s 0 with | some v => v.ts | none => last
  if last = 0 then 0 else F32.mul (F32.ofInt ((t : Int) - last)) 0x3089705F

/-- A compare: `d × TPL0`, rounded (R207, R178). -/
def cmp (e : REnv) (s : State) (d : Word) : Word :=
  wordOf (F32.toInt (F32.mul d (F32.ofInt (s.ctx e.ch 15).toNat)))

/-- `n` staged words, or fields, that the manual does not state: free values. -/
def free (s : State) (ds : List Nat) : List (Nat × Word) × State :=
  ds.foldl (fun (acc : List (Nat × Word) × State) d =>
    let r := acc.2.fresh
    (acc.1 ++ [(d, BitVec.ofNat 32 r.1.toNat)], r.2)) ([], s)

end REnv

/-- A value driven toward a target by at most `rate` per task; 0: at once (R203, R212). Answers whether it was limited. -/
def rampTo (cur tgt rate : Word) : Word × Bool :=
  if F32.isZero rate then (tgt, false)
  else
    let d := F32.sub tgt cur
    if F32.le (F32.abs d) rate then (tgt, false)
    else (F32.add cur (if F32.signOf d then F32.neg rate else rate), true)

/-- The effective set-point of a task (R203, R207, R212) and the SPLIM flag. -/
def setPoint (e : REnv) (s : State) : Word × Nat :=
  if e.rd then ((rampTo (e.c s 40) 0 (s.ctx e.ch 34)).1, 0)
  else let r := rampTo (e.c s 40) (s.ctx e.ch 32) (s.ctx e.ch 33); (r.1, flagIf r.2 fSPLIM)

/-- The set-point of a routine whose ramped quantity is another one. -/
def setPoint' (e : REnv) (s : State) : Word × Nat :=
  let r := rampTo (e.c s 40) (s.ctx e.ch 32) (s.ctx e.ch 33); (r.1, flagIf r.2 fSPLIM)

/-- The quantity in use of a routine that ramps a parameter toward `tgt` (R212), and what is kept of it. -/
def rampPar (e : REnv) (par tgt : Word) (s : State) : Word × List (Nat × Word) :=
  if e.rd then
    let v := (rampTo (e.ramp.getD par) tgt (s.ctx e.ch 34)).1
    (v, [(256, v)])
  else (par, [])

/-- PI control (R207, R210): proportional and integral gains, error, integrator, bounds. Answers the clamped output, the
advanced integrator and whether the output was clamped. -/
def pi (kp ki err int lo hi : Word) : Word × Word × Bool :=
  let di := F32.fma ki err int
  let o := F32.fma kp err di
  let r := F32.clamp o lo hi
  (r.1, di, r.2 != 0)

/-- The integrator after a task: advanced only while nothing was clamped; 0 in STANDBY (R205, R207). -/
def keep (e : REnv) (clamped : Bool) (old new : Word) : Word := if e.standby then 0 else if clamped then old else new

/-- Counts from an angle in 32.32. -/
def counts (a : Int) : Nat := ((a / 2 ^ 32) % 2 ^ 32).toNat

/-- `-θ` in counts. -/
def negAng (a : Nat) : Nat := (2 ^ 32 - a % 2 ^ 32) % 2 ^ 32

/-- Signed difference of two angles as an error in rad (assumption 15). -/
def angErrRad (a b : Nat) : Word := F32.mul (F32.ofInt (sxInt 32 (2 ^ 32 + a % 2 ^ 32 - b % 2 ^ 32))) 0x30C90FDB

/-- An angle moved by a float of rad. -/
def angAdd (a : Nat) (r : Word) : Nat := ((a : Int) + F32.toScaled (F32.mul r 0x4E22F983) 0 % 2 ^ 32).toNat % 2 ^ 32

/-! ### FOC_PMSM (R207–R209) -/

/-- Parameters within their ranges. -/
def focOk (e : REnv) (s : State) : Bool :=
  let c := fun (w : Nat) => s.ctx e.ch w
  F32.lt 0 (c 52) && F32.lt 0 (c 53) && F32.le 0 (c 54) && F32.lt 0 (c 55) && F32.lt 0 (c 56) && F32.le (c 56) one
    && F32.lt 0 (c 57) && F32.le 0 (c 58)

/-- FOC_PMSM. -/
def focPmsm (e : REnv) (maps : List (Word × Bool)) (s : State) : ROut :=
  let c := fun (w : Nat) => e.c s w
  let used := if 128 ≤ s.slotByte e.ch 2 then [0, 1, 2, 3] else [0, 1, 3]
  let sp := setPoint e s
  let speff := sp.1
  let spd := e.spd s
  let w := e.omega s
  let u := e.task.dl + Nat.max (bitsOf (s.ctx e.ch 6) 15 0) 37
  let pereff := match s.chUnit e.ch with | some n => (s.getNotice n).per | none => 0
  let thRel := e.ang s e.task.rel
  let thOut := counts (thRel + spd * (40 * ((u : Int) - e.task.rel) + pereff) / 40)
  let tpl0half := e.cmp s 0x3F000000
  let okIn := e.usable s [0, 1, 3]
  let vdc := e.volt s 3
  let lost := e.trkBad s
  let fl0 := sp.2 + e.sat s used
  if ! okIn then
    let cnt := c 42 + 1
    let zero := lost || decide ((s.ctx e.ch 37).toNat < cnt.toNat)
    -- without S3 the link voltage is not known: a free value
    let fr := if (e.slot s 3).isSome then (vdc, s) else let r := s.fresh; (BitVec.ofNat 32 r.1.toNat, r.2)
    let rot := Trig.rotate (c 100) (c 101) thOut
    let d := svu (F32.div rot.1 fr.1) (F32.div rot.2 fr.1)
    let zero := zero || ((e.slot s 3).isSome && F32.lt vdc (s.ctx e.ch 57))
    let outs := if zero then [tpl0half, tpl0half, tpl0half] else [e.cmp s d.a, e.cmp s d.b, e.cmp s d.c]
    let st := [(0, outs.getD 0 0), (1, outs.getD 0 0), (2, outs.getD 1 0), (3, outs.getD 1 0), (4, outs.getD 2 0), (5, outs.getD 2 0)]
    { s := fr.2, wr := [(40, speff)], fl := fl0 + fMISS + flagIf zero fZEROVEC, miss := true,
      stg := st ++ [(11, c 98), (12, c 99), (13, c 100), (14, c 101)] }
  else
    let ia := e.cur s 0
    let ib := e.cur s 1
    let s0 := match e.slot s 0 with | some v => v | none => {}
    let ibe := if (e.slot s 2).isSome then F32.mul (F32.sub ib (e.cur s 2)) 0x3F13CD3A
      else F32.mul (F32.fma 0x40000000 ib ia) 0x3F13CD3A
    let isum := F32.add (F32.add ia ib) (e.cur s 2)
    let sumBad := (e.slot s 2).isSome && F32.lt (s.ctx e.ch 58) (F32.abs isum)
    let thFb := counts (thRel - spd * (4 * ((e.task.rel : Int) - s0.ts) + 25 * (s0.len : Int)) / 4)
    let dq := Trig.rotate ia ibe (negAng thFb)
    let id := dq.1
    let iq := dq.2
    let low := F32.lt vdc (s.ctx e.ch 57)
    let zero := lost || low
    let mag2 := ((dy id).mul (dy id)).add ((dy iq).mul (dy iq))
    let eps := dy (s.ctx e.ch 35)
    let still := F32.isFinite id && F32.isFinite iq && ! (eps.mul eps).lt mag2
    let done := e.rd && F32.isZero speff && still
    let fl1 := fl0 + flagIf sumBad fMISS
    if zero then
      { s := s, wr := [(40, speff), (98, id), (99, iq)], fl := fl1 + fZEROVEC, done := done,
        stg := (List.range 6).map (fun k => (k, tpl0half)) ++ [(11, id), (12, iq), (13, c 100), (14, c 101)] }
    else
      let l0 := maps.getD 0 (0, true)
      let l1 := maps.getD 1 (0, true)
      let ref := limv l0.1 l1.1 (s.ctx e.ch 55)
      let idr := ref.1.1
      let iqr := ref.1.2
      let de := F32.sub idr id
      let qe := F32.sub iqr iq
      let di := F32.fma (s.ctx e.ch 49) de (e.integ s 96)
      let qi := F32.fma (s.ctx e.ch 51) qe (e.integ s 97)
      let vd0 := F32.sub (F32.fma (s.ctx e.ch 48) de di) (F32.mul (F32.mul w (s.ctx e.ch 53)) iq)
      let vq0 := F32.fma w (F32.fma (s.ctx e.ch 52) id (s.ctx e.ch 54)) (F32.fma (s.ctx e.ch 50) qe qi)
      let lv := limv vd0 vq0 (F32.mul (F32.mul (s.ctx e.ch 56) vdc) 0x3F13CD3A)
      let vd := lv.1.1
      let vq := lv.1.2
      let ab := Trig.rotate vd vq thOut
      let d := svu (F32.div ab.1 vdc) (F32.div ab.2 vdc)
      { s := s,
        wr := [(40, speff), (96, keep e lv.2 (e.integ s 96) di), (97, keep e lv.2 (e.integ s 97) qi),
               (98, id), (99, iq), (100, vd), (101, vq), (102, idr), (103, iqr)],
        fl := fl1 + flagIf (l0.2 || l1.2) fMAPFB + flagIf ref.2 fILIM + flagIf lv.2 fVLIM, done := done,
        stg := [(0, e.cmp s d.a), (1, e.cmp s d.a), (2, e.cmp s d.b), (3, e.cmp s d.b), (4, e.cmp s d.c), (5, e.cmp s d.c),
                (11, id), (12, iq), (13, vd), (14, vq)] }

/-! ### Missing inputs of the other routines -/

/-- A task of routines 0x02–0x0A whose inputs are missing: the manual states no outputs (assumption 16). States hold, the
staged words `ds` and the consist fields are free values. Beyond MISSLIM a task with PWM outputs commits the safe vector
(R203, R208): the compares `cs` among its staged words are half of TPL0. -/
def missing (e : REnv) (fl : Nat) (cs ds : List Nat) (wr : List (Nat × Word)) (s : State) : ROut :=
  let cnt := e.c s 42 + 1
  let safe := ! cs.isEmpty && decide ((s.ctx e.ch 37).toNat < cnt.toNat)
  let r := REnv.free s (ds ++ [11, 12, 13, 14])
  { s := r.2, wr := wr, fl := fl + fMISS + flagIf safe fZEROVEC,
    stg := if safe then r.1.map (fun p => if cs.contains p.1 then (p.1, e.cmp s 0x3F000000) else p) else r.1, miss := true }

/-! ### Routines 0x02–0x0B (R210) -/

/-- The phases that a sector drives: the PWM and the low one. The manual does not tie them to the sectors: one of the six
arrangements, by a free value of the sector (assumption 16). -/
def bldcPhases (sec : Nat) : Nat × Nat :=
  let k := (Config.errBits 6 (BitVec.ofNat 32 sec) 0 0).toNat % 6
  (k / 2, (k / 2 + 1 + k % 2) % 3)

/-- OUTCTL of the template with both outputs of the named pairs forced off (R110). -/
def pairsOff (e : REnv) (s : State) (ps : List Nat) : Word :=
  ps.foldl (fun w p => putBits (putBits w (7 + 4 * p) (6 + 4 * p) 1) (9 + 4 * p) (8 + 4 * p) 1) (s.ctx e.ch 31)

def sixstep (e : REnv) (s : State) : ROut :=
  let sp := setPoint e s
  let fl := sp.2 + e.sat s [0, 1]
  if ! e.usable s [0, 1] then missing e fl [0, 1, 2] [0, 1, 2, 3] [(40, sp.1)] s
  else
    let idc := e.cur s 0
    let th := (counts (e.ang s (e.issueDt s)) + (s.ctx e.ch 50).toNat) % 2 ^ 32
    let sec := th * 6 / 2 ^ 32
    let p := pi (s.ctx e.ch 48) (s.ctx e.ch 49) (F32.sub sp.1 idc) (e.integ s 96) 0 (s.ctx e.ch 51)
    let ph := bldcPhases sec
    let flt := 3 - ph.1 - ph.2
    let val := fun (i : Nat) => if i = ph.1 then e.cmp s p.1 else if i = ph.2 then 0
      else BitVec.ofNat 32 (Config.errBits 7 (BitVec.ofNat 32 sec) 0 0).toNat
    { s := s, wr := [(40, sp.1), (96, keep e p.2.2 (e.integ s 96) p.2.1), (97, p.1)], fl := fl + flagIf p.2.2 fVLIM,
      stg := [(0, val 0), (1, val 1), (2, val 2), (3, pairsOff e s [flt]),
              (11, idc), (12, p.1), (13, F32.ofInt sec), (14, e.omega s)],
      done := e.rd && F32.isZero sp.1 && F32.le (F32.abs idc) (s.ctx e.ch 35) }

def hbridge (e : REnv) (s : State) : ROut :=
  let sp := setPoint e s
  let fl := sp.2 + e.sat s [0, 1]
  if ! e.usable s [0, 1] then missing e fl [0, 1, 2, 3] [0, 1, 2, 3] [(40, sp.1)] s
  else
    let i := e.cur s 0
    let vdc := e.volt s 1
    let lim := F32.abs (F32.mul (s.ctx e.ch 50) vdc)
    let p := pi (s.ctx e.ch 48) (s.ctx e.ch 49) (F32.sub sp.1 i) (e.integ s 96) (F32.neg lim) lim
    let q := F32.div p.1 (F32.mul 0x40000000 vdc)
    let da := F32.add 0x3F000000 q
    let db := F32.sub 0x3F000000 q
    let int := keep e p.2.2 (e.integ s 96) p.2.1
    { s := s, wr := [(40, sp.1), (96, int), (97, p.1)], fl := fl + flagIf p.2.2 fVLIM,
      stg := [(0, e.cmp s da), (1, e.cmp s da), (2, e.cmp s db), (3, e.cmp s db), (11, i), (12, p.1), (13, int), (14, da)],
      done := e.rd && F32.isZero sp.1 && F32.le (F32.abs i) (s.ctx e.ch 35) }

def solenoid (e : REnv) (s : State) : ROut :=
  let mask := if e.rd then 0 else (s.ctx e.ch 32).toNat % 16
  let fl := e.sat s [0, 1, 2, 3]
  let base := [(40, BitVec.ofNat 32 mask)]
  if ! e.usable s [0, 1, 2, 3] then missing e fl [0, 1, 2, 3] [0, 1, 2, 3] base s
  else
    let c := fun (w : Nat) => e.c s w
    let tpeak := (s.ctx e.ch 50).toNat
    let coil := fun (j : Nat) =>
      let i := e.cur s j
      if ! mask.testBit j then ((0 : Word), (0 : Word), e.integ s (100 + j), false)
      else
        let n := (c (96 + j)).toNat
        let ref := if n < tpeak then s.ctx e.ch 48 else s.ctx e.ch 49
        let p := pi (s.ctx e.ch 51) (s.ctx e.ch 52) (F32.sub ref i) (e.integ s (100 + j)) 0 one
        (e.cmp s p.1, BitVec.ofNat 32 (Nat.min (n + 1) (2 ^ 32 - 1)), keep e p.2.2 (e.integ s (100 + j)) p.2.1, p.2.2)
    let cs := (List.range 4).map coil
    let cur := (List.range 4).map (fun j => e.cur s j)
    let big := cur.foldl (fun m i => if F32.lt m (F32.abs i) then F32.abs i else m) 0
    { s := s,
      wr := base ++ (List.range 4).map (fun j => (96 + j, (cs.getD j (0, 0, 0, false)).2.1))
        ++ (List.range 4).map (fun j => (100 + j, (cs.getD j (0, 0, 0, false)).2.2.1)),
      fl := fl + flagIf (cs.any (fun r => r.2.2.2)) fVLIM,
      stg := (List.range 4).map (fun j => (j, (cs.getD j (0, 0, 0, false)).1)) ++ (List.range 4).map (fun j => (11 + j, cur.getD j 0)),
      done := e.rd && F32.le big (s.ctx e.ch 35) }

def peakcur (e : REnv) (s : State) : ROut :=
  let nph := (s.ctx e.ch 54).toNat
  let legs := List.range nph
  let sp := setPoint' e s
  let fl := sp.2 + e.sat s (legs ++ [3, 4])
  let il := rampPar e (s.ctx e.ch 50) 0 s
  if ! e.usable s (legs ++ [3, 4]) then missing e fl [0, 1, 2] [0, 1, 2] ((40, sp.1) :: il.2) s
  else
    let vout := e.volt s 3
    let vin := e.volt s 4
    let p := pi (s.ctx e.ch 48) (s.ctx e.ch 49) (F32.sub sp.1 vout) (e.integ s 96) 0 il.1
    let share := F32.div p.1 (F32.ofInt nph)
    let leg := fun (j : Nat) =>
      F32.clamp (F32.add (F32.div vout vin) (F32.div (F32.mul (s.ctx e.ch 51) (F32.sub share (e.cur s j))) vin))
        (s.ctx e.ch 52) (s.ctx e.ch 53)
    let lim := legs.any (fun j => (leg j).2 != 0)
    let sum := legs.foldl (fun a j => F32.add a (e.cur s j)) 0
    { s := s, wr := [(40, sp.1), (96, keep e (p.2.2 || lim) (e.integ s 96) p.2.1)] ++ il.2,
      fl := fl + flagIf p.2.2 fILIM + flagIf lim fVLIM,
      stg := (List.range 3).map (fun j => (j, if j < nph then e.cmp s (leg j).1 else 0))
        ++ [(11, vout), (12, p.1), (13, sum), (14, (leg 0).1)],
      done := e.rd && F32.isZero il.1 && F32.le (F32.abs sum) (s.ctx e.ch 35) }

def pfcTotem (e : REnv) (s : State) : ROut :=
  let sp := setPoint' e s
  let fl := sp.2 + e.sat s [0, 1, 2]
  let ip := rampPar e (s.ctx e.ch 50) 0 s
  if ! e.usable s [0, 1, 2] then missing e fl [0, 1] [0, 1, 2] ((40, sp.1) :: ip.2) s
  else
    let i := e.cur s 0
    let vac := e.volt s 1
    let vbus := e.volt s 2
    let lim := F32.abs ip.1
    let p := pi (s.ctx e.ch 48) (s.ctx e.ch 49) (F32.sub sp.1 vbus) (e.integ s 96) (F32.neg lim) lim
    let iref := F32.mul p.1 (Trig.sincos (counts (e.ang s (e.issueDt s)))).2
    let d := F32.add (F32.sub one (F32.div (F32.abs vac) vbus))
      (F32.div (F32.mul (s.ctx e.ch 51) (F32.sub (F32.abs iref) (F32.abs i))) vbus)
    let zc := F32.lt (F32.abs vac) (s.ctx e.ch 52)
    { s := s, wr := [(40, sp.1), (96, keep e p.2.2 (e.integ s 96) p.2.1)] ++ ip.2, fl := fl + flagIf p.2.2 fILIM,
      stg := [(0, e.cmp s d), (1, if F32.lt 0 vac then s.ctx e.ch 15 else 0), (2, if zc then pairsOff e s [0, 1] else s.ctx e.ch 31),
              (11, vbus), (12, iref), (13, i), (14, d)],
      done := e.rd && F32.isZero ip.1 && F32.le (F32.abs i) (s.ctx e.ch 35) }

def llcFreq (e : REnv) (s : State) : ROut :=
  let sp := setPoint' e s
  let fl := sp.2 + e.sat s [0, 1]
  let fm := rampPar e (s.ctx e.ch 50) (s.ctx e.ch 51) s
  if ! e.usable s [0, 1] then missing e fl [1, 2, 3, 4] [0, 1, 2, 3, 4] ((40, sp.1) :: fm.2) s
  else
    let vout := e.volt s 0
    let iout := e.cur s 1
    let p := pi (s.ctx e.ch 48) (s.ctx e.ch 49) (F32.sub sp.1 vout) (e.integ s 96) fm.1 (s.ctx e.ch 51)
    let half := F32.toInt (F32.div 0x501502F9 p.1)
    { s := s, wr := [(40, sp.1), (96, keep e p.2.2 (e.integ s 96) p.2.1)] ++ fm.2, fl := fl + flagIf p.2.2 fVLIM,
      stg := [(0, wordOf (2 * half)), (1, wordOf half), (2, wordOf half), (3, wordOf half), (4, wordOf half),
              (11, vout), (12, iout), (13, p.1)],
      done := e.rd && fm.1 == s.ctx e.ch 51 && F32.le (F32.abs iout) (s.ctx e.ch 35) }

/-- The staged track write of a routine with angle `th` and speed `w` in rad/s (R210). -/
def stageTrack (th : Nat) (w : Word) (valid : Bool) : List (Nat × Word) :=
  let sp := (F32.toScaled (F32.mul (F32.mul (F32.abs w) 0x4E22F983) 0x3089705F) 32).toNat
  [(6, BitVec.ofNat 32 th), (7, BitVec.ofNat 32 (sp / 2 ^ 32)), (8, BitVec.ofNat 32 sp), (9, 0),
   (10, BitVec.ofNat 32 ((F32.signOf w && ! F32.isZero w).toNat + 2 * valid.toNat))]

def resolver (e : REnv) (s : State) : ROut :=
  let fl := e.sat s [0, 1]
  if ! e.usable s [0, 1] then missing e fl [] [6, 7, 8, 9, 10] [] s
  else
    let frac := fun (j : Nat) => match e.slot s j with | some v => ofDy ⟨v.code.toInt, -23⟩ | none => 0
    let v := Trig.vector (F32.mul (s.ctx e.ch 48) (frac 1)) (F32.mul (s.ctx e.ch 48) (frac 0))
    let thm := v.2 * (s.ctx e.ch 53).toNat % 2 ^ 32
    let est := (e.c s 96).toNat
    let err := angErrRad thm est
    let w := if e.standby then 0 else F32.fma (s.ctx e.ch 50) err (e.c s 97)
    let th := angAdd est (F32.fma (s.ctx e.ch 49) err (F32.mul w (e.dt s)))
    let ok := F32.le (s.ctx e.ch 51) v.1 && F32.le v.1 (s.ctx e.ch 52)
    { s := s, wr := [(96, BitVec.ofNat 32 th), (97, w)], fl := fl,
      stg := stageTrack th w ok ++ [(11, v.1), (12, BitVec.ofNat 32 thm), (13, w), (14, err)] }

def observer (e : REnv) (s : State) : ROut :=
  let fl := e.sat s [0, 1, 2, 3]
  if ! e.usable s [0, 1, 2, 3] then missing e fl [] [6, 7, 8, 9, 10] [] s
  else
    let ia := e.cur s 0
    let ib := e.cur s 1
    let uab := e.volt s 2
    let ubc := e.volt s 3
    let ibe := F32.mul (F32.fma 0x40000000 ib ia) 0x3F13CD3A
    let va := F32.fma 0x3F2AAAAB uab (F32.mul 0x3EAAAAAB ubc)
    let vb := F32.mul ubc 0x3F13CD3A
    let dt := e.dt s
    let step := fun (psi v i : Word) =>
      F32.fma dt (F32.sub (F32.sub v (F32.mul (s.ctx e.ch 48) i)) (F32.mul (s.ctx e.ch 50) psi)) psi
    let pa := step (e.integ s 96) va ia
    let pb := step (e.integ s 97) vb ibe
    let v := Trig.vector (F32.sub pa (F32.mul (s.ctx e.ch 49) ia)) (F32.sub pb (F32.mul (s.ctx e.ch 49) ibe))
    let est := (e.c s 98).toNat
    let err := angErrRad v.2 est
    let w := if e.standby then 0 else F32.fma (s.ctx e.ch 52) err (e.c s 99)
    let th := angAdd est (F32.fma (s.ctx e.ch 51) err (F32.mul w dt))
    { s := s, wr := [(96, keep e false 0 pa), (97, keep e false 0 pb), (98, BitVec.ofNat 32 th), (99, w)], fl := fl,
      stg := stageTrack th w (! F32.lt (F32.abs w) (s.ctx e.ch 53))
        ++ [(11, v.1), (12, BitVec.ofNat 32 th), (13, w)] }

def gridPll (e : REnv) (s : State) : ROut :=
  let single := s.slotByte e.ch 1 < 128 ∧ s.slotByte e.ch 2 < 128
  let used := if single then [0] else [0, 1, 2]
  let fl := e.sat s used
  if ! e.usable s used then missing e fl [] [6, 7, 8, 9, 10] [] s
  else
    let va := e.volt s 0
    let vb := e.volt s 1
    let vc := e.volt s 2
    let dt := e.dt s
    -- word 97 holds what the loop adds to the speed 2π FNOM (assumption 16)
    let nom := F32.mul 0x40C90FDB (s.ctx e.ch 50)
    let dev := e.integ s 97
    -- the integrator: x' = ω (k (v − x) − y), y' = ω x, with β = y; its gain k is not in the manual (assumption 16)
    let wdt := F32.mul (F32.add nom dev) dt
    let x := e.integ s 98
    let y := e.integ s 99
    let x' := F32.fma wdt (F32.sub (F32.mul Config.sogiGain (F32.sub va x)) y) x
    let y' := F32.fma wdt x y
    let al := if single then va else F32.mul (F32.sub (F32.mul 0x40000000 va) (F32.add vb vc)) 0x3EAAAAAB
    let be := if single then keep e false 0 y' else F32.mul (F32.sub vb vc) 0x3F13CD3A
    let mag := (Trig.vector al be).1
    let est := (e.c s 96).toNat
    let vq := (Trig.rotate al be (negAng est)).2
    let dev' := if e.standby then 0 else F32.fma (s.ctx e.ch 49) vq dev
    let w := F32.add nom dev'
    let th := angAdd est (F32.fma (s.ctx e.ch 48) vq (F32.mul w dt))
    let f := F32.div w 0x40C90FDB
    { s := s, wr := [(96, BitVec.ofNat 32 th), (97, dev')] ++ (if single then [(98, keep e false 0 x'), (99, keep e false 0 y')] else []),
      fl := fl, stg := stageTrack th w (! F32.lt mag (s.ctx e.ch 51)) ++ [(11, mag), (12, BitVec.ofNat 32 th), (13, f)] }

def captureRoutine (e : REnv) (s : State) : ROut :=
  let fl := e.sat s [0, 1, 2, 3]
  let bad := (List.range 4).any (fun j => decide (128 ≤ s.slotByte e.ch j) && (e.slot s j).isNone)
  { s := s, fl := fl + flagIf bad fMISS, miss := bad,
    stg := (List.range 4).map (fun k => (11 + k, match e.slot s k with
      | some _ => e.phys s (48 + k) ((e.slot s k).getD {})
      | none => F32.nan 9 (BitVec.ofNat 32 k) 0 0)) }

/-! ### The library (R200, R206, R211) -/

/-- W of R200. -/
def romW (rid : Nat) : Nat := [1, 160, 64, 48, 48, 80, 120, 96, 88, 136, 104, 24].getD rid 1

/-- COMMIT of the main commit (R190, R200). -/
def romCommit (rid : Nat) : Nat := if 1 ≤ rid ∧ rid ≤ 7 then 6 else if 8 ≤ rid ∧ rid ≤ 10 then 7 else if rid = 11 then 3 else 0

/-- The STGMAP positions of R211. -/
def romStg (rid : Nat) : Option (List Nat) :=
  match rid with
  | 1 => some [1, 2, 3, 4, 5, 6]
  | 2 => some [1, 3, 5, 16, 31, 31]
  | 3 => some [1, 2, 3, 4, 31, 31]
  | 4 => some [1, 3, 5, 7, 31, 31]
  | 5 => some [1, 3, 5, 31, 31, 31]
  | 6 => some [1, 3, 16, 31, 31, 31]
  | 7 => some [0, 1, 2, 3, 4, 31]
  | _ => none

/-- The checks of R206: ranges of the parameters (R203, R209, R210) and STGMAP (R211). -/
def romOk (e : REnv) (rid : Nat) (s : State) : Bool :=
  let c := fun (w : Nat) => s.ctx e.ch w
  let pos := fun (w : Nat) => F32.lt 0 (c w)
  let unit := fun (w : Nat) => F32.le 0 (c w) && F32.le (c w) one
  let common := F32.le 0 (c 33) && F32.le 0 (c 34) && F32.le 0 (c 35)
  let own := match rid with
    | 1 => focOk e s
    | 2 => unit 51
    | 3 => unit 50
    | 4 => pos 48 && pos 49
    | 5 => decide (1 ≤ (c 54).toNat ∧ (c 54).toNat ≤ 3)
    | 7 => pos 50 && pos 51
    | 8 => F32.abs (c 48) == one && decide (1 ≤ (c 53).toNat ∧ (c 53).toNat ≤ 16)
    | 10 => pos 50
    | _ => true
  let stg := match romStg rid with
    | some l => (List.range 6).all (fun k => s.stgPos e.ch k == l.getD k 31)
    | none => true
  common && own && stg

/-- The keys of the lookups of a task: FOC_PMSM makes them unless it commits the safe vector or the last voltages (R207,
R208). -/
def romKeys (e : REnv) (s : State) : Option (List Word) :=
  if e.rid = 1 ∧ romOk e 1 s ∧ e.usable s [0, 1, 3] ∧ ! e.trkBad s ∧ ! F32.lt (e.volt s 3) (s.ctx e.ch 57) then
    some [(setPoint e s).1, F32.abs (e.omega s), e.volt s 3]
  else none

/-- One of the twelve routines; `maps`: what its lookups gave. -/
def romRun (e : REnv) (maps : List (Word × Bool)) (s : State) : ROut :=
  match e.rid with
  | 1 => focPmsm e maps s
  | 2 => sixstep e s
  | 3 => hbridge e s
  | 4 => solenoid e s
  | 5 => peakcur e s
  | 6 => pfcTotem e s
  | 7 => llcFreq e s
  | 8 => resolver e s
  | 9 => observer e s
  | 10 => gridPll e s
  | 11 => captureRoutine e s
  | _ => { s := s }

/-- RDNEXT (R203): any other value acts as 5. -/
def rdNextOf (w : Word) : Nat := let n := w.toNat; if n = 0 ∨ n = 1 ∨ n = 3 ∨ n = 5 then n else 5

/-- Words of a ROM task up to its commit (R200, R212). -/
def romLen (e : REnv) : Nat := if e.rid = 0 ∨ 11 < e.rid then 13 else romW e.rid + if e.rd then 12 else 0

/-- What a ROM task has computed when it commits (R200–R213): its hidden record and the COMMIT value. A task that fails the
checks of R206 commits nothing. -/
def romTask (e : REnv) (maps : List (Word × Bool)) (h : TaskHid) (s : State) : TaskHid × Nat × State :=
  let put := fun (m : Sparse (Option Word)) (p : Nat × Word) => Sparse.set (fun _ => none) m p.1 (some p.2)
  let fl := flagIf e.rd fRDACTIVE + flagIf (e.trkBad s) fTRKLOST
  let clear := if e.first then [(40, 0), (42, 0), (43, 0)] ++ (List.range 32).map (fun i => (96 + i, (0 : Word))) else []
  let zero : List (Nat × Word) := [(44, 0), (45, 0), (46, 0), (47, 0)]
  if e.rid = 0 ∨ 11 < e.rid then
    -- RAMPDOWN_SAFE over an ID without a routine (R212)
    ({ h with wctx := (clear ++ zero ++ [(41, rstat (s.ctx e.ch 41) fl), (43, 1)]).foldl put [], rdNext := some 5 }, 0, s)
  else if ! romOk e e.rid s then
    ({ h with wctx := put [] (41, rstat (s.ctx e.ch 41) (fPARERR + fl)) }, 0, s)
  else
    let r := romRun e maps s
    let done := r.done || (e.rd && decide (8 ≤ e.rid))
    let rdd := if e.rdFirst then [(43, (0 : Word))] else []
    let cnt := if r.miss then e.c s 42 + 1 else 0
    let w := clear ++ rdd ++ zero ++ [(42, cnt)] ++ r.wr
      ++ [(41, rstat (s.ctx e.ch 41) (r.fl + fl))] ++ (if done then [(43, (1 : Word))] else [])
    ({ h with wctx := w.foldl put [], stg := r.stg.foldl (fun m p => Sparse.set (fun _ => 0) m p.1 p.2) [],
              rdNext := if done then some (rdNextOf (s.ctx e.ch 36)) else none }, romCommit e.rid, r.s)

end Sys2Proof.Machine
end

