-- ==== Sys2Proof/Machine/Micro.lean ====
section
/-!
DEFINITION. Microcode (R167–R199): words, operands, units, sequencing, waits, commits, patches; dispatch, micro-traps and
the ends of tasks (R154, R155, R187–R192).
-/
namespace Sys2Proof.Machine

/-- Bits `hi:lo` of a microword (R167). -/
def mw (w : MicroWord) (hi lo : Nat) : Nat := (w.toNat >>> lo) % 2 ^ (hi + 1 - lo)

/-- Bits 24+17g : 8+17g of a word and PAR bit g hold an odd number of ones (R168). -/
def groupOdd (w : MicroWord) (g : Nat) : Bool :=
  let n := mw w (24 + 17 * g) (8 + 17 * g)
  ((List.range 17).foldl (fun c i => if n.testBit i then ! c else c) (w.getLsbD g))

/-- A word passes R168. -/
def parityOk (w : MicroWord) : Bool := (List.range 8).all (groupOdd w)

/-- A word with its PAR field made right. -/
def withPar (w : MicroWord) : MicroWord :=
  (List.range 8).foldl (fun (v : MicroWord) g => if groupOdd v g then v else v ^^^ BitVec.ofNat 144 (2 ^ g)) w

/-- An END word with COMMIT = 0 (R193). -/
def endWord : MicroWord := withPar (BitVec.ofNat 144 (7 * 2 ^ 126))

/-- A JUMP word with COMMIT = 0 (R182). -/
def jumpWord (next : Nat) : MicroWord := withPar (BitVec.ofNat 144 (next % 2 ^ 14 * 2 ^ 130 + 2 ^ 126))

/-- The ROM (R193): the stubs of 0x01–0x0C jump to their routines, every other one is END, and so is the patch window; the
manual gives no other word (assumption 1). -/
def romAt (p : Nat) : MicroWord :=
  if 0x3E00 ≤ p then endWord
  else if p % 4 = 0 ∧ p / 4 < 256 then
    if 1 ≤ p / 4 ∧ p / 4 ≤ 12 then jumpWord (Config.romWord p).toNat else endWord
  else withPar (Config.romWord p)

/-- The patch word that covers address `p` (R194): the lowest match wins. -/
def patchAt (s : State) (p : Nat) : Option MicroWord :=
  ((List.range 32).find? (fun m =>
    let a := s.fld (A.BG_UC_MATCH_A m) 13 0
    s.flag (A.BG_UC_MATCH_A m) 31 && decide (a ≤ p ∧ p < a + s.fld (A.BG_UC_MATCH_B m) 9 0))).map (fun m =>
      Sparse.get (fun _ => 0) s.patch (s.fld (A.BG_UC_MATCH_B m) 24 16 + (p - s.fld (A.BG_UC_MATCH_A m) 13 0)))

/-- A match covers a word of ROM routine `id` behind its stub (R194): which words those are, the manual does not say. -/
def romPatched (s : State) (id : Nat) : Bool :=
  (List.range 32).any (fun m =>
    s.flag (A.BG_UC_MATCH_A m) 31 && (List.range (s.fld (A.BG_UC_MATCH_B m) 9 0)).any (fun i =>
      let p := s.fld (A.BG_UC_MATCH_A m) 13 0 + i
      decide (p < 0x3E00) && ! (p % 4 == 0 && decide (p / 4 < 256)) && Config.romHas id p))

/-- The ROM routine whose stub stands at `p`, when it runs as the manual states it: no match covers a word of it. -/
def romStub (s : State) (p : Nat) : Option Nat :=
  if p % 4 = 0 ∧ 1 ≤ p / 4 ∧ p / 4 ≤ 12 ∧ (patchAt s p).isNone ∧ ! romPatched s (p / 4) then some (p / 4) else none

/-- The word that a fetch at `p` takes. -/
def fetchMicro (s : State) (p : Nat) : MicroWord := (patchAt s p).getD (romAt p)

/-- The bogie cycle in ninths of a nanosecond (R24, R453). -/
def bogieCycle (s : State) : Nat := if s.od.slow then 10 else 9

/-! ### Legal words (R169) -/

/-- A select that a destination may name. -/
def dstOk (d : Nat) : Bool := decide (d ≤ 46 ∨ d = 48)

/-- The operands of a unit op of ALU1 (R177). -/
def unitOk (op a b d : Nat) : Bool :=
  decide (a ≤ 15 ∧ b ≤ 15) && match op with
    | 0x35 => decide (a ≤ 14 ∧ d ≤ 14)
    | 0x36 => decide (a ≤ 14 ∧ d ≤ 13)
    | 0x38 => true
    | _ => decide (d ≤ 15)

/-- R169. -/
def legalWord (w : MicroWord) (held : Bool) : Bool :=
  let seq := mw w 129 126
  let ws := mw w 119 115
  let o0 := mw w 113 108
  let o1 := mw w 95 90
  -- CMP alone ignores its destination (R176)
  let writes := fun (o : Nat) => decide (o ≠ 0x12)
  decide (seq ≤ 7) && ! (decide (22 ≤ ws ∧ ws ≤ 30)) && decide (o0 ≤ 0x14) && (! writes o0 || dstOk (mw w 45 40))
    && (if o1 ≤ 0x14 then ! writes o1 || dstOk (mw w 39 34)
        else decide (0x30 ≤ o1 ∧ o1 ≤ 0x38) && unitOk o1 (mw w 89 84) (mw w 83 78) (mw w 39 34))
    && decide (mw w 77 74 ≤ 14) && decide (mw w 53 52 ≠ 2) && decide (mw w 19 16 ≤ 8)
    && ! (seq == 3 && held) && ! (seq == 4 && ! held)

/-! ### Operands (R171, R172) -/

/-- What a running task sees. -/
structure MEnv where
  b : Nat
  ch : Nat
  task : Task
  h : TaskHid

namespace MEnv

def tReg (e : MEnv) (n : Nat) : Word := Sparse.get (fun _ => 0) e.h.t n
def fReg (e : MEnv) (n : Nat) : Word := Sparse.get (fun _ => 0) e.h.f n

/-- A context word as the task reads it (R173): its own writes first. -/
def ctxWord (e : MEnv) (s : State) (w : Nat) : Word :=
  match Sparse.get (fun _ => none) e.h.wctx w with
  | some v => v
  | none => s.ctx e.ch w

/-- The bound track. -/
def trk (e : MEnv) (s : State) : Option Nat :=
  let w := s.ctx e.ch 2
  if bitOf w 21 then some (bitsOf w 25 22) else none

/-- A mask of the slots that have a property. -/
def slotMask (e : MEnv) (s : State) (p : Slot → Bool) : Nat :=
  (List.range 6).foldl (fun m j => if p (s.getSlot e.ch j) then m ||| 2 ^ j else m) 0

/-- Release causes of select 55: those of the model are 1 window, 2 gather timeout, 3 timetable, 4 event line, 5 waybill,
6 catch-up. -/
def causeCode (c : Nat) : Nat := if c ≤ 2 then 0 else c - 2

/-- The value of a select (R171, R172). -/
def read (e : MEnv) (s : State) (w : MicroWord) (sel : Nat) : Word :=
  let onTrk := fun (f : Nat → Word) => match e.trk s with | some n => f n | none => 0
  let ofN := fun (n : Nat) => BitVec.ofNat 32 n
  if sel < 16 then e.tReg sel
  else if sel < 32 then e.ctxWord s ((mw w 33 26 + sel - 16) % 256)
  else if sel < 38 then (s.getSlot e.ch (sel - 32)).code
  else match sel with
    | 38 =>
      let v := fun (b : Nat) => e.slotMask s (fun r => r.valid && bitOf r.flags b)
      ofN (e.slotMask s (fun r => r.valid) + v 30 * 2 ^ 8 + v 27 * 2 ^ 16 + v 28 * 2 ^ 24 + e.task.part.toNat * 2 ^ 30)
    | 39 => ofN (s.getSlot e.ch 0).len
    | 40 => onTrk (fun n => ofN (s.trkAng n e.task.rel))
    | 41 => onTrk (fun n => ofN (s.trkSpeed n s.dtC / 2 ^ 32))
    | 42 => onTrk (fun n => ofN (s.trkSpeed n s.dtC))
    | 43 => onTrk (fun n => wordOf (s.trkAcc n))
    | 44 => onTrk (fun n => ofN ((s.trkRev n).toNat + 2 * (s.trkLost n).toNat + 4 * (n != 0 && s.flag (A.TRK_STAT n) 29).toNat))
    | 45 => ofN (s.getSlot e.ch 0).ts
    | 46 => onTrk (fun n => ofN (s.trkAng n s.dtC))
    | 49 => ofN (mw w 15 8)
    | 50 => wordOf (sxInt 8 (mw w 15 8))
    | 51 => s.rd (A.BG_UC_K (mw w 25 20))
    | 52 => ofN s.dtC
    | 53 => wordOf ((e.task.dl : Int) - s.dtC)
    | 54 => ofN e.task.rel
    | 55 => ofN (e.ch + 256 * causeCode e.task.cause)
    | 56 => s.ctx e.ch 12
    | 57 => ofN (bitsOf (s.ctx e.ch 0) 7 0)
    | 58 => match s.chUnit e.ch with | some u => ofN ((s.getNotice u).per / if u < 16 then 1 else euPerNs) | none => 0
    | 59 => ofN e.h.mapFlags
    | 60 => ofN e.h.sector
    | 61 => ofN e.h.got
    | 62 => 0xFFFFFFFF
    | 63 => 0x80000000
    | _ => 0

/-- A condition (R184). -/
def cond (e : MEnv) (s : State) (c : Nat) : Bool :=
  let v : Bool := match c % 32 with
    | 0 => true
    | 1 => false
    | 2 | 3 | 4 | 5 | 6 | 7 | 8 | 9 => e.h.alu.testBit (c % 32 - 2)
    | 10 | 11 | 12 => e.h.fma.testBit (c % 32 - 10)
    | 13 | 14 => e.h.lim.testBit (c % 32 - 13)
    | 15 => e.h.mapFlags != 0
    | 16 | 17 | 18 | 19 | 20 | 21 => (s.getSlot e.ch (c % 32 - 16)).valid
    | 22 => e.slotMask s (fun r => r.valid && bitOf r.flags 30) != 0
    | 23 => e.task.cause == 2
    | 24 => match e.trk s with | some n => s.trkLost n | none => false
    | 25 => match e.trk s with | some n => s.trkRev n | none => false
    | 26 => s.chMode e.ch == 2
    | 27 => s.chMode e.ch == 1
    | 28 => s.chMode e.ch == 4
    | 29 => decide (e.task.dl < s.dtC)
    | 30 => e.task.catchup
    | _ => e.h.first
  if c ≥ 32 then ! v else v

/-- A wait condition (R186). -/
def waitOk (e : MEnv) (g : BogHid) (ws : Nat) : Bool :=
  let has := fun (t : Nat) => g.stations.any (fun x => x.ch == e.ch && x.tag == t && x.taken)
  let open_ := fun (t : Nat) => g.stations.any (fun x => x.ch == e.ch && x.tag == t && ! x.taken)
  match ws with
  | 0 => true
  | 17 => e.h.got != 0
  | 18 => e.h.fired
  | 19 => ! g.inflight.any (fun o => o.fu == Fu.yld)
  | 20 => e.h.ackWait.isNone
  | 21 => (List.range 16).all (fun t => ! open_ t)
  | 31 => false
  | n => if n ≤ 16 then has (n - 1) else false

end MEnv

/-! ### ALU operations (R176) -/

/-- The result of an ALU op and its flags Z N C V in bits 3:0 from bit 0. -/
def aluOp (op : Nat) (a b : Word) (old : Nat) : Option Word × Nat :=
  let fl := fun (r : Word) (c v : Bool) => (r == 0).toNat + 2 * (bitOf r 31).toNat + 4 * c.toNat + 8 * v.toNat
  let sa := a.toInt
  let sb := b.toInt
  let ovf := fun (x : Int) => decide (x < -(2 ^ 31) ∨ 2 ^ 31 ≤ x)
  let sat := fun (x : Int) => wordOf (clampI (-(2 ^ 31)) (2 ^ 31 - 1) x)
  let pl := fun (r : Word) => (some r, fl r false false)
  let n := b.toNat % 32
  match op with
  | 0x00 => (none, old)
  | 0x01 => (some (a + b), fl (a + b) (decide (2 ^ 32 ≤ a.toNat + b.toNat)) (ovf (sa + sb)))
  | 0x02 => (some (a - b), fl (a - b) (decide (b.toNat ≤ a.toNat)) (ovf (sa - sb)))
  | 0x03 => (some (sat (sa + sb)), fl (sat (sa + sb)) false (ovf (sa + sb)))
  | 0x04 => (some (sat (sa - sb)), fl (sat (sa - sb)) false (ovf (sa - sb)))
  | 0x05 => pl (a &&& b)
  | 0x06 => pl (a ||| b)
  | 0x07 => pl (a ^^^ b)
  | 0x08 => pl (a &&& ~~~ b)
  | 0x09 => let r := a <<< n; (some r, fl r (n != 0 && bitOf a (32 - n)) false)
  | 0x0A => let r := a >>> n; (some r, fl r (n != 0 && bitOf a (n - 1)) false)
  | 0x0B => let r := a.sshiftRight n; (some r, fl r (n != 0 && bitOf a (n - 1)) false)
  | 0x0C => let r := a.rotateRight n; (some r, fl r (n != 0 && bitOf a (n - 1)) false)
  | 0x0D => pl (if sa < sb then a else b)
  | 0x0E => pl (if sa < sb then b else a)
  | 0x0F => pl (if a.toNat < b.toNat then a else b)
  | 0x10 => pl (if a.toNat < b.toNat then b else a)
  | 0x11 => pl a
  | 0x12 => (none, fl (a - b) (decide (b.toNat ≤ a.toNat)) (ovf (sa - sb)))
  | 0x13 => let r := sat sa.natAbs; (some r, fl r false (ovf sa.natAbs))
  | 0x14 => (some (sat (-sa)), fl (sat (-sa)) false (ovf (-sa)))
  | _ => (none, old)

/-! ### Destinations (R171, R172) -/

/-- A result reaches its destination. -/
def putDst (w : MicroWord) (sel : Nat) (v : Word) (h : TaskHid) : TaskHid :=
  if sel < 16 then { h with t := Sparse.set (fun _ => 0) h.t sel v }
  else if sel < 32 then
    let c := (mw w 33 26 + sel - 16) % 256
    if c < 32 then h else { h with wctx := Sparse.set (fun _ => none) h.wctx c (some v) }
  else if sel < 47 then
    -- s0–s5, then the track write (38–42) and the consist fields (43–46)
    { h with stg := Sparse.set (fun _ => 0) h.stg (sel - 32) v }
  else h

def putF (n : Nat) (v : Word) (h : TaskHid) : TaskHid := { h with f := Sparse.set (fun _ => 0) h.f n v }
def putT (n : Nat) (v : Word) (h : TaskHid) : TaskHid := { h with t := Sparse.set (fun _ => 0) h.t n v }

/-! ### Interlocks (R170, R180, R185) -/

/-- The temporaries that a word reads: (true, n) is fn. -/
def readsTemps (w : MicroWord) : List (Bool × Nat) :=
  let o0 := mw w 113 108
  let o1 := mw w 95 90
  let alu := fun (o a b : Nat) => if o = 0 ∨ 0x30 ≤ o then [] else ([a, b].filter (fun x => x < 16)).map (fun x => (false, x))
  let a := mw w 89 84
  let b := mw w 83 78
  let u : List (Bool × Nat) := match o1 with
    | 0x30 | 0x32 | 0x33 => [(true, a), (true, b)]
    | 0x31 => [(true, a)]
    | 0x34 | 0x38 => [(false, a), (false, b)]
    | 0x35 => [(true, a), (true, a + 1), (true, b)]
    | 0x36 => [(true, a), (true, a + 1)]
    | 0x37 => [(false, a)]
    | _ => []
  let fa := mw w 73 70
  let fb := mw w 69 66
  let fc := mw w 65 62
  let fma : List (Bool × Nat) := match mw w 77 74 with
    | 0 => []
    | 1 | 2 => [(true, fa), (true, fb), (true, fc)]
    | 3 | 4 | 5 | 6 | 7 => [(true, fa), (true, fb)]
    | 8 | 9 | 12 | 13 => [(true, fa)]
    | _ => [(false, fa)]
  let k := mw w 59 57
  let j := mw w 56 54
  let rot : List (Bool × Nat) := match mw w 61 60 with
    | 1 => [(true, 2 * k), (true, 2 * k + 1), (false, 8 + j)]
    | 2 => [(true, 2 * k), (true, 2 * k + 1)]
    | 3 => [(false, 8 + j)]
    | _ => []
  let q := mw w 47 46
  let map : List (Bool × Nat) := if mw w 53 52 = 1 then [(true, 4 * q), (true, 4 * q + 1), (true, 4 * q + 2)] else []
  alu o0 (mw w 107 102) (mw w 101 96) ++ alu o1 a b ++ u ++ fma ++ rot ++ map

/-- The word reads a context word (R157, R171, R172, R180, R182, R184, R190): a select that names one or looks at a binding,
a lookup, a condition on slots, track or mode, a DISPATCH, or a commit, which takes bindings and template. -/
def readsCtx (w : MicroWord) : Bool :=
  let sel := fun (a : Nat) => decide (16 ≤ a ∧ a ≤ 46 ∨ 56 ≤ a ∧ a ≤ 58)
  let c := fun (o a b : Nat) => decide (o ≠ 0 ∧ o < 0x30) && (sel a || sel b)
  let cnd := mw w 125 120 % 32
  c (mw w 113 108) (mw w 107 102) (mw w 101 96) || c (mw w 95 90) (mw w 89 84) (mw w 83 78)
    || mw w 53 52 == 1 || mw w 19 16 != 0 || mw w 129 126 == 5
    || (mw w 129 126 == 2 && decide (16 ≤ cnd ∧ cnd ≤ 28))

/-- A word after which, or in whose held cycles, R154 may preempt (R183, R187): not one that runs with a return address
held, and not the CALL that takes it. -/
def trapWord (w : MicroWord) (ret : Option Nat) : Bool := mw w 114 114 == 1 && ret.isNone && mw w 129 126 != 3

/-- A word is held by an interlock (R170, R141, R185); the second component: it waits for a reservation station. -/
def interlock (e : MEnv) (g : BogHid) (w : MicroWord) : Bool × Bool :=
  let pend := fun (r : Bool × Nat) => g.inflight.any (fun o => o.dsts.any (fun d => d.1 == r.1 && d.2.1 == r.2))
    || (r.1 && g.stations.any (fun x => x.ch == e.ch && x.tag == r.2 && ! x.taken))
  let div := (mw w 95 90 == 0x30 || mw w 95 90 == 0x31) && g.inflight.any (fun o => o.fu == Fu.div)
  let c := mw w 125 120 % 32
  let flags := mw w 129 126 == 2 && decide (10 ≤ c ∧ c ≤ 14) && g.inflight.any (fun o => o.fu == Fu.fma)
  let tag := mw w 51 48
  let stn := mw w 53 52 == 1 && decide (16 ≤ g.stations.length) && ! g.stations.any (fun x => x.ch == e.ch && x.tag == tag)
  ((readsTemps w).any pend || div || flags || stn, stn)

/-! ### The units -/

/-- The FMA field (R178): results and flags in four cycles. -/
def fmaOp (e : MEnv) (w : MicroWord) (now cyc : Nat) : List InFlight :=
  let op := mw w 77 74
  let a := mw w 73 70
  let b := mw w 69 66
  let c := mw w 65 62
  let fa := e.fReg a
  let fb := e.fReg b
  let fc := e.fReg c
  let ta := e.tReg a
  let res : Option (Bool × Word) := match op with
    | 1 => some (true, F32.fma fa fb fc)
    | 2 => some (true, F32.fma (F32.neg fa) fb fc)
    | 3 => some (true, F32.mul fa fb)
    | 4 => some (true, F32.add fa fb)
    | 5 => some (true, F32.sub fa fb)
    | 6 => some (true, F32.min fa fb)
    | 7 => some (true, F32.max fa fb)
    | 8 => some (true, F32.flush (F32.abs fa))
    | 9 => some (true, F32.flush (F32.neg fa))
    | 10 => some (true, F32.ofInt ta.toInt)
    | 11 => some (true, F32.ofDy ⟨ta.toInt, -23⟩)
    | 12 => some (false, wordOf (F32.toInt fa))
    | 13 => some (false, fa)
    | 14 => some (true, ta)
    | _ => none
  match res with
  | none => []
  | some (f, v) =>
    let fl := (bitOf v 31).toNat + 2 * (if f then F32.isZero v else v == 0).toNat + 4 * (f && F32.isNaN v).toNat
    [⟨.fma, now + 4 * cyc, now, [(f, c, v)], some fl, none, false⟩]

/-- The ROT field (R179): results in 18 cycles. -/
def rotOp (e : MEnv) (w : MicroWord) (now cyc : Nat) : List InFlight :=
  let k := mw w 59 57
  let j := mw w 56 54
  let x := e.fReg (2 * k)
  let y := e.fReg (2 * k + 1)
  let th := (e.tReg (8 + j)).toNat
  let mk := fun (ds : List (Bool × Nat × Word)) => [(⟨.rot, now + 18 * cyc, now, ds, none, none, false⟩ : InFlight)]
  match mw w 61 60 with
  | 1 => let r := Trig.rotate x y th; mk [(true, 2 * k, r.1), (true, 2 * k + 1, r.2)]
  | 2 => let r := Trig.vector x y; mk [(true, 2 * k, r.1), (false, 8 + j, BitVec.ofNat 32 r.2)]
  | 3 => let r := Trig.sincos th; mk [(true, 2 * k, r.1), (true, 2 * k + 1, r.2)]
  | _ => []

/-- A yard address that a bogie may use: word-aligned, in a yard (R177). -/
def yardOk (a : Nat) : Bool := decide (a % 4 = 0 ∧ a < 0x400000)

/-- Unit ops of ALU1 (R177). `h` is the task as ALU0 leaves it. Answers the task, what is
in flight, and the state (yard accesses). `up`: upsets that a yard
load meets. -/
def unitOp (e : MEnv) (h : TaskHid) (w : MicroWord) (now cyc up : Nat) (s : State) : TaskHid × List InFlight × State :=
  let a := mw w 89 84
  let b := mw w 83 78
  let d := mw w 39 34
  let fa := e.fReg a
  let fb := e.fReg b
  match mw w 95 90 with
  | 0x30 => (h, [⟨.div, now + 12 * cyc, now, [(true, d, F32.div fa fb)], none, none, false⟩], s)
  | 0x31 => (h, [⟨.div, now + 12 * cyc, now, [(true, d, F32.sqrt fa)], none, none, false⟩], s)
  | 0x32 => let r := F32.clamp fa (F32.neg (F32.abs fb)) (F32.abs fb)
            ({ putF d r.1 h with lim := (if r.2 = 2 then 1 else 0) + (if r.2 = 1 then 2 else 0) }, [], s)
  | 0x33 => let r := F32.clamp fa 0 fb
            ({ putF d r.1 h with lim := (if r.2 = 2 then 1 else 0) + (if r.2 = 1 then 2 else 0) }, [], s)
  | 0x34 =>
    let v := (e.tReg a).toInt
    let l : Int := (e.tReg b).toInt.natAbs
    let r := clampI (-l) l v
    ({ putT d (wordOf r) h with lim := (if l < v then 1 else 0) + (if v < -l then 2 else 0) }, [], s)
  | 0x35 => let r := limv fa (e.fReg (a + 1)) fb
            ({ putF (d + 1) r.1.2 (putF d r.1.1 h) with lim := if r.2 then 1 else 0 }, [], s)
  | 0x36 => let r := svu fa (e.fReg (a + 1))
            (h, [⟨.svu, now + 6 * cyc, now, [(true, d, r.a), (true, d + 1, r.b), (true, d + 2, r.c)], none, some r.sector, r.hi⟩], s)
  | 0x37 =>
    let ad := (e.tReg a).toNat
    let r := if yardOk ad then s.ydReadWord (e.b + 2) ad up else (s.nonOwner (e.b + 2) (ad / 0x40000 % 16) false ad, none)
    (h, [⟨.yld, now + cyc, now, [(false, d, r.2.getD 0)], none, none, false⟩], r.1)
  | 0x38 =>
    let ad := (e.tReg a).toNat
    let s1 := if yardOk ad then (s.ydWriteWord (e.b + 2) ad (e.tReg b)).1 else s.nonOwner (e.b + 2) (ad / 0x40000 % 16) true ad
    (h, [], s1)
  | _ => (h, [], s)

/-- The MAP field (R180, R142): a lookup takes a station, a RELEASE frees one. `ecc`: an error in a cached line. -/
def mapOp (e : MEnv) (w : MicroWord) (now ecc : Nat) (s : State) : State :=
  let tag := mw w 51 48
  let q := mw w 47 46
  let g := s.getBog e.b
  let others := g.stations.filter (fun x => ! (x.ch == e.ch && x.tag == tag))
  match mw w 53 52 with
  | 1 =>
    s.issueLookup e.b e.ch tag (bitsOf (s.ctx e.ch 5) (8 * q + 7) (8 * q)) e.task.rel
      [e.fReg (4 * q), e.fReg (4 * q + 1), e.fReg (4 * q + 2)] now ecc
  | 3 => s.setBog e.b { g with stations := others }
  | _ => s

/-! ### Commits and ends (R190–R192) -/

/-- COMMIT_PWM, COMMIT_TRACK, COMMIT_CONSIST, COMMIT_CTX and their combinations (R190). -/
def commitMain (e : MEnv) (code : Nat) (s : State) : TaskHid × State :=
  let h := e.h
  let stg := fun (k : Nat) => Sparse.get (fun _ => 0) h.stg k
  if code = 0 ∨ 9 ≤ code then (h, s)
  else
    let pwm := code = 1 ∨ code = 5 ∨ code = 6 ∨ code = 8
    let trk := code = 2 ∨ code = 5 ∨ code = 7 ∨ code = 8
    let con := code = 3 ∨ code = 6 ∨ code = 7 ∨ code = 8
    let s0 := s.commitCtx e.ch h.wctx
    let p := if pwm then s0.commitPwm e.ch e.task.dl h.late ((List.range 6).map stg) else (s0, false, h.late)
    let s1 := if trk then p.1.commitTrack e.ch e.task.rel ((List.range 5).map (fun k => stg (6 + k))) else p.1
    let s2 := if con then s1.commitConsist e.ch ((List.range 4).map (fun k => stg (11 + k))) else s1
    ({ h with wctx := [], ackWait := if p.2.1 then some (bitsOf (p.1.ctx e.ch 0) 7 0) else h.ackWait, late := p.2.2 }, s2)

/-- SEQ_END (R192): the running task of bogie `b` ends. -/
def endTask (e : MEnv) (s : State) : State :=
  let ch := e.ch
  let s1 := s.commitCtx ch e.h.wctx
  let s2 := ((s1.setCtx ch 12 (s1.ctx ch 12 + 1)).setFlag (ctxA ch 0) 21 false)
  let s3 := if e.task.catchup then s2.setFlag (ctxA ch 0) 23 true else s2
  let nxt := match e.h.rdNext with
    | some m => some m
    | none => if e.h.rom.isNone ∧ s3.chMode ch = 4 ∧ s3.ctx ch 43 ≠ 0 then some (rdNextOf (s3.ctx ch 36)) else none
  let s4 := s3.setCh ch { s3.getCh ch with rdNext := nxt, s0end := if e.h.s0 = 0 then (s3.getCh ch).s0end else e.h.s0 }
  (s4.bgStop e.b).iterBoundary ch

/-- The words of the longest gap (R163, R188): from a task's first word, or after a trap-ok word, up to and with the next
trap-ok word or END (assumption 111). -/
def noteGap (b gap : Nat) (s : State) : State :=
  if s.fld (A.BGn_TGAP b) 15 0 < gap then s.setFld (A.BGn_TGAP b) 15 0 (min gap 65535) else s

/-- The instant of the cycle in which a word issues now, on the bogie's grid (R170). -/
def issueAt (s : State) (g : BogHid) : Nat := if s.dtC * 9 < g.nextAt + bogieCycle s then g.nextAt else s.dtC * 9

/-- The next issue may be one cycle on (R170). -/
def nextIssue (s : State) (g : BogHid) : Nat := issueAt s g + bogieCycle s

/-! ### Results (R141, R175, R177–R180) -/

/-- Results reach a task's temporaries and flags. -/
def landOp (o : InFlight) (h : TaskHid) : TaskHid :=
  let h1 := o.dsts.foldl (fun (h : TaskHid) d => if d.1 then putF d.2.1 d.2.2 h else putT d.2.1 d.2.2 h) h
  { h1 with fma := o.fmaFl.getD h1.fma, sector := o.sector.getD h1.sector, lim := if o.svHi then h1.lim ||| 1 else h1.lim }

/-- The result of a lookup reaches f(tag) and MAPFLAGS (R180). -/
def landMap (x : Station) (h : TaskHid) : TaskHid :=
  let r := x.res.getD (0, false)
  let fl := if r.2 then h.mapFlags ||| 2 ^ x.tag else if h.mapFlags.testBit x.tag then h.mapFlags - 2 ^ x.tag else h.mapFlags
  { putF x.tag r.1 h with mapFlags := fl }

/-- The operation in flight that completes first, by instant `lim`: on a tie the one issued first, and within a word the unit
that R141 lists first (R175). A yard load completes when its data arrive. -/
def firstOp (g : BogHid) (lim : Nat) : Option InFlight :=
  (g.inflight.filter (fun o => o.fu != .yld && decide (o.due ≤ lim))).foldl (fun m o => match m with
    | none => some o
    | some x => if o.due < x.due then some o else m) none

/-- The lookup of the running task whose result arrives first, by instant `lim`. -/
def firstMap (g : BogHid) (lim : Nat) : Option Station :=
  (g.stations.filter (fun x => g.run == some x.ch && ! x.taken && x.res.isSome && decide (x.due ≤ lim))).foldl (fun m x => match m with
    | none => some x
    | some y => if x.due < y.due then some x else m) none

/-- What completes first on a bogie by instant `lim` (R175): within a word, MAP is last. -/
def firstDone (g : BogHid) (lim : Nat) : Option (InFlight ⊕ Station) :=
  match firstOp g lim, firstMap g lim with
  | none, none => none
  | some o, none => some (.inl o)
  | none, some x => some (.inr x)
  | some o, some x => if o.due < x.due ∨ (o.due = x.due ∧ o.iss ≤ x.iss) then some (.inl o) else some (.inr x)

/-- One completion reaches its destination. -/
def landDone (d : InFlight ⊕ Station) (g : BogHid) : BogHid :=
  match d with
  | .inl o => { g with inflight := g.inflight.erase o, task := landOp o g.task }
  | .inr x => { g with task := landMap x g.task,
                       stations := g.stations.map (fun (y : Station) => if y.ch == x.ch && y.tag == x.tag then { y with taken := true } else y) }

/-- Everything that completes by instant `lim`, in order. -/
def landUpTo (lim : Nat) (g : BogHid) : BogHid :=
  (List.range (g.inflight.length + g.stations.length)).foldl (fun g _ => match firstDone g lim with
    | some d => landDone d g
    | none => g) g

/-- What has completed on bogie `b` when a word issues now is in its task's temporaries. -/
def landDue (b : Nat) (s : State) : State := let g := s.getBog b; s.setBog b (landUpTo (issueAt s g) g)

/-- A word issues (R170–R192): `exit` tells that a WAIT word leaves through its deadline. -/
def issueWord (e : MEnv) (w : MicroWord) (up : Upset) (exit : Bool) (s : State) : State :=
  let cyc := bogieCycle s
  let now := issueAt s (s.getBog e.b)
  let seq := mw w 129 126
  let code := mw w 19 16
  let trapok := trapWord w e.h.ret
  let gap := if trapok then 0 else e.h.gap + 1
  -- sequencing looks at the flags of the words before
  let next := mw w 143 130
  let inc := (e.h.pc + 1) % 0x4000
  let target := match seq with
    | 1 | 3 => next
    | 2 => if e.cond s (mw w 125 120) then next else inc
    | 4 => e.h.ret.getD inc
    | 5 => (next + s.chMode e.ch) % 0x4000
    | 6 => if exit then next else inc
    | _ => inc
  let ret := if seq = 3 then some inc else if seq = 4 then none else e.h.ret
  -- operands are read before any result is written
  let o0 := mw w 113 108
  let o1 := mw w 95 90
  let a0 := aluOp o0 (e.read s w (mw w 107 102)) (e.read s w (mw w 101 96)) (e.h.alu % 16)
  let a1 := if 0x30 ≤ o1 then (none, e.h.alu / 16) else aluOp o1 (e.read s w (mw w 89 84)) (e.read s w (mw w 83 78)) (e.h.alu / 16)
  let eccY := match up with | .yard1 => 1 | .yard2 => 2 | _ => 0
  let eccM := match up with | .map1 => 1 | .map2 => 2 | _ => 0
  let fmas := fmaOp e w now cyc
  let rots := rotOp e w now cyc
  -- results of earlier words that complete by the end of this cycle come before those of this word (R175)
  let s0 := s.setBog e.b (landUpTo (now + cyc) (s.getBog e.b))
  let h0 := (s0.getBog e.b).task
  let s1 := mapOp e w now eccM s0
  -- the later-listed unit wins (R175)
  let h1 := match a0.1 with | some v => putDst w (mw w 45 40) v h0 | none => h0
  let u := if 0x30 ≤ o1 then unitOp e h1 w now cyc eccY s1
    else ((match a1.1 with | some v => putDst w (mw w 39 34) v h1 | none => h1), [], s1)
  let h3 := { u.1 with alu := a0.2 + 16 * a1.2, pc := target, ret := ret, held := false, trapok := trapok, gap := gap }
  let g := u.2.2.getBog e.b
  let s2 := noteGap e.b (e.h.gap + 1) (u.2.2.setBog e.b { g with task := h3, inflight := g.inflight ++ fmas ++ rots ++ u.2.1, nextAt := nextIssue s g })
  let c := commitMain { e with h := h3 } code s2
  let s3 := c.2.setBog e.b { c.2.getBog e.b with task := c.1 }
  if seq = 7 then endTask { e with h := c.1 } s3 else s3

/-- The running task of bogie `b`, when a word may issue now. -/
def running (b : Nat) (s : State) : Option MEnv :=
  let g := s.getBog b
  match g.run with
  | none => none
  | some ch =>
    match s.tasks.find? (fun t => t.ch == ch && t.st == TaskSt.running) with
    | some t => some ⟨b, ch, t, g.task⟩
    | none => none

/-- A context word error met by bogie `b` (R157). -/
def ctxEcc1 (b : Nat) (s : State) : State := (s.bgCount (A.BGn_CNT_ECC1 b)).bgCause b 5

/-- The longest gap of a ROM routine (R200): at most 32 words and no more than it has; its words are not in the manual. -/
def romGap (rid : Nat) : Nat := (Config.errBits 8 (BitVec.ofNat 32 rid) 0 0).toNat % min 32 (romW rid) + 1

/-- What a ROM routine that starts at DT `start` finds (R154–R156, R200, R205): stub 12 runs the channel's ROUTINE. -/
def romEnv (ch : Nat) (t : Task) (h : TaskHid) (id start : Nat) (s : State) : REnv :=
  let m := s.chMode ch
  { ch := ch, task := t, rid := if id = 12 then s.chRoutine ch else id, rd := id == 12, rdFirst := m == 4 && h.first,
    first := h.first && ! t.catchup && m != 4, standby := m == 1, ramp := (s.getCh ch).ramp,
    slots := (List.range 6).map (s.getSlot ch), start := start }

/-- A task enters a ROM routine at its stub. -/
def enterRom (r : REnv) (h : TaskHid) : TaskHid := { h with rom := some r, left := romLen r }

/-- The lookups of a ROM routine take stations 0 and 1 (R142, R207). -/
def romLookups (e : MEnv) (r : REnv) (ecc : Nat) (s : State) : State :=
  match romKeys r s with
  | none => s
  | some keys =>
    let g := s.getBog e.b
    if g.stations.any (fun x => x.ch == e.ch) then s
    else
      let bm := s.ctx e.ch 5
      (s.issueLookup e.b e.ch 0 (bitsOf bm 7 0) e.task.rel keys (s.dtC * 9) ecc).issueLookup e.b e.ch 1 (bitsOf bm 15 8) e.task.rel keys
        (s.dtC * 9) 0

/-- A ROM routine reaches its commit, or is still before it. -/
def issueRom (e : MEnv) (r : REnv) (up : Upset) (s : State) : State :=
  let g := s.getBog e.b
  match up with
  | .residue => bogieFault e.b 0 s
  | .parity => bogieFault e.b 1 s
  | .ctx2 => bogieFault e.b 3 s
  | _ =>
    let s0 := if up = .ctx1 then ctxEcc1 e.b s else s
    if s.dtC * 9 < g.nextAt + (e.h.left - 1) * bogieCycle s then s0
    else
      let ecc := match up with | .map1 => 1 | .map2 => 2 | _ => 0
      let s1 := romLookups e r ecc s0
      let st := (s1.getBog e.b).stations.filter (fun x => x.ch == e.ch)
      -- a lookup that has not arrived holds the routine
      if st.any (fun x => x.res.isNone) then s1
      else
        let x := romTask r (st.map (fun x => x.res.getD (0, false))) e.h s1
        let c := commitMain { e with h := x.1 } x.2.1 (noteGap e.b (romGap r.rid) x.2.2)
        endTask { e with h := c.1 } (c.2.setBog e.b { c.2.getBog e.b with task := c.1 })

/-- An error met in a save slot while its task is being saved or restored (R157, R189). -/
def saveUpset (b : Nat) (up : Upset) (s : State) : State :=
  match up with
  | .residue => bogieFault b 0 s
  | .ctx2 => bogieFault b 3 s
  | .ctx1 => ctxEcc1 b s
  | _ => s

/-- MICROWORD_ISSUE (R170): the next word of the running task of bogie `b` issues, or is held. -/
def execMicrowordIssue (b : Fin 5) (up : Upset) (s0 : State) : Out :=
  let g0 := s0.getBog b
  if (g0.run.isNone ∧ g0.saving.isSome ∧ s0.dtC < g0.freeAt) ∨ (g0.run.isSome ∧ s0.dtC * 9 < g0.nextAt ∧ s0.dtC < g0.restAt) then
    .next (saveUpset b up s0)
  else if s0.dtC * 9 < g0.nextAt then .next s0
  else
    let s := landDue b s0
    match running b s with
    | none => .next s0
    | some e =>
      let g := s.getBog b
      match e.h.rom with
      | some r => .next (issueRom e r up s)
      | none =>
        match romStub s e.h.pc with
        | some id =>
          -- a word of the patch RAM has jumped to a stub of the ROM (R193)
          let r := romEnv e.ch e.task e.h id s.dtC s
          let h := enterRom r e.h
          .next (issueRom { e with h := h } r up (s.setBog b { g with task := h }))
        | none =>
          let w := fetchMicro s e.h.pc
          if up = .parity ∨ ! parityOk w ∨ ! legalWord w e.h.ret.isSome then .next (bogieFault b 1 s)
          else
            let hold := interlock e g w
            if hold.1 ∨ ! e.waitOk g (mw w 119 115) then
              let h := { e.h with held := true, trapok := trapWord w e.h.ret }
              let s1 := s.setBog b { g with task := h, nextAt := nextIssue s g }
              .next (if hold.2 then s1.bgCount (A.BGn_CNT_STNW b) else s1)
            else if up = .residue then .next (bogieFault b 0 s)
            else if up = .ctx2 ∧ readsCtx w then .next (bogieFault b 3 s)
            else .next (issueWord e w up false (if up = .ctx1 ∧ readsCtx w then ctxEcc1 b s else s))

/-- WAIT_DEADLINE (R182): the task's deadline passes while its WAIT word is held. -/
def execWaitDeadline (b : Fin 5) (s0 : State) : Out :=
  let s := landDue b s0
  match running b s with
  | none => .next s0
  | some e =>
    let g := s.getBog b
    let w := fetchMicro s e.h.pc
    if e.h.rom.isSome ∨ (romStub s e.h.pc).isSome ∨ s.dtC * 9 < g.nextAt ∨ ! parityOk w ∨ ! legalWord w e.h.ret.isSome then .next s0
    else if mw w 129 126 = 6 ∧ ! (interlock e g w).1 ∧ ! e.waitOk g (mw w 119 115) ∧ e.task.dl ≤ s.dtC then
      .next (issueWord e w .none true s)
    else .next s0

/-- What completes first on bogie `b` by now is an operation of unit `fu`: its results land. -/
def landUnit (b : Nat) (fu : Fu) (s : State) : State :=
  let g := s.getBog b
  match firstDone g (s.dtC * 9) with
  | some (.inl o) => if o.fu = fu then s.setBog b (landDone (.inl o) g) else s
  | _ => s

def execFmaResult (b : Fin 5) (s : State) : Out := .next (landUnit b .fma s)
def execRotResult (b : Fin 5) (s : State) : Out := .next (landUnit b .rot s)
def execDivResult (b : Fin 5) (s : State) : Out := .next (landUnit b .div s)
def execSvuResult (b : Fin 5) (s : State) : Out := .next (landUnit b .svu s)

/-- YLD_RESULT (R177): the data of the oldest yard load arrive, a cycle after its issue or later. -/
def execYldResult (b : Fin 5) (s : State) : Out :=
  let g := landUpTo (s.dtC * 9) (s.getBog b)
  match g.inflight.find? (fun o => o.fu == .yld && decide (o.due ≤ s.dtC * 9)) with
  | some o => .next (s.setBog b (landDone (.inl o) g))
  | none => .next s

/-- MAP_RESULT (R180, R189, R225): what completes first is a lookup of the running task's channel: f(tag) takes its
result. -/
def execMapResult (b : Fin 5) (s : State) : Out :=
  let g := s.getBog b
  match firstDone g (s.dtC * 9) with
  | some (.inr x) => .next (s.setBog b (landDone (.inr x) g))
  | _ => .next s

/-! ### Dispatch (R154, R174, R193) -/

/-- Earlier deadline first, the lower channel on a tie. -/
def earlier (a b : Task) : Bool := decide (a.dl < b.dl) || (a.dl == b.dl && decide (a.ch < b.ch))

/-- The task that bogie `b` would start: queued ones of channels that have none under way, and preempted ones. -/
def headTask (s : State) (b : Nat) : Option Task :=
  (s.tasks.filter (fun t => s.bogieOf t.ch == b &&
    (t.st == TaskSt.preempted || (t.st == TaskSt.queued && ! s.chBusy t.ch)))).foldl (fun (m : Option Task) t => match m with
      | none => some t
      | some x => some (if earlier t x then t else x)) none

/-- The tasks with `f` applied to the one of channel `ch` that stands as `st`. -/
def mapTask (s : State) (ch : Nat) (st : TaskSt) (f : Task → Task) : State :=
  { s with tasks := s.tasks.map (fun (t : Task) => if t.ch == ch && t.st == st then f t else t) }

/-- A queued task starts: its stub issues 8 ns on (R26, R154, R193). -/
def startTask (b ch : Nat) (s : State) : State :=
  match s.tasks.find? (fun t => t.ch == ch && t.st == TaskSt.queued) with
  | none => s
  | some t =>
    let c := s.getCh ch
    let m := s.chMode ch
    let pc := 4 * (if m = 4 then 12 else s.chRoutine ch)
    let h0 : TaskHid := { pc := pc, first := if m = 4 then c.rdFirst else c.first, s0 := (s.s0End ch).getD 0 }
    let h := match romStub s pc with
      | some id => enterRom (romEnv ch t h0 id (s.dtC + 8) s) h0
      | none => h0
    let s1 := s.setCh ch { c with first := if m = 4 then c.first else false, rdFirst := false }
    let s2 := mapTask s1 ch .queued (fun t => { t with st := .running, since := s.dtC })
    let g := s2.getBog b
    (s2.setBog b { g with run := some ch, task := h, inflight := [], nextAt := (s.dtC + 8) * 9, busyFrom := max s.dtC g.freeAt,
                          saving := none }).bgShow b

/-- A preempted task is restored in 12 ns (R154, R155, R187): a word that was held is held again before it is a point of
preemption. -/
def resumeTask (b ch : Nat) (s : State) : State :=
  let h := match (s.getCh ch).save with | some p => p.1 | none => {}
  let s1 := s.setCh ch { s.getCh ch with save := none }
  let s2 := mapTask s1 ch .preempted (fun t => { t with st := .running, since := s.dtC })
  let g := s2.getBog b
  (s2.setBog b { g with run := some ch, task := { h with trapok := false }, inflight := [], nextAt := (s.dtC + 12) * 9,
                        busyFrom := max s.dtC g.freeAt, saving := none, restAt := s.dtC + 12 }).bgShow b

/-- TASK_DISPATCH (R154): an idle bogie starts or restores its head task; BG4 starts none while it adopts (R160). -/
def execTaskDispatch (b : Fin 5) (s : State) : Out :=
  let g := s.getBog b
  if g.run.isSome ∨ s.dtC < g.freeAt ∨ s.fld (A.BGn_STAT b) 31 30 = 2 ∨ (b.val = 4 ∧ s.fld A.BG_RELIEF 31 29 = 1) then .next s
  else match headTask s b with
    | none => .next s
    | some t =>
      if t.st = TaskSt.preempted then .next (resumeTask b t.ch s)
      else
        -- the iteration boundary before the dispatch (R148)
        .next (startTask b t.ch (s.boundaryFor t.ch t.rel))

/-! ### Micro-traps (R155, R187, R189) -/

/-- The forty words of a save slot (R155, R189). -/
def saveWords (h : TaskHid) (stations : Nat) : List Word :=
  let w0 := h.pc + h.alu * 2 ^ 14 + h.fma * 2 ^ 22 + h.lim * 2 ^ 25 + h.held.toNat * 2 ^ 27
  [BitVec.ofNat 32 w0, BitVec.ofNat 32 (stations + h.mapFlags * 2 ^ 16)]
    ++ (List.range 16).map (fun n => Sparse.get (fun _ => 0) h.t n) ++ (List.range 16).map (fun n => Sparse.get (fun _ => 0) h.f n)
    ++ (List.range 6).map (fun n => Sparse.get (fun _ => 0) h.stg n)

/-- MICRO_TRAP: the running task of bogie `b` gives way at a trap-ok point to a task with an earlier deadline. -/
def execMicroTrap (b : Fin 5) (s : State) : Out :=
  match running b s, headTask s b with
  | some e, some t =>
    let g := s.getBog b
    -- between the words of a ROM routine, any point may be one (assumption 48)
    let point := e.h.trapok || (e.h.rom.isSome && decide (g.nextAt ≤ s.dtC * 9))
    if ! point ∨ e.task.dl ≤ t.dl then .next s
    else
      -- lookups that have arrived are written, and what is in flight completes into the save slot, in order
      let g1 := landUpTo (s.dtC * 9) g
      let g2 := landUpTo (s.dtC * 9 + 18 * bogieCycle s) { g1 with stations := [] }
      let h1 := g2.inflight.foldl (fun (h : TaskHid) o => landOp o h) g2.task
      -- a ROM routine has issued the words up to now
      let gone := if s.dtC * 9 < g.nextAt then 0 else (s.dtC * 9 - g.nextAt) / bogieCycle s + 1
      let h2 := { h1 with left := if h1.rom.isSome then max 1 (h1.left - gone) else h1.left }
      let st := (g1.stations.filter (fun x => x.ch == e.ch)).foldl (fun m x => m ||| 2 ^ x.tag) 0
      let s1 := s.setCh e.ch { s.getCh e.ch with save := some (h2, saveWords h2 st) }
      let s2 := mapTask s1 e.ch .running (fun t => { t with st := .preempted, ran := t.ran + (s.dtC - t.since) })
      let s3 := s2.setBog b
        { g1 with run := none, task := {}, inflight := [], freeAt := s.dtC + 12, saving := some e.ch, busyNs := g.busyNs + (s.dtC + 12 - g.busyFrom) }
      .next ((s3.bgCount (A.BGn_CNT_TRAP b)).bgShow b)
  | _, _ => .next s

end Sys2Proof.Machine
end

