-- ==== Sys2Proof/Machine/Security.lean ====
section
/-!
DEFINITION. The security block (R468–R481, R485–R487): tamper events and the seal, checks of the boot manifest and of the
patch image, measurements, and attestation.
-/
namespace Sys2Proof.Machine

namespace State

/-- SC_STAT as the hidden state gives it. -/
def scShow (s : State) : State :=
  let prog := (List.range 4).foldl (fun m k => if Config.otpSlot k = 0 then m else m ||| 2 ^ k) 0
  let arb := s.sc.arb.getLastD 0
  let s1 := ((s.setFlag A.SC_STAT 29 s.sc.sealed_).setFlag A.SC_STAT 27 s.sc.ends.isSome).setFlag A.SC_STAT 26
    (s.sc.idBlock || s.sc.rndBad || s.sc.lmsBad)
  ((s1.setFld A.SC_STAT 25 22 s.sc.revoked).setFld A.SC_STAT 21 18 prog).wr64 A.SC_ARB_L A.SC_ARB_H arb

/-- A core that the debugger has halted resumes at DT `t`; its watchdog did not run meanwhile (R484). -/
def unhalt (k : CoreSt) (t : Nat) : CoreSt :=
  if k.dbgHalt then { k with dbgHalt := false, kickAt := k.kickAt + (t - k.haltAt) } else k

/-- The open debug session ends (R484): halted cores resume and every watchpoint is disabled. -/
def endSession (s : State) : State :=
  if s.sc.ends.isNone then s
  else
    let s1 := { s with sc := { s.sc with ends := none, watch := [] },
                       coreA := unhalt s.coreA s.dtC, coreB := unhalt s.coreB s.dtC }
    ((s1.wr A.SC_DBGSTAT 0).scShow).scCause 1

/-- SEALED clears (R477). -/
def clearSeal (s : State) : State := { s with sc := { s.sc with sealed_ := false } }.setFlag A.SC_STAT 29 false

/-- TAMPER source `i` (R485, R486). -/
def tamper (s : State) (i : Nat) : State :=
  let s1 := (s.raiseC 0x92 i).setFlag A.SC_TAMPER i true
  let h := s1.sc
  let s2 := { s1 with sc := { h with idBlock := h.idBlock || (1 ≤ i && i ≤ 3), rndBad := h.rndBad || i == 5 } }
  ((s2.clearSeal.endSession).scShow).scCause 0

/-! ### Keys (R469, R471) -/

/-- The bytes of a digest. -/
def digest (h : BitVec 256) : List Byte := (List.range 32).map (fun i => BitVec.ofNat 8 (h.toNat / 256 ^ i))

def sha (bs : List Byte) : List Byte := digest (Config.sha256 bs)

/-- Slot `k` is usable (R469). -/
def slotUsable (s : State) (k : Nat) : Bool := Config.otpSlot k != 0 && ! s.sc.revoked.testBit k

/-- The big-endian number of 32 bits at `i`, as RFC 8554 writes it. -/
def be32 (bs : List Byte) (i : Nat) : Nat :=
  (((bs.getD i 0).toNat * 256 + (bs.getD (i + 1) 0).toNat) * 256 + (bs.getD (i + 2) 0).toNat) * 256 + (bs.getD (i + 3) 0).toNat

/-- An LM-OTS typecode that R471 admits: bytes of a hash, and hashes of a signature. -/
def otsOf (ty : Nat) : Option (Nat × Nat) :=
  match ty with
  | 1 => some (32, 265) | 2 => some (32, 133) | 3 => some (32, 67) | 4 => some (32, 34)
  | 5 => some (24, 200) | 6 => some (24, 101) | 7 => some (24, 51) | 8 => some (24, 26)
  | _ => none

/-- An LMS typecode that R471 admits: bytes of a hash, and height. -/
def lmsOf (ty : Nat) : Option (Nat × Nat) :=
  if 5 ≤ ty ∧ ty ≤ 9 then some (32, 5 * (ty - 4)) else if 10 ≤ ty ∧ ty ≤ 14 then some (24, 5 * (ty - 9)) else none

/-- The typecodes of an LMS public key at `i` are admitted ones of `n` bytes. -/
def keyForm (n : Nat) (bs : List Byte) (i : Nat) : Bool :=
  (match lmsOf (be32 bs i) with | some (m, _) => m == n | none => false)
    && (match otsOf (be32 bs (i + 4)) with | some (m, _) => m == n | none => false)

/-- What follows an LMS signature (RFC 8554: index, LM-OTS signature, typecode, path) whose typecodes are admitted ones of
`n` bytes. -/
def lmsRest (n : Nat) (sig : List Byte) : Option (List Byte) :=
  match otsOf (be32 sig 4) with
  | none => none
  | some (m, p) =>
    let o := 8 + n + n * p
    match lmsOf (be32 sig o) with
    | none => none
    | some (m', h) => if m = n ∧ m' = n ∧ o + 4 + n * h ≤ sig.length then some (sig.drop (o + 4 + n * h)) else none

/-- `l` signed public keys of lower levels and the signature of the lowest one (R471). -/
def levelsForm (n : Nat) : Nat → List Byte → Bool
  | 0, sig => (lmsRest n sig).isSome
  | l + 1, sig =>
    match lmsRest n sig with
    | none => false
    | some r => keyForm n r 0 && decide (24 + n ≤ r.length) && levelsForm n l (r.drop (24 + n))

/-- A key and a signature have the form of R471: one to four levels, all N24 or all N32. -/
def hssForm (key sig : List Byte) : Bool :=
  let l := be32 key 0
  match lmsOf (be32 key 4) with
  | none => false
  | some (n, _) => decide (1 ≤ l ∧ l ≤ 4) && keyForm n key 4 && be32 sig 0 + 1 == l && levelsForm n (l - 1) (sig.drop 4)

/-- A signature is valid (R471): its form is admitted, and it verifies. -/
def hssOk (key msg sig : List Byte) : Bool := hssForm key sig && Config.hssVerify key msg sig

/-- The key that a 64-byte field holds: 60 bytes for N32, 52 for N24, the rest zero (R471). -/
def keyOf (field : List Byte) : Option (List Byte) :=
  let n := match lmsOf (be32 field 4) with | some (n, _) => n + 28 | none => 0
  if n ≠ 0 ∧ (field.drop n).all (· == 0) then some (field.take n) else none

/-- A key matches slot `k` (R469). -/
def keyMatches (k : Nat) (key : List Byte) : Bool := Config.sha256 key == Config.otpSlot k

/-- `n` bytes of the NV yard at `a`, as the guard, the security block and start-up read them (R332). -/
def nvBytes (s : State) (a n : Nat) : List Byte := (List.range n).map (fun i => s.safeByte (a + i))

/-! ### Boot manifest (R472–R474) -/

/-- The base of the manifest (R472). -/
abbrev mfBase : Nat := 0x010D0000

def mf (s : State) (o n : Nat) : Nat := s.safeNum (mfBase + o) n

/-- Number of bytes before the manifest's signature. -/
def mfLen (s : State) : Nat := 0xC0 + 48 * s.mf 0x15 1

/-- The bytes of region `r`'s lines (R472): 7 bytes for each line. -/
def regionBytes (s : State) (first count : Nat) : List Byte :=
  ((List.range count).map (fun i =>
    let v := (List.range 4).foldl (fun acc k => acc + (s.sylAt (first + 4 * i + k)).toNat * 2 ^ (14 * k)) 0
    numBytes 7 v)).flatten

/-- The manifest has an ARB row or a REVOKED bit programmed (R474). -/
def mfProgs (s : State) : Bool :=
  ((s.mf 0x11 1).testBit 1 && decide (s.sc.arb.getLastD 0 < s.mf 8 8) && decide (s.sc.arb.length < 32))
    || (List.range 4).any (fun k => (s.mf 0x12 1).testBit k && k != s.mf 0x10 1 && ! s.sc.revoked.testBit k)

/-- The first check of R473 that fails; `fast`: signatures and region hashes are not checked (R478); `progBad`: programming
the OTP fails. -/
def mfCheck (s : State) (fast progBad : Bool) : Option Nat :=
  let nreg := s.mf 0x15 1
  let reg := fun (r o n : Nat) => s.mf (0xC0 + 48 * r + o) n
  let regs := List.range nreg
  let bslot := s.mf 0x10 1
  let entry := s.mf 0x18 4
  let key := keyOf (s.nvBytes (mfBase + 0x40) 64)
  if s.mf 0 4 ≠ 0x4D465331 ∨ 16 ≤ s.mf 0x11 1 ∨ 16 ≤ s.mf 0x12 1 ∨ s.mf 0x16 2 ≠ 0 ∨ 2 ^ 24 ≤ entry ∨ s.mf 0x28 24 ≠ 0
      ∨ nreg = 0 ∨ 16 < nreg ∨ 3 < bslot ∨ 3 < s.mf 0x13 1 ∨ 3 < s.mf 0x14 1 ∨ regs.any (fun r => reg r 8 8 ≠ 0) then some 1
  else match key with
    | none => some 2
    | some k =>
      if ! s.slotUsable bslot ∨ ! keyMatches bslot k then some 2
      else if ! fast ∧ ! hssOk k (s.nvBytes mfBase s.mfLen) (s.nvBytes (mfBase + s.mfLen) (0x10000 - s.mfLen)) then
        some 3
      else if s.mf 8 8 < s.sc.arb.getLastD 0 then some 4
      else if regs.any (fun r => decide (0x400000 < reg r 0 4 + 4 * reg r 4 4))
          ∨ ! regs.any (fun r => decide (reg r 0 4 ≤ entry ∧ entry < reg r 0 4 + 4 * reg r 4 4)) then some 5
      else if ! fast ∧ regs.any (fun r =>
          sha (s.regionBytes (reg r 0 4) (reg r 4 4)) != s.nvBytes (mfBase + 0xC0 + 48 * r + 16) 32) then some 6
      else if progBad ∧ s.mfProgs then some 7
      else none

/-- The manifest selects the unhitched mode, or the OTP does (R317). -/
def wantUnhitched (s : State) : Bool := Config.otpUnhitch || (s.mf 0x11 1).testBit 0

/-- After the checks (R474): the ARB row and the REVOKED bits are programmed, the entry and the mode are taken. Programming
anything is an OTP change, which clears SEALED (R477). -/
def mfApply (s : State) : State :=
  let flags := s.mf 0x11 1
  let arbv := s.mf 8 8
  let adv := flags.testBit 1 && decide (s.sc.arb.getLastD 0 < arbv)
  let full := decide (32 ≤ s.sc.arb.length)
  let rev := s.sc.revoked ||| (List.range 4).foldl (fun m k =>
    if (s.mf 0x12 1).testBit k ∧ k ≠ s.mf 0x10 1 then m ||| 2 ^ k else m) 0
  let changed := (adv && ! full) || rev != s.sc.revoked
  let h := { s.sc with arb := if adv ∧ ! full then s.sc.arb ++ [arbv] else s.sc.arb, revoked := rev, flags := flags,
                       dbgSlot := s.mf 0x13 1, patchAt := s.mf 0x20 4, patchLen := s.mf 0x24 4,
                       sealed_ := s.sc.sealed_ && ! changed }
  let s1 := { s with sc := h }
  let s2 := if adv ∧ full then s1.setFlag A.SC_STAT 28 true else s1
  let s3 := (s2.setFld A.SC_STAT 17 16 (s.mf 0x10 1)).wr A.SC_MFVER (BitVec.ofNat 32 (s.mf 4 4))
  let s4 := (s3.wr A.SYS_ENTRY (BitVec.ofNat 32 (s.mf 0x18 4))).setFlag A.TD_STAT 31 s.wantUnhitched
  let s5 := if s.wantUnhitched then forUpTo 15 (fun n t => t.wr (A.YD_OWN n) 1) s4 else s4
  s5.scShow

/-! ### Patch image (R195, R196, R475) -/

/-- What an accepted patch image loads: its version, match entries, constants and words. -/
structure Patch where
  ver : Nat
  ms : List (Nat × Nat × Nat)
  ks : List Word
  ws : List MicroWord
  deriving DecidableEq, Repr

/-- The checks of R196 other than the signature, on the bytes of an image; answers its body length too. -/
def patchParse (img : List Byte) : Option (Patch × Nat) :=
  let n := imgNum img 8 2
  let m := imgNum img 0xA 1
  let c := imgNum img 0xB 1
  let body := 0x10 + 8 * m + 4 * c + 20 * n
  if imgNum img 0 4 ≠ 0x4D435031 ∨ imgNum img 0xC 4 ≠ 0 ∨ 512 < n ∨ 32 < m ∨ 48 < c ∨ img.length < body then none
  else
    let ms := (List.range m).map (fun i =>
      let o := 0x10 + 8 * i
      (imgNum img o 2, imgNum img (o + 2) 2, imgNum img (o + 4) 2))
    let zeros := (List.range m).all (fun i => imgNum img (0x10 + 8 * i + 6) 2 == 0)
    let msOk := ms.all (fun e => decide (e.2.2 ≠ 0 ∧ e.2.1 + e.2.2 ≤ 512 ∧ e.1 + e.2.2 ≤ 16384))
    let ks := (List.range c).map (fun i => imgWord img (0x10 + 8 * m + 4 * i))
    let at_ := fun i => 0x10 + 8 * m + 4 * c + 20 * i
    let ws : List MicroWord := (List.range n).map (fun i => BitVec.ofNat 144 (imgNum img (at_ i) 18))
    let tail := (List.range n).all (fun i => imgNum img (at_ i + 18) 2 == 0)
    if zeros && msOk && tail && ws.all parityOk then some (⟨imgNum img 4 4, ms, ks, ws⟩, body) else none

/-- An image writes patch RAM, match registers and constants (R195). -/
def patchWrite (s : State) (p : Patch) : State :=
  let ram := ((List.range p.ws.length).zip p.ws).foldl (fun m e => Sparse.set (fun _ => 0) m e.1 e.2) []
  let s1 := ((List.range p.ms.length).zip p.ms).foldl (fun (t : State) (e : Nat × Nat × Nat × Nat) =>
    (t.wr (A.BG_UC_MATCH_A e.1) (BitVec.ofNat 32 (2 ^ 31 + e.2.1))).wr (A.BG_UC_MATCH_B e.1)
      (BitVec.ofNat 32 (e.2.2.1 * 65536 + e.2.2.2))) { s with patch := ram }
  let s2 := ((List.range p.ks.length).zip p.ks).foldl (fun (t : State) (e : Nat × Word) => t.wr (A.BG_UC_K (16 + e.1)) e.2) s1
  (((s2.setFlag A.BG_UC_STAT 31 true).setFld A.BG_UC_STAT 25 16 p.ws.length).setFld A.BG_UC_STAT 5 0 p.ms.length).wr
    A.BG_UC_PVER (BitVec.ofNat 32 p.ver)

/-- The image that the manifest names; none when it names none, or one outside the range of R475. -/
def patchImage (s : State) : Option (List Byte) :=
  let off := s.sc.patchAt
  let len := s.sc.patchLen
  if off + len ≤ 0xD0000 then some (s.nvBytes (0x01000000 + off) len) else none

/-- PATCH_LOAD (R195, R475): `signed` tells whether its signature is checked. -/
def patchLoad (s : State) (signed : Bool) : State :=
  if s.sc.patchAt = 0 then s
  else
    let s := s.eccSweep 16 (0x01000000 + s.sc.patchAt) s.sc.patchLen
    let fail := (s.setFlag A.BG_UC_STAT 30 true).raiseC 0x91 0
    match s.patchImage with
    | none => fail
    | some img =>
      match patchParse img with
      | none => fail
      | some (p, body) =>
        let pslot := s.mf 0x14 1
        let keyOk := match keyOf (s.nvBytes (mfBase + 0x80) 64) with
          | some k => s.slotUsable pslot && keyMatches pslot k
              && (! signed || hssOk k (img.take body) (img.drop body))
          | none => false
        if ! keyOk ∨ p.ver < s.mf 0x1C 4 then fail else s.patchWrite p

/-! ### Measurements (R476) -/

/-- Entries 0–5; `fast`: the boot used the seal. -/
def measure (s : State) (fast : Bool) : List (List Byte) :=
  let nreg := s.mf 0x15 1
  let calLen := s.safeNum 0x010F0008 4
  let e0 := sha (s.nvBytes mfBase s.mfLen)
  let e1 := sha ((List.range nreg).map (fun r => s.nvBytes (mfBase + 0xC0 + 48 * r + 16) 32)).flatten
  let e2 := if s.flag A.BG_UC_STAT 31 then sha ((s.patchImage).getD []) else List.replicate 32 0
  let e3 := sha (s.nvBytes 0x010F0000 calLen)
  let e4 := sha (((List.range 4).map (fun k => digest (Config.otpSlot k))).flatten ++ numBytes 1 s.sc.revoked
    ++ numBytes 8 (s.sc.arb.getLastD 0) ++ numBytes 1 Config.otpUnhitch.toNat ++ numBytes 1 Config.otpDebugOff.toNat)
  let e5 := numBytes 4 (s.mf 4 4) ++ numBytes 8 (s.sc.arb.getLastD 0) ++ numBytes 1 (s.mf 0x10 1) ++ numBytes 1 (s.mf 0x11 1)
    ++ numBytes 1 (fast.toNat + 2 * s.unhitched.toNat) ++ numBytes 1 0 ++ wordBytes (s.rd A.GD_BOOTNO)
    ++ List.replicate 12 (0 : Byte)
  (if fast then s.sc.stored else [e0, e1, e2, e3, e4]) ++ [e5]

/-- The measurements are recorded after verification; a full one with NOFAST clear stores them and sets SEALED
(R474, R477). -/
def recordMeas (s : State) (fast : Bool) : State :=
  let ms := s.measure fast
  let h := { s.sc with meas := ms }
  let nofast := (s.mf 0x11 1).testBit 3
  let h1 := if ! fast ∧ ! nofast then { h with sealed_ := true, stored := ms.take 5 } else h
  (({ s with sc := h1 }.setFlag A.SC_STAT 31 (! fast)).setFlag A.SC_STAT 30 fast).scShow

/-! ### Attestation (R479–R481) -/

/-- The next identity index, when the halves of its line agree (R480): the newest, a queued one included (R338). -/
def idNext (s : State) : Option Nat :=
  let run := match s.mem.nvRun with | some (e, _) => e.idx | none => none
  match (s.mem.nvQ.filterMap (fun e => e.idx)).getLast?.or run with
  | some n => some n
  | none =>
    let lo := s.sc.idxLine.extractLsb' 0 32
    let hi := s.sc.idxLine.extractLsb' 32 32
    if hi = ~~~ lo then some lo.toNat else none

/-- ATTEST (R480, R481): reads the index for waybill `ord` and has the next one written through the guard and security queue, or
answers that it is refused STATE. The line is the first of the security store (assumption 158). -/
def attestStart (s : State) (ord : Nat) : Bool × State :=
  if s.sc.idBlock ∨ s.sc.rndBad ∨ s.sc.lmsBad then (false, s)
  else match s.idNext with
    | none => (false, { s with sc := { s.sc with lmsBad := true } }.scShow.raiseC 0x93 0)
    | some c =>
      if 2 ^ 20 ≤ c then (false, s.raiseC 0x93 1)
      else
        let q := s.mem.nvQ ++ [({ guard := true, line := 0x010F4000 / 8, bytes := [], idx := some (c + 1) } : NvEntry)]
        (true, nvShow { s with mem := { s.mem with nvQ := q }, sc := { s.sc with attest := some { ord := ord, idx := c } } })

/-- The report of a running attestation with host nonce `nonce` (R481, R476). -/
def attestReport (s : State) (a : Attest) (nonce : List Byte) : List Byte :=
  let e6 := numBytes 4 s.sc.sessions ++ wordBytes (s.rd A.SC_TAMPER) ++ List.replicate 24 (0 : Byte)
  let body := numBytes 4 0x41545331 ++ numBytes 4 5388 ++ numBytes 8 (a.at_.getD 0) ++ numBytes 4 a.idx ++ numBytes 4 0 ++ nonce
    ++ s.sc.meas.flatten ++ e6 ++ List.replicate 32 (0 : Byte)
  body ++ (List.range 5076).map (fun i => Config.idSign a.idx body i)

end State

/-- TAMPER (R485): source `i`. -/
def execTamper (i : Fin 6) (s : State) : Out := .next (s.tamper i)

/-- RANDOM_SOURCE_RECOVERY (R485). -/
def execRandomSourceRecovery (s : State) : Out := .next { s with sc := { s.sc with rndBad := false } }.scShow

/-- SC_RAND_READ (R487): a fresh random word. -/
def readRand (s : State) : Word × State :=
  let r := s.fresh
  (r.1.setWidth 32, r.2)

def execScRandRead (m : Master) (s : State) : Out :=
  let r := readRand s
  .next (r.2.setData m r.1)

/-- ATTEST_SIGNED (R480, R481): the report, signed once the index line has been written, is globally observed and the ATTEST
completes; `ok` tells whether its write succeeded. -/
def execAttestSigned (ok : Bool) (s : State) : Out :=
  match s.sc.attest.bind (fun a => a.at_.map (fun t => (a, t))) with
  | none => .next s
  | some (a, t) =>
    let s0 := { s with sc := { s.sc with attest := none } }
    match s.host.wbs.find? (fun w => w.ord == a.ord) with
    | none => .next s0
    | some w =>
      if ! ok then .next (s0.complete w 3 0 t)
      else
        let nonce := ((List.range 8).map (fun i => wordBytes (w.ws.getD (6 + i) 0))).flatten
        let addr := (w.ws.getD 4 0).toNat + 2 ^ 32 * (w.ws.getD 5 0).toNat
        .next ((((s0.hostWr addr (s.attestReport a nonce))).complete w 0 0 t).scCause 2)

end Sys2Proof.Machine
end

