-- ==== Sys2Proof/Machine/Resets.lean ====
section
/-!
DEFINITION. The resets (R321, R345, R403, R430, R458, R464–R466): what each kind returns to reset and what it leaves.
-/
namespace Sys2Proof.Machine

/-- Registers of the control die that a warm reset leaves (R345, R430, R446, R457, R467, R487). -/
def cdKeeps (a : Nat) : Bool :=
  a == A.SYS_RSTCAUSE || a == A.GD_STAT || (A.GD_LAST ≤ a && a ≤ A.GD_LAST_DT_H) || a == A.GD_LOGCNT || a == A.GD_BOOTNO
    || (0x08010100 ≤ a && a < 0x08010120) || (0x08012000 ≤ a && a < 0x08014000) || a == A.YD_NVWEARMAX || a == A.PM_WEARMAX
    || (0x08100000 ≤ a && a < 0x08110000) || a == A.OD_VCD || (0x08110200 ≤ a && a < 0x08110400) || a == A.CPL_EPOCH
    || a == A.SC_TAMPER

/-- Registers and context words of the control die. -/
def onControl (a : Nat) : Bool := (0x02000000 ≤ a && a < 0x02010000) || (0x08000000 ≤ a && a < 0x08200000)

/-- Registers of the field die but for the Lantern island. -/
def onField (a : Nat) : Bool := 0x08200000 ≤ a && a < 0x08300000 && ! (0x08270000 ≤ a && a < 0x08280000)

/-- Any register of the field die, the Lantern island's among them. -/
def onFieldDie (a : Nat) : Bool := 0x08200000 ≤ a && a < 0x08300000

namespace State

/-- A core as a reset leaves it (R232, R234, R235, R286): it has not been started. A PMWR in flight has completed. -/
def coldCore (k : CoreSt) (t : Nat) : CoreSt := { dbgHalt := k.dbgHalt, haltAt := k.haltAt, kickAt := t }

/-- A program-memory write in flight completes (R321). -/
def finishPmwr (s : State) (k : CoreSt) : State :=
  match k.pmwr with
  | some (l, ds, some _) => pmWriteLine l ds s
  | _ => s

/-- The TD part of a tandem-only reset (R303, R321, R323): cores, shadow contexts, latches and held writes. -/
def coresReset (s : State) : State :=
  let s1 := (s.finishPmwr s.coreA).finishPmwr s.coreB
  let s2 := { s1 with
    coreA := coldCore s1.coreA s.dtC, coreB := coldCore s1.coreB s.dtC, vecA := [], vecB := [],
    mem := { s1.mem with held := [], winStart := s.dtC, ssCtx := [], ssDeep := [] },
    -- reads of the cores that are under way have nobody to return to
    toControl := s1.toControl.filter (fun x => match x.msg with | .readData .coreA _ _ | .readData .coreB _ _ => false | _ => true),
    toField := s1.toField.filter (fun x => match x.msg with | .regRead .coreA _ | .regRead .coreB _ => false | _ => true) }
  let s3 := s2.resetRegs (fun a => a == A.TD_SSCTX || a == A.TD_SSSTAT || (A.TD_SSDEP 0 ≤ a && a < A.TD_SSDEP 40))
  ((s3.setFld A.TD_STAT 5 0 0).setFlag A.TD_STAT 25 false).setFlag A.TD_STAT 24 false

/-- The cores have been started since the last reset (R467). -/
def started (s : State) : Bool := s.flag A.SYS_BOOTSTAT 31

/-- A tandem-only reset (R321, R463, R464): recorded; it does nothing else while the cores have not been started or another
one runs. -/
def tandemReset (s : State) : State :=
  let s1 := s.setFlag A.SYS_RSTCAUSE 27 true
  if ! s.started ∨ s.mem.tdReset.isSome then s1
  else
    let s2 := s1.coresReset
    { s2 with mem := { s2.mem with tdReset := some s.dtC } }

/-- What a function-level reset resets (R368, R403): HQ, CS, the MSI-X structures, LK_HIRQ and configuration space. -/
def flrBlocks (s : State) : State :=
  let s1 := s.resetRegs (fun a => (0x080D0000 ≤ a && a < 0x080F0000) || (0x08131000 ≤ a && a < 0x08132000) || a == A.LK_HIRQ)
  let h := s.host
  let h1 : HostHid := { ord := h.ord, ptmAt := h.ptmAt, ptmT1 := h.ptmT1, farUpAt := h.farUpAt, svcSeq := h.svcSeq,
                        svcAt := h.svcAt, out := h.out }
  ({ s1 with host := h1 }.setFlag A.LK_UPSTAT 29 false).setFlag A.LK_UPSTAT 28 false

/-- A function-level reset, hot reset or link disable (R464). -/
def flr (s : State) : State := s.flrBlocks.setFlag A.SYS_RSTCAUSE 26 true

/-- The tracks as a reset of the control die leaves them: the field die keeps its own estimates (R49). -/
def trkCdReset (h : TrkHid) : TrkHid := { fSpd := h.fSpd, fVal := h.fVal, fTm := h.fTm }

/-- The control-die blocks return to reset (R464); `pon`: its always-on domain loses its supply too (R441). -/
def cdBlocks (s : State) (pon : Bool) : State :=
  let gs := s.rd A.GD_STAT &&& 0x40FFFFFF
  let s0 := s.endSession.flrBlocks.coresReset
  let s1 := s0.resetRegs (fun a => onControl a && (! cdKeeps a || (pon && a != A.YD_NVWEARMAX && a != A.PM_WEARMAX
    && a != A.OD_VCD && ! (0x08110200 ≤ a && a < 0x08110400))))
  -- the port on the field die keeps its link and its supply, which LK_SVCSTAT shows (R373, R375)
  let s2 := (if pon then s1 else s1.wr A.GD_STAT gs).wr A.LK_SVCSTAT (s.rd A.LK_SVCSTAT &&& 0xC0000000)
  let sc := s2.sc
  let gd := s2.gd
  { s2 with
    -- the latches of field-die registers are that die's (R87)
    latch := Sparse.drop (fun k => ! onFieldDie (k % 2 ^ 32)) s2.latch,
    toControl := s2.toControl.filter (fun x => match x.msg with | .fault _ => true | _ => false),
    toField := s2.toField.filter (fun x => match x.msg with | .ttCommit _ _ | .ttCancel _ _ => false | _ => true),
    active := if pon then [] else s2.active,
    trk := Sparse.mapv (fun _ => {}) trkCdReset s2.trk,
    tt := [], ttExec := s2.ttExec.filter (fun (x : TtExec) => x.field), trkWrQ := [], pcd := [],
    slots := [], gathers := [], tasks := [], notices := [], pport := [], bog := [], chs := [], reliefFailed := false,
    patch := [], maps := [], cache := [], cacheClk := 0, fetches := [],
    od := { slow := false, settling := s2.od.settling },
    lk := {},
    gd := { gd with cdPend := false, tandemAt := none, copyBad := false, statusAt := s.dtC, statusLost := false, shake := [],
                    hbFrom := s.dtC + 5000,
                    causes := if pon then [] else gd.causes, pend := if pon then [] else gd.pend },
    sc := { sc with meas := [], attest := none, nonce := none, frags := [], dbgQ := [],
                    sessions := if pon then 0 else sc.sessions, idBlock := ! pon && sc.idBlock },
    mem := { s2.mem with hand := [], ydWin := none, ydNext := s.dtC, pattern := 0, tdReset := none } }

/-- A field-die reset (R121, R140, R363, R412, R464, R466): outputs off, limp at epoch 0. Commits held by its executors are
discarded (R54). -/
def fieldReset (s : State) : State :=
  let dead := s.ttExec.filter (fun x => x.field)
  let lostC := dead.map (fun x => x.entry) ++ s.toField.filterMap (fun x => match x.msg with | .ttCommit e _ => some e | _ => none)
  let s0 := forEach lostC (fun e t =>
    let h := t.getTt e
    (t.setTt e { h with commit := none, restart := false, k := if h.restart then 0 else h.k }).setFlag (A.TT_STAT e) 30 false) s
  let s1 := ((if s.flag A.FG_STAT 30 then s0.sendC .llClear else s0).resetRegs onField).setFlag A.SYS_RSTCAUSE 25 true
  let gd := s1.gd
  { s1 with
    toField := [], fdFaultQ := [],
    trk := Sparse.mapv (fun _ => {}) (fun (h : TrkHid) => { h with fSpd := 0, fVal := false, fTm := {} }) s1.trk,
    ttExec := s1.ttExec.filter (fun (x : TtExec) => ! x.field), gpaDrv := [],
    latch := Sparse.drop (fun k => onField (k % 2 ^ 32)) s1.latch, psyncAt := s1.dtF,
    sn := [], hk := {}, pu := [], bg := {}, cw := [], dw := [], ss := [], blAt := [], fieldClkLost := false, rejArmed := true,
    errout := false, tc := [], gstart := none,
    gd := { gd with watchFrom := none, hbSeen := none, hbVoid := none, granted := false, coupLost := false, losses := [], fdReset := true, fgShut := true, statTx := none } }.refreshAll (instant s.dtF 0)

/-- A power-on reset of the whole device (R458, R464): the NV yard, program MRAM, wear counts and the OTP stay (R345), as
does what lies outside; a running line write holds its old or its new contents (R338). -/
def porReset (s : State) : State :=
  let r := s.fresh
  let s0 := match s.mem.nvRun with
    | some (e, _) => if r.1.getLsbD 0 then nvCommit e r.2 else r.2
    | none => r.2
  let z : State := State.reset
  let sc := s0.sc
  { z with
    regs := s0.regs.filter (fun e => e.1 == A.YD_NVWEARMAX || e.1 == A.PM_WEARMAX),
    ram := Sparse.drop (fun a => a < 0x01000000) s0.ram, poison := Sparse.drop (fun h => 4 * h < 0x01000000) s0.poison,
    pm := s0.pm, pmBad := s0.pmBad,
    mem := { z.mem with nvWear := s0.mem.nvWear, pmWear := s0.mem.pmWear },
    sc := { z.sc with revoked := sc.revoked, arb := sc.arb, sealed_ := sc.sealed_, stored := sc.stored, idxLine := sc.idxLine },
    gpaIn := s0.gpaIn, cwIn := s0.cwIn, qe := s0.qe, hl := s0.hl, hostMem := s0.hostMem, farMem := s0.farMem, farPoison := s0.farPoison,
    host := { z.host with out := s0.host.out }, freeCtr := s0.freeCtr, pending := s0.pending }

end State

/-- TANDEM_RESET_DONE (R321, R315): the cores issue their first instruction, unless the injection test fails. -/
def execTandemResetDone (injOk : Bool) (s : State) : Out :=
  match s.mem.tdReset with
  | none => .next s
  | some _ =>
    let s1 := { s with mem := { s.mem with tdReset := none } }
    if s.unhitched ∨ injOk then
      let s2 := if s.unhitched then s1 else s1.setFlag A.TD_STAT 30 true
      let go := fun (k : CoreSt) => { k with run := true, pc := s.fld A.SYS_ENTRY 23 0, kickAt := s.dtC }
      -- signature windows count from the end of the reset (R310)
      .next { s2 with coreA := go s2.coreA, coreB := go s2.coreB, mem := { s2.mem with winStart := s.dtC } }
    else
      .next ((s1.setFlag A.TD_STAT 29 true).raiseC 0x13 0)

/-- TD_SRST (R321): a core at M writes TD_CTRL.SRST. -/
def execTdSrst (s : State) : Out := .next s.tandemReset

end Sys2Proof.Machine
end

