-- ==== Sys2Proof/Machine/Guard.lean ====
section
/-!
DEFINITION. The guard and the logbook (R404–R411, R421–R426) and the field guard's limp and limp-lock (R412, R417, R418).
-/
namespace Sys2Proof.Machine

/-- Reaction register of fault `id`. -/
def reactA (id : Nat) : Nat := 0x08011000 + 4 * id

/-- Fault IDs of R407. -/
def faultNamed (id : Nat) : Bool := (rowAt (reactA id)).isSome

/-- Notice vector group of a fault (R405): vector 224 + group. -/
def noticeGroup (id : Nat) : Nat :=
  if id < 0x10 then 0 else if id < 0x20 then 1 else if id < 0x40 then 2 else if id < 0x50 then 3 else if id < 0x60 then 4
  else if id < 0x80 then 5 else if id < 0x90 then 6 else 7

namespace State

/-! ### Limp (R412, R417, R418) -/

/-- The field die enters limp at DT `t`; a grant issued before no longer counts. -/
def enterLimp (s : State) (t : Nat) : State :=
  if s.limp then s
  else
    let s1 := { s.setFlag A.FG_STAT 31 true with errout := false, gd := { s.gd with granted := false } }
    s1.refreshAll (instant t 0)

/-- Limp with limp-lock. -/
def enterLock (s : State) (t : Nat) : State := (s.enterLimp t).setFlag A.FG_STAT 30 true

/-! ### GSAFE (R405, R406, R410, R411) -/

def gsafe (s : State) : Nat := s.fld A.GD_STAT 23 0

/-- The guard's GSAFE bits change and go to the field die (R410). -/
def setGsafe (s : State) (g : Nat) : State :=
  if g = s.gsafe then s else (s.setFld A.GD_STAT 23 0 g).sendF (.gsafe g)

/-- Channels bound to a unit that is in `p`. -/
def chansBound (s : State) (p : Nat → Bool) : List Nat :=
  (List.range 64).filter (fun ch => match s.chUnit ch with | some u => p u | none => false)

/-- Units of the channels in STANDBY, RUN, HOLD or RAMPDOWN that `p` names (R406). -/
def unitsBound (s : State) (p : Nat → Bool) : List Nat :=
  ((List.range 64).filter (fun ch => p ch && decide (1 ≤ s.chMode ch ∧ s.chMode ch ≤ 4))).filterMap (fun ch => s.chUnit ch)

/-- The unit set of instance `inst` of fault `id` (R406); none stands for every unit. -/
def unitSet (s : State) (id inst : Nat) : Option (List Nat) :=
  if id = 0x61 ∨ id = 0x62 then some [inst]
  else if (0x20 ≤ id ∧ id ≤ 0x23) ∨ id = 0x25 then
    if inst < 4 then some (s.unitsBound (fun ch => ch / 16 == inst))
    else
      let st := s.fld A.BG_RELIEF 31 29
      some (if 1 ≤ st ∧ st ≤ 3 then s.unitsBound (fun ch => ch / 16 == s.fld A.BG_RELIEF 28 27) else [])
  else if id = 0x24 then some (s.unitsBound (fun ch => ch == inst))
  else if id = 0x63 ∨ id = 0x65 then
    some (s.unitsBound (fun ch => (List.range 6).any (fun j => s.slotByte ch j == 128 + inst)))
  else if id = 0x66 then some (s.unitsBound (fun ch => s.chTrk ch == some inst))
  else if id = 0x60 then some ((List.range 24).filter (fun u => (s.fld (A.BL_SS_CFG u) 15 8).testBit inst))
  else none

/-- SAFE_ALL (R405): SAFE_ALL goes to the field die and every channel enters SAFE. -/
def safeAll (s : State) : State :=
  forUpTo 64 (fun ch t => t.guardSafe ch) ((s.setFlag A.GD_STAT 30 true).sendF .safeAll)

/-- Units `us` become GSAFE, for the cause `c` when there is one, and the channels bound to them enter SAFE (R405). -/
def safeUnits (s : State) (us : List Nat) (c : Option (Nat × Nat)) : State :=
  let us := us.filter (· < 24)
  let g := us.foldl (fun m u => m ||| 2 ^ u) s.gsafe
  let cs := match c with
    | some (id, inst) => us.map (fun u => (u, id, inst))
    | none => []
  let s1 := { s with gd := { s.gd with causes := s.gd.causes ++ cs.filter (fun x => ! s.gd.causes.contains x) } }.setGsafe g
  forEach (s1.chansBound (fun u => us.contains u)) (fun ch t => t.guardSafe ch) s1

/-- The instance of fault `id` that placed a unit in GSAFE is still active (R411). -/
def causeActive (s : State) (u : Nat) : Bool :=
  s.gd.causes.any (fun c => c.1 == u && Sparse.get (fun _ => false) s.active (c.2.1 * 256 + c.2.2))

/-- SAFE_RELEASE (R411): the named GSAFE bits clear, but those whose fault is active, which set RELERR. Answers whether
every bit has cleared. -/
def releaseGsafe (s : State) (mask : Nat) : Bool × State :=
  let us := (List.range 24).filter (fun u => mask.testBit u && s.gsafe.testBit u)
  let keep := us.filter (fun u => s.causeActive u)
  let go := us.filter (fun u => ! s.causeActive u)
  let g := go.foldl (fun m u => m ^^^ 2 ^ u) s.gsafe
  let s1 := { s with gd := { s.gd with causes := s.gd.causes.filter (fun c => ! go.contains c.1) } }.setGsafe g
  if keep = [] then (true, s1) else (false, s1.setFlag A.GD_STAT 29 true)

/-! ### Logbook (R421–R425) -/

def logBitA (id inst : Nat) : Nat := 0x08012000 + id * 0x20 + inst / 32 * 4

/-- The sticky bit of `id`, `inst` sets (R421). -/
def logSet (s : State) (id inst : Nat) : State :=
  if s.flag (logBitA id inst) (inst % 32) then s
  else (s.setFlag (logBitA id inst) (inst % 32) true).setFld A.GD_LOGCNT 16 0 (s.logCount + 1)

/-- Address of record `n` (R422). -/
def recA (n : Nat) : Nat := 0x010E0000 + n * 0x100

/-- 256 bytes with the CRC of bytes 0–247 at 248 (R422). -/
def withCrc (bs : List Byte) : List Byte := bs.take 248 ++ wordBytes (crc32 (bs.take 248)) ++ numBytes 4 0

/-- A record as the NV yard holds it, and whether its CRC failed: a record that fails, or that was never written, is taken
as zero (R422). -/
def readRec (s : State) (n : Nat) : List Byte × Bool :=
  let bs := s.nvBytes (recA n) 256
  let zero := List.replicate 256 (0 : Byte)
  if bs.all (· == 0) ∨ bs.all (· == 0xFF) then (zero, false)
  else if imgWord bs 248 = crc32 (bs.take 248) then (bs, false)
  else (zero, true)

/-- Bytes `o …` of a record replaced. -/
def patchRec (bs : List Byte) (o : Nat) (v : List Byte) : List Byte := bs.take o ++ v ++ bs.drop (o + v.length)

/-- `a + b` in 32 bits, saturating. -/
def sat32 (a b : Nat) : Nat := min (a + b) 0xFFFFFFFF

/-- A raise joins what waits for its record (R422). -/
def logPend (s : State) (f : FaultMsg) (react : Nat) : State :=
  let add := fun (p : LogPend) => { p with last := f.dt, count := p.count + 1, inst := f.inst, react := react,
                                           insts := if p.insts.contains f.inst then p.insts else p.insts ++ [f.inst] }
  let ps := s.gd.pend
  if ps.any (fun p => p.id == f.id) then
    { s with gd := { s.gd with pend := ps.map (fun (p : LogPend) => if p.id = f.id then add p else p) } }
  else { s with gd := { s.gd with pend := ps ++ [⟨f.id, f.dt, f.dt, 1, [f.inst], f.inst, react⟩] } }

/-- The record of a folded set of raises is written through the guard queue (R422). -/
def writeRec (s0 : State) (p : LogPend) : State :=
  let s := s0.eccSweep 16 (recA p.id) 256
  let old := (s.readRec p.id).1
  let total := imgNum old 4 4
  let boot := wordBytes (s.rd A.GD_BOOTNO)
  let bs0 := patchRec old 0 (numBytes 1 p.id ++ numBytes 1 1 ++ numBytes 2 0)
  let bs1 := patchRec bs0 4 (numBytes 4 (sat32 total p.count) ++ numBytes 4 (sat32 (imgNum old 8 4) p.count))
  let bs2 := if total = 0 then patchRec bs1 12 (boot ++ numBytes 8 p.first) else bs1
  let bs3 := patchRec bs2 24 (boot ++ numBytes 8 p.last ++ numBytes 1 p.inst ++ numBytes 1 p.react ++ numBytes 2 0)
  let map := p.insts.foldl (fun m i => m ||| 2 ^ i) (imgNum old 40 32)
  nvStore none (recA p.id) (withCrc (patchRec bs3 40 (numBytes 32 map))) s

/-- Raises of one ID that wait are written. -/
def flushRec (s : State) (id : Nat) : State :=
  match s.gd.pend.find? (fun p => p.id == id) with
  | some p => { s with gd := { s.gd with pend := s.gd.pend.filter (fun q => q.id != id) } }.writeRec p
  | none => s

/-- Bits of record `id` that `p` names are cleared (R423). -/
def clearRec (s0 : State) (id : Nat) (p : Nat → Bool) : State :=
  let s := s0.eccSweep 16 (recA id) 256
  let old := (s.readRec id).1
  let map := (List.range 256).foldl (fun m i => if p i ∧ m.testBit i then m ^^^ 2 ^ i else m) (imgNum old 40 32)
  nvStore none (recA id) (withCrc (patchRec (patchRec old 8 (numBytes 4 0)) 40 (numBytes 32 map))) s

/-- The header counts a clear (R422, R423). -/
def clearHead (s0 : State) : State :=
  let s := s0.eccSweep 16 (recA 0) 256
  let old := (s.readRec 0).1
  let bs := patchRec old 8 (numBytes 4 (sat32 (imgNum old 8 4) 1))
  let bs1 := patchRec bs 16 (numBytes 8 s.dtC ++ wordBytes (s.rd A.GD_BOOTNO))
  nvStore none (recA 0) (withCrc bs1) s

/-- Sticky bits of `id`. -/
def logBits (s : State) (id : Nat) : Nat :=
  (List.range 8).foldl (fun acc j => acc + s.num (logBitA id (32 * j)) * 2 ^ (32 * j)) 0

/-- LOG_CLEAR (R423): the bits that `all` (every ID), `allInst` or `id`, `inst` name; active IDs keep theirs and set
CLRREF. -/
def logClear (s : State) (all allInst : Bool) (id inst : Nat) : State :=
  let ids := if all then List.range 256 else [id]
  let named := fun (i : Nat) => all || allInst || i == inst
  let r := ids.foldl (fun (st : Bool × State) k =>
    let t := st.2
    let bits := (List.range 256).filter (fun i => (t.logBits k).testBit i && named i)
    if bits = [] then st
    else if t.idActive k then (st.1, t.setFlag A.GD_STAT 28 true)
    else
      let t1 := t.flushRec k
      let t2 := forEach bits (fun i (u : State) => u.setFlag (logBitA k i) (i % 32) false) t1
      (true, (t2.setFld A.GD_LOGCNT 16 0 (t2.logCount - bits.length)).clearRec k (fun i => bits.contains i))) (false, s)
  if r.1 then r.2.clearHead else r.2

/-- The logbook at power-on (R421, R422): sticky bits from the records, and the boot number. -/
def logPowerOn (s0 : State) : State :=
  let s := s0.eccSweep 16 (recA 0) 0x10000
  let s1 := (List.range 255).foldl (fun (t : State) i =>
    let n := i + 1
    let r := s.readRec n
    if r.2 then { t with gd := { t.gd with badRecs := t.gd.badRecs + 1 } }
    else
      let map := imgNum r.1 40 32
      if map = 0 then t else (List.range 256).foldl (fun u b => if map.testBit b then u.logSet n b else u) t)
    { s with gd := { s.gd with badRecs := (s.readRec 0).2.toNat } }
  let head := (s.readRec 0).1
  let boot := (imgNum head 4 4 + 1) % 2 ^ 32
  let s2 := s1.wr A.GD_BOOTNO (BitVec.ofNat 32 boot)
  nvStore none (recA 0) (withCrc (patchRec (patchRec head 0 (numBytes 4 0x4C4F4731)) 4 (numBytes 4 boot))) s2

/-- The logbook summary of QUERY kind 2 at DT `t` (R425). -/
def logSummary (s : State) (t : Nat) : List Byte :=
  numBytes 32 ((List.range 256).foldl (fun m id => if s.logBits id ≠ 0 then m ||| 2 ^ id else m) 0)
    ++ numBytes 4 s.logCount ++ wordBytes (s.rd A.GD_BOOTNO) ++ numBytes 8 t ++ numBytes 4 s.gd.badRecs ++ numBytes 12 0

/-! ### Reactions (R404, R405, R411) -/

/-- Cause `b` of the GD block: 0–7 the notice groups, 8 vector 15 (R405, R426). -/
def gdCause (s : State) (b : Nat) : State :=
  let s1 := s.setFlag A.GD_IRQST b true
  if s.flag A.GD_IRQEN b then s1.raiseVec (if b = 8 then 15 else 224 + b) else s1

/-- RESET_CD (R405): LIMP goes to the field die; the reset starts when it has arrived. -/
def resetCd (s : State) : State :=
  let rung := s.fld A.PW_STAT 31 29
  let s1 := (s.sendF .limp).setFlag A.SYS_RSTCAUSE 29 true
  { s1 with gd := { s1.gd with cdPend := true }, pw := { s1.pw with cdAfter := rung == 1 || rung == 2 } }

/-- The action of reaction `r` to fault `f` (R405). -/
def reactTo (s : State) (f : FaultMsg) (r : Nat) : State :=
  match r with
  | 2 =>
    if ! s.started ∨ s.mem.tdReset.isSome then s.tandemReset
    else
      let again := match s.gd.tandemAt with
        | some t => decide (s.dtC < t + 1000000000)
        | none => false
      if again then s.resetCd
      else { s.tandemReset with gd := { s.gd with tandemAt := some s.dtC } }
  | 3 =>
    let s1 := relieve f.inst f.dt s
    if s1.fld (A.BGn_STAT f.inst) 31 30 = 2 then s1.setActive f.id f.inst true else s1
  | 4 =>
    match s.unitSet f.id f.inst with
    | some us => s.safeUnits us (some (f.id, f.inst))
    | none => s.safeAll
  | 5 => s.safeAll
  | 6 => s.resetCd
  | _ => s

/-- The reaction of fault `id` (R404, R407); one written in this very cycle is not yet in force (R408). -/
def reaction (s : State) (id : Nat) : Nat :=
  if ! faultNamed id then 0
  else match s.gd.reactWr with
    | some (k, t, old) => if k = id ∧ t = s.dtC then old else s.fld (reactA id) 2 0
    | none => s.fld (reactA id) 2 0

/-- A fault reaches the guard (R404): sticky bit, GD_LAST, record and reaction; during a RESET_CD no reaction applies
(R411). -/
def guardTake (s : State) (f : FaultMsg) : State :=
  let r := if s.gd.cdPend then 0 else s.reaction f.id
  let s1 := (s.logSet f.id f.inst).wr A.GD_LAST (BitVec.ofNat 32 (2 ^ 31 + r * 65536 + f.id * 256 + f.inst))
  let s2 := (s1.wr64 A.GD_LAST_DT_L A.GD_LAST_DT_H s.dtC).logPend f r
  let s3 := if r = 0 then s2 else s2.gdCause (noticeGroup f.id)
  let s4 := if 3 ≤ r then s3.gdCause 8 else s3
  s4.reactTo f r

/-- The fault that the guard handles next: the first to arrive, and of those of one cycle the one with the highest reaction
code (R404). -/
def nextFault (s : State) : Option FaultMsg :=
  match s.faultQ with
  | [] => none
  | f :: l => some (l.foldl (fun m g => if g.dt = f.dt ∧ s.reaction m.id < s.reaction g.id then g else m) f)

/-- Fault reports that are next on the link reach the guard (R404, R509). -/
def arriveFaults (s : State) : State :=
  let isFault := fun (x : Xfer) => match x.msg with | .fault _ => true | _ => false
  let lead := s.toControl.takeWhile isFault
  { s with faultQ := s.faultQ ++ lead.filterMap (fun x => match x.msg with | .fault f => some f | _ => none),
           toControl := s.toControl.drop lead.length }

/-- The guard locks (R408). -/
def guardLock (s : State) : State := s.setFlag A.GD_STAT 31 true

end State

/-- LOGBOOK_RECORD_WRITE (R422): the guard writes the record of the oldest raises that wait. -/
def execLogbookRecordWrite (s : State) : Out :=
  match s.gd.pend with
  | [] => .next s
  | p :: _ => .next (s.flushRec p.id)

/-- A write of GD_REACTn (R408). -/
def writeReact (id : Nat) (v : Word) (s : State) : State :=
  if ! faultNamed id ∨ s.locked then s
  else
    let r := bitsOf v 2 0
    if r < s.fld (reactA id) 6 4 ∨ r = 7 ∨ (r = 3 ∧ ! (0x20 ≤ id ∧ id ≤ 0x23)) then s.setFlag A.GD_STAT 27 true
    else { s with gd := { s.gd with reactWr := some (id, s.dtC, s.reaction id) } }.setFld (reactA id) 2 0 r

/-- GD_REACT_WRITE. -/
def execGdReactWrite (id : BitVec 8) (v : Word) (s : State) : Out := .next (writeReact id.toNat v s)

/-- GD_LOCK (R408): a write of GD_CTRL.LOCK. -/
def execGdLock (s : State) : Out := .next (s.setFlag A.GD_CTRL 31 true).guardLock

/-- GD_REL (R411). -/
def execGdRel (v : BitVec 24) (s : State) : Out := .next (s.releaseGsafe v.toNat).2

/-- A write of GD_LOGCLR (R423): the key must match; each GO consumes GD_LOGKEYIN. -/
def writeLogClr (v : Word) (s : State) : State :=
  if ! bitOf v 31 then s
  else
    let key := s.rd A.GD_LOGKEY
    let s1 := s.wr A.GD_LOGKEYIN 0
    if key = 0 ∨ s.rd A.GD_LOGKEYIN ≠ key then s1.setFlag A.GD_STAT 28 true
    else s1.logClear (bitOf v 29) (bitOf v 30) (bitsOf v 15 8) (bitsOf v 7 0)

/-- GD_LOGCLR. -/
def execGdLogclr (v : Word) (s : State) : Out := .next (writeLogClr v s)

/-- A write of a GD register (R426): the clear key is ignored after lock (R423). -/
def writeGd (a : Nat) (v ev : Word) (s : State) : State :=
  if 0x08011000 ≤ a ∧ a < 0x08011400 then writeReact ((a - 0x08011000) / 4) v s
  else if a = A.GD_CTRL then
    let s1 := s.plainWrite a v
    if bitOf v 31 then s1.guardLock else s1
  else if a = A.GD_REL then (s.releaseGsafe (bitsOf v 23 0)).2
  else if a = A.GD_LOGKEY then if s.locked then s else s.wr a v
  else if a = A.GD_LOGKEYIN then s.wr a v
  else if a = A.GD_LOGCLR then writeLogClr v s
  else s.plainWrite a v ev

/-- The guard's bits reach the field die. -/
def State.takeGsafe (s : State) (g : Nat) : State := (s.setFld A.FG_STAT 23 0 g).refreshAll (instant s.dtF 0)

/-- GSAFE_UPDATE (R410): after a field-die reset FG_GSAFE stays 0 until the next CLAIM (R412). -/
def execGsafeUpdate (s : State) : Out :=
  match takeHead (fun m => match m with | .gsafe g => some g | _ => none) s.toField with
  | some (g, rest) => .next (if s.gd.fgShut then { s with toField := rest } else { s with toField := rest }.takeGsafe g)
  | none => .next s

/-- SAFE_ALL_ARRIVAL (R418). -/
def execSafeAllArrival (s : State) : Out :=
  match takeHead (fun m => match m with | .safeAll => some () | _ => none) s.toField with
  | some (_, rest) => .next ({ s with toField := rest }.enterLock s.dtF)
  | none => .next s

/-- FAULT_QUEUE_FLUSH (R443): the link is back, and the faults that the field die has kept reach the guard's queue. -/
def execFaultQueueFlush (s : State) : Out :=
  if s.linkUp then .next (forEach s.fdFaultQ (fun f (t : State) => t.sendC (.fault f)) { s with fdFaultQ := [] }) else .next s

/-- GUARD_COPY_DISAGREEMENT (R409): the heartbeat stops. -/
def execGuardCopyDisagreement (s : State) : Out := .next { s with gd := { s.gd with copyBad := true } }

/-- A fault whose active condition lies outside the block (R407). -/
def outsideFault (id : Nat) : Bool := id == 1 || id == 2 || id == 3 || id == 4 || id == 6 || id == 7 || id == 0x92

/-- FAULT_CONDITION_CLEARED (R407): the condition of fault `id`, instance `inst`, ends. -/
def execFaultConditionCleared (id inst : BitVec 8) (s : State) : Out :=
  if outsideFault id.toNat then
    let s1 := s.setActive id.toNat inst.toNat false
    .next (if id = 1 then { s1 with pw := { s1.pw with lowVsup := false } } else s1)
  else .next s

/-- The condition of fault `id` on a supply, a clock or a temperature of the control die begins: a fault is raised once at its
onset (R404). -/
def faultOnC (id inst : Nat) (s : State) : State :=
  if Sparse.get (fun _ => false) s.active (id * 256 + inst) then s else (s.raiseC id inst).setActive id inst true
/-- The same on the field die. -/
def faultOnF (id inst : Nat) (s : State) : State :=
  if Sparse.get (fun _ => false) s.active (id * 256 + inst) then s else (s.raiseF id inst).setActive id inst true

/-- CORE_SUPPLY (R407). -/
def execCoreSupply (s : State) : Out := .next (faultOnC 0x03 0 s)
/-- TEMP_CD (R407). -/
def execTempCd (s : State) : Out := .next (faultOnC 0x06 0 s)
/-- TEMP_FD (R407). -/
def execTempFd (s : State) : Out := .next (faultOnF 0x07 0 s)
/-- VSUP_OV (R412): limp with limp-lock. -/
def execVsupOv (s : State) : Out := .next ((faultOnF 0x02 0 s).enterLock s.dtF)

/-- CLK_LOSS (R25, R412): instance 0 the control die's clocks, 1 the field die's, 2 REF50 as the monitor of the field die
(`fd`) or of the control die finds it. A lost field clock holds every output off and sets limp-lock. -/
def execClkLoss (inst : Fin 3) (fd : Bool) (s : State) : Out :=
  let onF := inst.val = 1 ∨ (inst.val = 2 ∧ fd)
  let s1 := if onF then faultOnF 0x04 inst s else faultOnC 0x04 inst s
  if inst.val = 0 then .next s1
  else
    let s2 := { s1 with fieldClkLost := true }.enterLock s.dtF
    let t := instant s.dtF 0
    -- a unit that a line or limp had made safe leaves its own safe state too
    .next ((s2.refreshAll t).redrive t)

end Sys2Proof.Machine
end

