-- ==== Sys2Proof/Machine/Coupler.lean ====
section
/-!
DEFINITION. The coupler and the field guard (R413–R420, R427–R429): heartbeats, STATUS, claims, limp-lock and ERROUT.
-/
namespace Sys2Proof.Machine

namespace State

/-- Cause `b` of the CPL block (R428). -/
def cplCause (s : State) (b : Nat) : State :=
  let s1 := s.setFlag A.CPL_IRQST b true
  if s.flag A.CPL_IRQEN b then s1.raiseVec 245 else s1

/-- A brake line is latched (R127). -/
def anyLine (s : State) : Bool := s.fld A.BL_STAT 7 0 != 0

/-- Every enabled PU and GP output has a seal accepted since the last GRANT (R419 step 4). -/
def allSealed (s : State) : Bool :=
  (List.range 48).all (fun u => ! s.flag (uCtl u) 31 || (s.getPu u).marked)

/-- The control side learns that the field die is in limp or not: entering it is cause 4 (R428). -/
def showLimp (s : State) (limp : Bool) : State :=
  let s1 := s.setFlag A.CPL_STAT 30 limp
  if limp ∧ ! s.flag A.CPL_STAT 30 then s1.cplCause 4 else s1

/-- A REFUSE or TIMEOUT (R419). -/
def refused (s : State) (reason : Nat) : State :=
  ((s.setFld A.CPL_STAT 2 0 reason).setFlag A.CPL_STAT 28 true).cplCause 2

/-- A handshake that ends. -/
def endShake (s : State) (h : Handshake) : State :=
  { s with gd := { s.gd with shake := s.gd.shake.filter (fun x => x != h) } }

/-- A CLAIM or RELEASE_LIMP waits for its answer; it replaces an earlier one of its kind. -/
def beginShake (s : State) (release : Bool) (nonce : Nat) : State :=
  { s with gd := { s.gd with shake := s.gd.shake.filter (fun (x : Handshake) => x.release != release) ++ [⟨release, nonce, s.dtC⟩] } }

/-- CPL_CTRL.CLAIM (R419 step 1): the next epoch, a fresh nonce and the guard's GSAFE bits. -/
def sendClaim (s : State) : State :=
  let e := (max (s.num A.CPL_EPOCH) (s.num A.CPL_FEPOCH) + 1) % 2 ^ 32
  let r := s.fresh
  let n := r.1.toNat % 2 ^ 32
  ((r.2.wr A.CPL_NONCE (BitVec.ofNat 32 n)).beginShake false n).sendF (.claim e n s.gsafe)

/-- CPL_CTRL.RELEASE (R419 step 5). -/
def sendRelease (s : State) : State :=
  let n := s.num A.CPL_NONCE
  (s.beginShake true n).sendF (.releaseLimp (s.num A.CPL_EPOCH) n)

end State

/-- HEARTBEAT_SEND (R416): at each multiple of 1,000 ns of the control DT; a disagreement of the guard's copies stops it
(R409). -/
def execHeartbeatSend (s : State) : Out :=
  if s.dtC % 1000 = 0 ∧ s.flag A.CPL_CTRL 29 ∧ ! s.gd.copyBad ∧ s.rung < 2 ∧ s.gd.hbFrom ≤ s.dtC
      ∧ s.gd.hbTx ≠ some s.dtC then
    .next ({ s with gd := { s.gd with hbTx := some s.dtC } }.sendF (.heartbeat (s.num A.CPL_EPOCH)))
  else .next s

/-- HEARTBEAT (R416): a valid heartbeat restarts the watch, unless it belongs to a period whose heartbeat counts as missed
(R21). Its period is that of its transmission. -/
def execHeartbeat (s : State) : Out :=
  match s.toField with
  | [] => .next s
  | x :: rest =>
    match x.msg with
    | .heartbeat e =>
      let s1 := { s with toField := rest }
      let p := x.start / 1000
      if e = s1.num A.FG_EPOCH ∧ e ≠ 0 ∧ s1.gd.hbVoid ≠ some p then
        .next { s1 with gd := { s1.gd with watchFrom := some s1.dtF, hbSeen := some (p, s1.gd.watchFrom) } }
      else .next s1
    | _ => .next s

/-- COUPLING_LOSS (R416, R418): 4,000 ns without a valid heartbeat. Only an entry into limp counts. -/
def execCouplingLoss (s : State) : Out :=
  match s.gd.watchFrom with
  | none => .next s
  | some t =>
    if s.dtF < t + 4000 then .next s
    else
      let s1 := { s with gd := { s.gd with watchFrom := none, granted := false, coupLost := true } }
      let s2 := ((s1.raiseF 0x51 0).setActive 0x51 0 true).sendC .limpNotice
      if s.limp then .next s2
      else
        let ls := (s2.gd.losses ++ [s.dtF]).filter (fun x => decide (s.dtF < x + 1000000000))
        let s3 := ({ s2 with gd := { s2.gd with losses := ls } }.satAdd A.FG_LOSSCNT 31 0 1).enterLimp s.dtF
        let n := s.fld A.FG_CFG 3 0
        .next (if n ≠ 0 ∧ n ≤ ls.length then s3.setFlag A.FG_STAT 30 true else s3)

/-- STATUS_SEND (R416): every 1 µs. -/
def execStatusSend (s : State) : Out :=
  if (match s.gd.statTx with | some t => decide (s.dtF < t + 1000) | none => false) then .next s
  else .next ({ s with gd := { s.gd with statTx := some s.dtF } }.sendC (.status s.limp s.limpLock (s.num A.FG_EPOCH) (s.num A.FG_REJCNT)))

/-- STATUS (R416, R427): the CPL registers take the field die's view. -/
def execStatus (s : State) : Out :=
  match takeHead (fun m => match m with | .status l k e r => some (l, k, e, r) | _ => none) s.toControl with
  | none => .next s
  | some ((l, k, e, r), rest) =>
    let s1 := { s with toControl := rest, gd := { s.gd with statusAt := s.dtC, statusLost := false } }
    let s2 := (((s1.wr A.CPL_FEPOCH (BitVec.ofNat 32 e)).wr A.CPL_REJCNT (BitVec.ofNat 32 r)).setFlag A.CPL_STAT 29 k).showLimp l
    let s3 := if e ≠ s2.num A.CPL_EPOCH then s2.setFlag A.CPL_STAT 31 false else s2
    .next (if l then s3 else (s3.setActive 0x51 0 false).setActive 0x51 1 false)

/-- STATUS_TIMEOUT (R416): no STATUS for 4 µs. -/
def execStatusTimeout (s : State) : Out :=
  if s.gd.statusAt + 4000 ≤ s.dtC ∧ ! s.gd.statusLost ∧ s.rung < 2 then
    .next (({ s with gd := { s.gd with statusLost := true } }.raiseC 0x51 1).setActive 0x51 1 true)
  else .next s

/-- CPL_CLAIM (R419). -/
def execCplClaim (s : State) : Out := .next s.sendClaim

/-- CLAIM (R419 steps 2 and 3): FG_GSAFE takes the bits that it carries; then the check. -/
def execClaim (s : State) : Out :=
  match takeHead (fun m => match m with | .claim e n g => some (e, n, g) | _ => none) s.toField with
  | none => .next s
  | some ((e, n, g), rest) =>
    let s1 := { s with toField := rest, gd := { s.gd with fgShut := false } }.takeGsafe g
    let why := if ! s1.limp then 1 else if s1.anyLine then 2 else if s1.limpLock then 3
      else if e ≤ s1.num A.FG_EPOCH then 4 else 0
    if why ≠ 0 then .next (s1.sendC (.refuse n why (s1.num A.FG_EPOCH)))
    else
      let s2 := ((s1.wr A.FG_EPOCH (BitVec.ofNat 32 e)).setFlag A.FG_STAT 29 true).setActive 0x53 0 false
      let s3 := { s2 with
        pu := Sparse.mapv (fun _ => ({} : PuHid)) (fun (h : PuHid) => { h with marked := false }) s2.pu,
        rejArmed := true, gd := { s2.gd with granted := true, watchFrom := some s2.dtF, coupLost := false } }
      .next (s3.sendC (.grant n e))

/-- GRANT (R408, R419): taken only with the control side's own nonce. -/
def execGrant (s : State) : Out :=
  match takeHead (fun m => match m with | .grant n e => some (n, e) | _ => none) s.toControl with
  | none => .next s
  | some ((n, e), rest) =>
    let s1 := { s with toControl := rest }
    if n ≠ s1.num A.CPL_NONCE then .next s1
    else
      let s2 := { s1 with gd := { s1.gd with shake := s1.gd.shake.filter (fun (h : Handshake) => h.release) } }
      .next (((s2.wr A.CPL_EPOCH (BitVec.ofNat 32 e)).setFlag A.CPL_STAT 31 true).guardLock.cplCause 0)

/-- REFUSE (R419): the answer to a handshake that still waits. -/
def execRefuse (s : State) : Out :=
  match takeHead (fun m => match m with | .refuse n r _ => some (n, r) | _ => none) s.toControl with
  | none => .next s
  | some ((n, r), rest) =>
    let s1 := { s with toControl := rest }
    match s1.gd.shake.find? (fun h => h.nonce == n) with
    | some h => .next ((s1.endShake h).refused r)
    | none => .next s1

/-- CPL_RELEASE (R419). -/
def execCplRelease (s : State) : Out := .next s.sendRelease

/-- RELEASE_LIMP (R417, R419 step 6, R420). -/
def execReleaseLimp (s : State) : Out :=
  match takeHead (fun m => match m with | .releaseLimp e n => some (e, n) | _ => none) s.toField with
  | none => .next s
  | some ((e, n), rest) =>
    let s1 := { s with toField := rest }
    let why := if ! s1.limp then 1 else if s1.limpLock then 3 else if e ≠ s1.num A.FG_EPOCH then 4
      else if ! s1.gd.granted then 5 else if ! s1.allSealed then 6 else 0
    if why ≠ 0 then .next (s1.sendC (.refuse n why (s1.num A.FG_EPOCH)))
    else .next (((s1.setFlag A.FG_STAT 31 false).refreshAll (instant s1.dtF 0)).sendC (.released e))

/-- RELEASED (R419, R428). -/
def execReleased (s : State) : Out :=
  match takeHead (fun m => match m with | .released _ => some () | _ => none) s.toControl with
  | none => .next s
  | some (_, rest) =>
    let s1 := { s with toControl := rest, gd := { s.gd with shake := s.gd.shake.filter (fun (h : Handshake) => ! h.release) } }
    .next (((s1.setFlag A.CPL_STAT 30 false).setActive 0x51 0 false).setActive 0x51 1 false |>.cplCause 1)

/-- CLAIM_TIMEOUT (R419): a handshake has no answer after 2 µs. -/
def execClaimTimeout (s : State) : Out :=
  match s.gd.shake.find? (fun h => decide (h.at_ + 2000 ≤ s.dtC)) with
  | some h => .next ((s.endShake h).refused 7)
  | none => .next s

/-- REJECT (R415, R428). -/
def execReject (s : State) : Out :=
  match takeHead (fun m => match m with | .reject _ e l => some (e, l) | _ => none) s.toControl with
  | none => .next s
  | some ((e, l), rest) =>
    let s1 := { s with toControl := rest }
    .next (((s1.wr A.CPL_FEPOCH (BitVec.ofNat 32 e)).setFlag A.CPL_STAT 30 l).setFlag A.CPL_STAT 27 true |>.cplCause 3)

/-- SUSPEND (R435): limp without a fault, and no heartbeats expected. -/
def execSuspend (s : State) : Out :=
  match takeHead (fun m => match m with | .suspend => some () | _ => none) s.toField with
  | none => .next s
  | some (_, rest) =>
    let s1 := { s with toField := rest }
    .next ({ s1 with gd := { s1.gd with watchFrom := none } }.enterLimp s1.dtF)

/-- LIMP_NOTICE (R416, R428): the grant no longer counts (R420). -/
def execLimpNotice (s : State) : Out :=
  match takeHead (fun m => match m with | .limpNotice => some () | _ => none) s.toControl with
  | none => .next s
  | some (_, rest) => .next (({ s with toControl := rest }.showLimp true).setFlag A.CPL_STAT 31 false)

/-- LIMP_LOCK_CLEAR_NOTICE (R418). -/
def execLimpLockClearNotice (s : State) : Out :=
  match takeHead (fun m => match m with | .llClear => some () | _ => none) s.toControl with
  | none => .next s
  | some (_, rest) => .next (({ s with toControl := rest }.setFlag A.GD_STAT 30 false).setFlag A.CPL_STAT 29 false)

/-- A core's write of FG_LLCLR at the field die (R418). -/
def writeLlclr (v : Word) (s : State) : State :=
  if bitsOf v 15 0 ≠ 0x4C4C then s
  else
    let act := fun (k : Nat) => Sparse.get (fun _ => false) s.active k
    if act 0x100 ∨ act 0x200 ∨ act 0x401 ∨ act 0x402 ∨ s.fieldClkLost then s.setFlag A.FG_STAT 28 true
    else if s.limpLock then (s.setFlag A.FG_STAT 30 false).sendC .llClear
    else s

/-- FG_LLCLR. -/
def execFgLlclr (v : Word) (s : State) : Out := .next (writeLlclr v s)

/-- A write of an FG register (R429). -/
def writeFg (a : Nat) (v ev : Word) (s : State) : State := if a = A.FG_LLCLR then writeLlclr v s else s.plainWrite a v ev

/-- A write of a CPL register (R427). -/
def writeCpl (a : Nat) (v ev : Word) (s : State) : State :=
  let s1 := s.plainWrite a v ev
  if a = A.CPL_CTRL then
    let s2 := if bitOf v 31 then s1.sendClaim else s1
    if bitOf v 30 then s2.sendRelease else s2
  else s1

/-- What CPL_CTRL reads as: its SC bits read 1 until the answer arrives (R11). -/
def readCplCtrl (s : State) : Word :=
  let w := s.rd A.CPL_CTRL
  setBit (setBit w 31 (s.gd.shake.any (fun h => ! h.release))) 30 (s.gd.shake.any (fun h => h.release))

/-- ERROUT_TOGGLE (R413). -/
def execErroutToggle (s : State) : Out :=
  if s.dtF % 500 = 0 ∧ ! s.limp ∧ s.gd.errAt ≠ some s.dtF then
    .next { s with errout := ! s.errout, gd := { s.gd with errAt := some s.dtF } }
  else .next s

end Sys2Proof.Machine
end

