-- ==== Sys2Proof/Machine/Startup.lean ====
section
/-!
DEFINITION. Start-up (R458–R466, R339): the checks in their order, their outcomes, the halt, and the resets that run them.
-/
namespace Sys2Proof.Machine

/-- Which steps of R459 a start runs: the calibration record (5), the logic self-test (6), the memory self-test (7). -/
structure Steps where
  cal : Bool
  logic : Bool
  mem : Bool
  deriving DecidableEq, Repr

namespace State

/-- The record of R339: first word, length and CRC. Its length lies between its fixed part and its region (R336). -/
def calOk (s : State) : Bool :=
  let len := s.safeNum 0x010F0008 4
  s.safeNum 0x010F0000 4 == 0x43414C31 && decide (0x610 ≤ len ∧ len ≤ 0x4000)
    && s.safeNum 0x010F000C 4 == (crc32 (s.nvBytes 0x010F0010 (len - 0x10))).toNat

/-- The trims of SN channel `c`, range `r`, as words of the record, or the defaults of R462. -/
def trimWord (s : State) (ok : Bool) (c r : Nat) (gain : Bool) : Word :=
  if ok then BitVec.ofNat 32 (s.safeNum (0x010F0010 + (4 * c + r) * 8 + (if gain then 4 else 0)) 4 % 2 ^ 24)
  else if gain then 0x400000 else 0

/-- The trims are loaded (R67, R339, R466). -/
def loadTrims (s : State) : State :=
  let s := s.eccSweep 16 0x010F0000 0x4000
  let ok := s.calOk
  forUpTo 48 (fun c t => forUpTo 4 (fun r t =>
    let a := A.SN_TRIM0_OFS c + 8 * r
    (t.wr a (s.trimWord ok c r false)).wr (a + 4) (s.trimWord ok c r true)) t) s

/-- A start-up halt at `stage` (R463). -/
def halt (s : State) (stage : Nat) : State := (s.setFld A.SYS_BOOTSTAT 3 0 stage).setFlag A.SYS_BOOTSTAT 30 true

/-- The cores issue their first instruction at `pc`, at M in bank 0 (R290, R465); the bogies BG0–BG3 run. -/
def startCores (s : State) (pc : Nat) : State :=
  let go := fun (k : CoreSt) => { coldCore k s.dtC with run := true, pc := pc }
  let s1 := forUpTo 4 (fun b (t : State) => t.setFld (A.BGn_STAT b) 31 30 1)
    -- signature windows count from the end of the reset (R310)
    { s with coreA := go s.coreA, coreB := go s.coreB, mem := { s.mem with winStart := s.dtC, winPos := none } }
  (s1.setFld A.SYS_BOOTSTAT 3 0 11).setFlag A.SYS_BOOTSTAT 31 true

/-- Steps 10 and 11 (R195, R197, R462). -/
def startLate (s : State) (o : StartOut) (fast : Bool) : State :=
  let s1 := s.setFld A.SYS_BOOTSTAT 3 0 10
  let s2 := if o.romOk then s1.setFlag A.BG_UC_STAT 29 true
    else ((s1.setFlag A.BG_UC_STAT 28 true).setFlag A.SYS_BOOTSTAT 28 true).raiseC 0x13 1
  let s3 := (s2.patchLoad (! fast)).recordMeas fast
  s3.startCores (s3.fld A.SYS_ENTRY 23 0)

/-- Steps 8 and 9 (R473, R474, R315), then the rest. `fast`: the seal holds (R478). -/
def startMid (s0 : State) (o : StartOut) (fast : Bool) : State :=
  let s := s0.eccSweep 16 mfBase 0x10000
  match s.mfCheck fast o.progBad with
  | some i => ((s.raiseC 0x90 i).setFld A.SC_STAT 2 0 i).halt 8
  | none =>
    let s1 := (s.setFld A.SYS_BOOTSTAT 3 0 8).mfApply
    if s1.unhitched then s1.startLate o fast
    else if ! o.injOk then ((s1.setFlag A.TD_STAT 29 true).raiseC 0x13 0).halt 9
    else (s1.setFlag A.TD_STAT 30 true).startLate o fast

/-- What the always-on blocks show once the control die runs: identity key and DT of nothing else (R479, R487). -/
def showIds (s : State) : State :=
  let s1 := forUpTo 15 (fun j (t : State) => t.wr (A.SC_IDPUB j)
    (BitVec.ofNat 32 (bytesNum ((List.range 4).map (fun i => Config.idPub (4 * j + i)))))) s
  (match s1.idNext with
   | some c => s1.wr A.SC_IDCNT (BitVec.ofNat 32 c)
   | none => s1).scShow

/-- An upset of the NV yard that start-up's reads are to meet (R332): an uncorrectable word is found by whoever reads it. -/
def nvUpset (s : State) (u : Option (BitVec 17 × Bool)) : State :=
  match u with
  | none => s
  | some (w, bad) =>
    let h := 0x01000000 / 4 + 2 * w.toNat
    if bad then { s with poison := Sparse.set (fun _ => false) (Sparse.set (fun _ => false) s.poison h true) (h + 1) true }
    else (s.eccRead 16 (4 * h) 8 1).1

/-- The control-die part of start-up (R459, R462). -/
def startUp (s : State) (o : StartOut) (st : Steps) (fast : Bool) : State :=
  let s0 := s.showIds.nvUpset o.nvUp
  if o.testen then { s0 with pw := { s0.pw with factory := true } }
  else if st.cal ∧ o.otpBad then (s0.raiseC 0x90 0).halt 5
  else
    let s1 := if ! st.cal then s0 else
      let t := (s0.setFld A.SYS_BOOTSTAT 3 0 5).loadTrims
      if s0.calOk then t else (t.setFlag A.SYS_BOOTSTAT 29 true).raiseC 0x13 2
    if st.logic ∧ ! o.logicOk then (s1.raiseC 0x13 3).halt 6
    else if st.mem ∧ ! o.memOk then (s1.raiseC 0x13 4).halt 7
    else s1.startMid o fast

/-- The device has begun its start-up and has not lost power since (R459): a step is under way, halted or done. -/
def booted (s : State) : Bool := s.fld A.SYS_BOOTSTAT 3 0 != 0 || s.pw.factory

/-- A control-die warm reset (R464): steps 5, 6, 8, 9 and 10. -/
def warmReset (s : State) (o : StartOut) : State := (s.cdBlocks false).startUp { o with testen := false } ⟨true, true, false⟩ false

end State

/-- COLD_START (R458, R459): power from VSUP or PoDL with PORST_N high; step 4 follows the comparator self-test of step 3. -/
def execColdStart (o : StartOut) (vsup podl : Bool) (s : State) : Out :=
  if s.booted ∨ ! (vsup ∨ podl) ∨ ! s.selfTested then .next s
  else
    let s1 := ((s.setFlag A.LN_STAT 30 vsup).setFlag A.LN_STAT 31 podl).setFlag A.LK_SVCSTAT 30 podl
    let s2 := { s1 with pw := { s1.pw with vsel := o.vsel } }.refreshAll (instant s.dtF 0)
    let r := s2.fresh
    let s3 := ((r.2.setFld A.OD_VCD 3 0 (r.1.toNat % 16)).setActive 0xA1 0 (r.1.toNat % 16 == 15)).logPowerOn
    .next (s3.startUp o ⟨true, true, true⟩ false)

/-- PORST (R458): PORST_N low for 1 µs. -/
def execPorst (s : State) : Out := .next s.porReset

/-- POWER_LOSS (R458): VSUP below 4.5 V without PoDL power. -/
def execPowerLoss (s : State) : Out := if s.flag A.LN_STAT 31 then .next s else .next s.porReset

/-- SYS_CDRST (R464): a control-die warm reset; the field die enters limp. -/
def cdRst (o : StartOut) (s : State) : State := ((s.setFlag A.SYS_RSTCAUSE 28 true).sendF .limp).warmReset o

def execSysCdrst (o : StartOut) (s : State) : Out := .next (cdRst o s)

/-- SYS_FDRST (R464): a field-die reset. -/
def execSysFdrst (s : State) : Out := .next s.fieldReset

/-- FIELD_DIE_READY (R466, R493), after the comparator self-test (R137): VSEL is sampled, F_FIELD_RESET is reported, and the trims are written again. -/
def execFieldDieReady (vsel : BitVec 12) (s : State) : Out :=
  if ! s.gd.fdReset ∨ ! s.selfTested then .next s
  else
    let s1 : State := { s with gd := { s.gd with fdReset := false }, pw := { s.pw with vsel := vsel } }
    let s2 : State := (s1.raiseF 0x53 0).setActive 0x53 0 true
    .next s2.loadTrims

/-- A pending RESET_CD reaction runs its reset (R405, R411). -/
def State.runCdReset (s : State) (o : StartOut) : State :=
  { s with gd := { s.gd with cdPend := false }, pw := { s.pw with cdAfter := false } }.warmReset o

/-- LIMP at the field die: limp, and the reset that waits for it. -/
def limpArrives (o : StartOut) (s : State) : State :=
  let s1 : State := s.enterLimp s.dtF
  if s1.gd.cdPend && ! s1.pw.cdAfter then s1.runCdReset o else s1

/-- LIMP (R405): the field die enters limp, and a waiting RESET_CD starts its reset. -/
def execLimp (o : StartOut) (s : State) : Out :=
  match takeHead (fun (m : LinkMsg) => if m = .limp then some () else none) s.toField with
  | none => .next s
  | some (_, rest) => .next (limpArrives o { s with toField := rest })

end Sys2Proof.Machine
end

