-- ==== Sys2Proof/Machine/Power.lean ====
section
/-!
DEFINITION. The power ladder and the Lantern island (R431–R447, R497): requests, wake sources, supplies, the real-time
clock, the wake comparators and the lamplighter's controls.
-/
namespace Sys2Proof.Machine

namespace State

/-- The cores that must be in WFI are (R434). -/
def allWfi (s : State) : Bool := s.coreA.wait == .wfi && (! s.unhitched || s.coreB.wait == .wfi)

/-! ### What the rungs keep (R432, R433, R435) -/

/-- The upstream and downstream links and the service PHY are down, without a fault (R435). -/
def linksDown (s : State) : State :=
  let s1 := ((s.setFlag A.LK_UPSTAT 31 false).setFlag A.LK_FARSTAT 31 false).setFlag A.LK_FARSTAT 30 false
  (s1.setFlag A.LK_SVCSTAT 31 false).endSession

/-- The yards lose their contents (R432). -/
def loseYards (s : State) : State :=
  { s with ram := Sparse.drop (fun a => a < 0x01000000) s.ram, poison := Sparse.drop (fun h => 4 * h < 0x01000000) s.poison }

/-- The PWM, sense and HK domains lose their state (R432); in Shed FD_IO keeps the POL of the active sets (R433). -/
def losePwm (r : Nat) (s : State) : State :=
  let pol := forUpTo 48 (fun u (m : Sparse Nat) => Sparse.set (fun _ => 0) m u (s.uPol u)) []
  let s1 := s.resetRegs (fun a => (0x08200000 ≤ a && a < 0x08230000) || (0x08240000 ≤ a && a < 0x08250000))
  { s1 with pu := [], sn := [], hk := {},
            pw := { s1.pw with heldPol := if r = 4 then pol else [] } }.refreshAll (instant s.dtF 0)

/-- The control die's work in progress ends with its supply; its registers show at its start what they lose (R441). -/
def loseWork (s : State) : State :=
  { s with tasks := [], gathers := [], pport := [], bog := [], fetches := [], tt := [], trkWrQ := [],
           ttExec := s.ttExec.filter (fun x => x.field), coreA := { s.coreA with run := false }, coreB := { s.coreB with run := false } }

/-- The domains take the states of rung `r` (R432, R435 step 5). In Lantern all but the Lantern island is OFF: the other blocks of
the field die and the always-on domain lose their state. What the control die loses in Park and Shed shows at its start (R441). -/
def enterRung (s : State) (r : Nat) : State :=
  let s1 := s.showRung r
  let s2 := if 2 ≤ r then { s1 with linkUp := false, pw := { s1.pw with dtLoad := false } } else s1
  let s3 := if 3 ≤ r then s2.linksDown else s2
  let s4 := if 4 ≤ r then losePwm r s3.loseYards.loseWork else s3
  -- a CW that taps an SN input is held false from now on (R433)
  let s5 := if r = 4 then forUpTo 64 (fun n t => if t.fld (A.CW_CFG n) 22 16 < 48 then t.cwEval n else t) s4 else s4
  let s6 := if r = 5 then (s5.fieldReset.cdBlocks true).showRung 5 else s5
  { s6 with pw := { s6.pw with entry := none, req := none }, mem := { s6.mem with winPos := some (s.dtC - s.mem.winStart) } }

/-! ### Requests (R434) -/

/-- The resume region lies in a yard of TANDEM or CORE_A. -/
def resumeOk (s : State) : Bool :=
  s.flag A.PW_RESBASE 31 && decide (s.ydOwner (s.fld A.PW_RESBASE 21 16 / 4) ≤ 1)

/-- The reason that refuses rung `r`, or 0: conditions in the order of their codes (assumption 20). -/
def pwReason (s : State) (r : Nat) : Nat :=
  if (List.range 64).any (fun ch => let m := s.chMode ch; m == 1 || m == 2 || m == 4) then 1
  else if (r = 4 ∨ r = 5) ∧ (List.range 48).any (fun u => s.flag (uCtl u) 31) then 2
  else if r = 3 ∧ ! s.resumeOk then 3
  else if 2 ≤ r ∧ r ≤ 5 ∧ s.pendSources ≠ 0 then 4
  else if s.pw.req.isSome ∨ s.pw.entry.isSome ∨ s.pw.exit.isSome ∨ s.maps.any (fun m => m.2.load.isSome)
      ∨ s.coreA.pmwr.isSome ∨ s.coreB.pmwr.isSome then 5
  else if r = 0 ∨ 6 ≤ r then 6
  else 0

/-- A power source or its absence changes (R446 bit 3). -/
def supplyCause (s : State) : State := s.pwCause 3

/-- Shed forced by the loss of VSUP (R438). -/
def forceShed (s : State) : State :=
  let s1 := (nvDrain s).setFlag A.PW_STAT 18 true
  { s1 with pw := { s1.pw with req := none, entry := none, exit := none, wake := none } }.enterRung 4

end State

/-- A write of PW_REQ (R434). -/
def writePwReq (v : Word) (s : State) : State :=
  if ! bitOf v 31 then s
  else
    let r := bitsOf v 2 0
    let why := s.pwReason r
    if why ≠ 0 then ((s.setFlag A.PW_STAT 25 true).setFld A.PW_STAT 24 22 why).pwCause 0
    else { s with pw := { s.pw with req := some r } }

/-- PW_REQ. -/
def execPwReq (v : Word) (s : State) : Out := .next (writePwReq v s)

/-- A write of a PW register (R446). -/
def writePw (a : Nat) (v ev : Word) (s : State) : State :=
  if a = A.PW_REQ then writePwReq v s else s.plainWrite a v ev

/-- The RTC counter (R440). -/
def State.rtc (s : State) : Nat := s.num64 A.LN_RTC_L A.LN_RTC_H

/-- What makes wake source `w.src` true (R436), and its effect beside the source: an edge on a GPA pin, the service port's PHY
link coming up while it is powered, the upstream link leaving L1 or L1.2. Of the sources that the model itself makes true (LW,
alarm, brake line, counter, supplies), it holds while they are. -/
def wakeOf (w : WakeEvent) (s : State) : Option State :=
  let i := w.src.val
  if i < 8 then (if Sparse.get (fun _ => false) s.pw.lwTrue i then some s else none)
  else if i = 8 then (if s.rtc = s.num64 A.LN_ALARM_L A.LN_ALARM_H then some s else none)
  else if i = 9 then
    let t : State := { s with gpaIn := Sparse.set (fun _ => false) s.gpaIn w.pin (! Sparse.get (fun _ => false) s.gpaIn w.pin) }
    if s.flag A.LN_GPAWAKE w.pin ∧ s.rung < 5 then some t else none
  else if i = 10 then (if s.fld A.BL_STAT 7 0 ≠ 0 then some s else none)
  else if i = 11 then
    if (List.range 32).any (fun n => (List.range 6).any (fun b =>
        s.flag (A.TC_IRQEN n) b && s.flag (A.TC_STAT n) ([26, 25, 27, 28, 24, 23].getD b 26))) then some s else none
  else if i = 12 then some s
  else if i = 13 then (if s.flag A.LN_STAT 30 then some s else none)
  else if i = 14 then (if s.rung ≤ 2 then some (s.setFlag A.LK_SVCSTAT 31 true) else none)
  else if s.fld A.LK_UPSTAT 7 6 ≠ 0 then some (s.setFld A.LK_UPSTAT 7 6 0) else none

/-- WAKE_SOURCE (R436). -/
def execWakeSource (w : WakeEvent) (s : State) : Out :=
  match wakeOf w s with
  | some t => .next (t.wakeSource w.src)
  | none => .next s

/-- A lamplighter's write of LN_WAKE (R437): Shed only from Lantern. From Lantern, Shed powers the field die and CD_AON. -/
def writeLnWake (v : Word) (s : State) : State :=
  let r := bitsOf v 2 0
  if ! bitOf v 31 then s
  else if r = 0 then s.wakeTo 0 s.pendSources
  else if r = 4 ∧ s.rung = 5 ∧ s.pw.exit.isNone then
    let srcs := s.pendSources
    let s1 := (s.fieldReset.cdBlocks true).logPowerOn
    let s2 : State := { s1 with gd := { s1.gd with fdReset := false } }
    ((s2.setFld A.PW_STAT 28 26 5).recordWake srcs).showRung 4
  else if r = 4 ∧ s.pw.entry = some 5 then s.wakeTo 4 s.pendSources
  else s

/-- LN_WAKE. -/
def execLnWake (v : Word) (s : State) : Out := .next (writeLnWake v s)

/-- LW_SAMPLE (R439): comparator `n` samples its pin, at `uv` microvolts, once at each RTC tick whose number is a multiple of
2^RATE (assumption 154). -/
def execLwSample (n : Fin 8) (uv : BitVec 32) (s : State) : Out :=
  let c := A.LN_LWCFG n
  if ! s.flag c 31 ∨ s.rtc % 2 ^ s.fld c 29 27 ≠ 0 ∨ Sparse.get (fun _ => none) s.pw.lwAt n = some s.rtc then .next s
  else
    let thr := s.fld c 9 0 * 2500
    let hit : Bool := if s.flag c 30 then decide (uv.toNat < thr) else decide (thr < uv.toNat)
    let need := max 1 (s.fld c 26 23)
    let k := if hit then min need (Sparse.get (fun _ => 0) s.pw.lwCnt n + 1) else 0
    let was := Sparse.get (fun _ => false) s.pw.lwTrue n
    let now := hit && decide (need ≤ k)
    let s1 := { s with pw := { s.pw with lwCnt := Sparse.set (fun _ => 0) s.pw.lwCnt n k,
                                         lwTrue := Sparse.set (fun _ => false) s.pw.lwTrue n now,
                                         lwAt := Sparse.set (fun _ => none) s.pw.lwAt n (some s.rtc) } }
    .next (if now ∧ ! was then s1.wakeSource n else s1)

/-- RTC_ALARM (R440): once at the tick at which LN_RTC equals LN_ALARM. -/
def execRtcAlarm (s : State) : Out :=
  if s.rtc = s.num64 A.LN_ALARM_L A.LN_ALARM_H ∧ s.pw.alarmAt ≠ some s.rtc then
    .next ({ s with pw := { s.pw with alarmAt := some s.rtc } }.wakeSource 8)
  else .next s

/-- A read of LN_RTC_L latches LN_RTC_H for the requester (R440). -/
def readRtc (m : Master) (s : State) : Word × State := (s.rd A.LN_RTC_L, s.setLatch m A.LN_RTC_H (s.rd A.LN_RTC_H))

def execRtcRead (m : Master) (s : State) : Out := let r := readRtc m s; .next (r.2.setData m r.1)

/-- One more RTC tick. -/
def State.rtcStep (s : State) : State := s.wr64 A.LN_RTC_L A.LN_RTC_H ((s.rtc + 1) % 2 ^ 48)

/-- LANTERN_DT_TICK (R442): in Lantern an RTC tick advances the stored DT by 1,953,125 / 64 ns. -/
def execLanternDtTick (s : State) : Out :=
  if s.rung ≠ 5 then .next s
  else
    let f := s.pw.dtFrac + 1953125
    let s1 : State := { s with dtF := s.dtF + f / 64, pw := { s.pw with dtFrac := f % 64 } }
    .next s1.rtcStep

/-- LN_LLCTL.START (R444): the lamplighter starts at 0x0000 with its banks and STAT at reset. -/
def llStart (s : State) : State :=
  ({ s with lamp := { vtb := s.lamp.vtb, db := s.lamp.db, sfloor := s.lamp.sfloor, run := true } }.setFlag A.LN_STAT 29 true).setFlag A.LN_STAT 28 false

/-- LN_LLCTL.HALT (R444). -/
def llHalt (s : State) : State :=
  ({ s with lamp := { s.lamp with run := false } }.setFlag A.LN_STAT 29 false).setFlag A.LN_STAT 28 false

def execLlStart (s : State) : Out := .next (llStart s)
def execLlHalt (s : State) : Out := .next (llHalt s)

/-- A write of LN_PGDATA (R445). -/
def writePgData (v : Word) (s : State) : State :=
  if s.flag A.LN_STAT 29 then s.setFlag A.LN_STAT 24 true
  else
    let a := s.fld A.LN_PGADDR 13 0
    { s with lpm := Sparse.set (fun _ => 0) s.lpm a (v.setWidth 14) }.setFld A.LN_PGADDR 13 0 ((a + 1) % 2 ^ 14)

def execLnPgdata (v : Word) (s : State) : Out := .next (writePgData v s)

/-- A lamplighter's write of LN_MBOX (R445). -/
def writeMbox (v : Word) (s : State) : State := (s.wr A.LN_MBOX v).pwCause 2

def execLnMbox (v : Word) (s : State) : Out := .next (writeMbox v s)

/-- A write of LN_LWnCFG (R439): what the comparator has counted under the old settings is void (assumption 154). -/
def writeLw (n : Nat) (v : Word) (s : State) : State :=
  let t := s.plainWrite (A.LN_LWCFG n) v 0
  { t with pw := { t.pw with lwCnt := Sparse.set (fun _ => 0) t.pw.lwCnt n 0, lwTrue := Sparse.set (fun _ => false) t.pw.lwTrue n false } }

/-- A write of an LN register at the field die (R437, R444–R447): wakes and the mailbox's vector are the lamplighter's. -/
def writeLn (m : Master) (a : Nat) (v ev : Word) (s : State) : State :=
  if a = A.LN_WAKE then (if m = .lamp then writeLnWake v s else s)
  else if a = A.LN_MBOX then (if m = .lamp then writeMbox v s else s.wr a v)
  else if a = A.LN_LLCTL then
    let s1 := if bitOf v 31 then llStart s else s
    if bitOf v 30 then llHalt s1 else s1
  else if a = A.LN_PGDATA then writePgData v s
  else if A.LN_LWCFG 0 ≤ a ∧ a < A.LN_LWCFG 8 then writeLw ((a - A.LN_LWCFG 0) / 4) v s
  else s.plainWrite a v ev

/-- PODL_CHANGE (R436, R446, R497): PoDL power arrives or is lost. Lost while it supplies, the device loses its power. -/
def execPodlChange (present : Bool) (s : State) : Out :=
  if s.flag A.LN_STAT 31 = present then .next s
  else if ! present ∧ ! s.flag A.LN_STAT 30 then .next s.porReset
  else .next ((((s.setFlag A.LN_STAT 31 present).setFlag A.LK_SVCSTAT 30 present).wakeSource 12).supplyCause)

/-- VSUP_RISE (R436, R438, R497): VSUP rises above 6.0 V and takes over; a held wake to Run goes on. -/
def execVsupRise (s : State) : Out :=
  let s1 := (s.setFlag A.LN_STAT 30 true).setActive 0x01 0 false
  let s2 := ({ s1 with pw := { s1.pw with lowVsup := false } }.wakeSource 13).supplyCause
  .next (if s2.pw.held then { s2 with pw := { s2.pw with held := false } }.wakeTo 0 s2.pendSources else s2)

/-- VSUP_UV (R412, R438, R497): VSUP below 5.5 V for 1 µs; with PoDL power, Run to Park fall to Shed. -/
def execVsupUv (s : State) : Out :=
  let s1 := ((faultOnF 0x01 0 s).enterLock s.dtF).setFlag A.LN_STAT 30 false
  let s2 := { s1 with pw := { s1.pw with lowVsup := true } }.supplyCause
  .next (if s2.rung ≤ 3 ∧ s2.flag A.LN_STAT 31 then s2.forceShed else s2)

/-- SERVICE_LINK_DOWN (R484). -/
def execServiceLinkDown (s : State) : Out := .next (s.setFlag A.LK_SVCSTAT 31 false).endSession

end Sys2Proof.Machine
end

