-- ==== Sys2Proof/Machine/Links.lean ====
section
/-!
DEFINITION. The Wenam link's replays and device time (R20–R23), and the host, far-memory and service links (R364–R375).
-/
namespace Sys2Proof.Machine

/-! ### Wenam link -/

/-- F_LINK_CRC of direction `d`, 0 toward the field die and 1 toward the control die, at the receiver. -/
def crcFault (d : Nat) (s : State) : State := if d = 0 then s.raiseF 0x50 0 else s.raiseC 0x50 1

/-- A CRC error of direction `d` (R21): F_LINK_CRC is raised when the errors within the last 1 ms pass 16. -/
def linkErr (d : Nat) (s : State) : State :=
  let now := if d = 0 then s.dtF else s.dtC
  let old := (Sparse.get (fun _ => []) s.lk.errs d).filter (fun t => decide (now < t + 1000000))
  let s1 : State := { s with lk := { s.lk with errs := Sparse.set (fun _ => []) s.lk.errs d (old ++ [now]) } }
  if old.length = 16 then crcFault d s1 else s1

/-- The heartbeat of the present period counts as missed (R21), whether it has arrived, is under way or is still to be sent. -/
def voidHeartbeat (s : State) : State :=
  let p := s.dtC / 1000
  let gd := { s.gd with hbVoid := some p }
  match s.gd.hbSeen with
  | some (q, w) => { s with gd := if q = p ∧ s.gd.watchFrom.isSome then { gd with watchFrom := w, hbSeen := none } else gd }
  | none => { s with gd := gd }

/-- Transfer `i` of direction `d` is discarded after its third failed replay (R21). A discarded LIMP lets its reset start
(R405), and a discarded fault report is sent again (R509). -/
def discard (d i : Nat) (o : StartOut) (x : Xfer) (s : State) : State :=
  let s1 := voidHeartbeat s
  if d = 0 then
    let s2 : State := { s1 with toField := s1.toField.eraseIdx i }
    if x.msg = .limp ∧ s2.gd.cdPend then s2.runCdReset o else s2
  else
    let s2 : State := { s1 with toControl := s1.toControl.eraseIdx i }
    match x.msg with
    | .fault f => s2.sendC (.fault f)
    | _ => s2

/-- One more attempt at transfer `i` has failed: it and what follows it keep their places for the replay (R20). -/
def countFail (d i : Nat) (x : Xfer) (s : State) : State :=
  let y := { x with fails := x.fails + 1 }
  if d = 0 then { s with toField := s.toField.set i y } else { s with toControl := s.toControl.set i y }

/-- REPLAY_REQUEST (R20, R21): transfer `i` of direction `d`, which has started and has failed `k` times, fails its CRC again:
a third replay raises F_LINK_CRC, and a third failed replay discards the transfer. -/
def execReplayRequest (d : Fin 2) (i : BitVec 6) (k : Fin 4) (o : StartOut) (s : State) : Out :=
  match (if d.val = 0 then s.toField else s.toControl)[i.toNat]? with
  | none => .next s
  | some x =>
    if x.fails ≠ k.val ∨ (if d.val = 0 then s.dtC else s.dtF) < x.start then .next s
    else
      let s1 := linkErr d.val s
      let s2 := if k.val = 2 then crcFault d.val s1 else s1
      .next (if k.val < 3 then countFail d.val i.toNat x s2 else discard d.val i.toNat o x s2)

/-- DT_SYNC_SEND (R22): once at each multiple of 256 ns. -/
def execDtSyncSend (s : State) : Out :=
  if s.dtF % 256 = 0 ∧ s.lk.syncTx ≠ some s.dtF then .next ({ s with lk := { s.lk with syncTx := some s.dtF } }.sendC .dtSync)
  else .next s

/-- The control die's copy of DT meets a sync word whose transmission started at `d` (R22, R23). -/
def dtSync (d : Nat) (s : State) : State :=
  let want := d + 10
  if s.pw.dtLoad then { s with dtC := want, pw := { s.pw with dtLoad := false }, lk := { s.lk with drift := 0 } }
  else
    let far : Bool := decide (s.dtC + 1 < want) || decide (want + 1 < s.dtC)
    let n := if far then min 5 (s.lk.drift + 1) else 0
    let s1 : State := { s with lk := { s.lk with drift := n },
                               dtC := if s.dtC < want then s.dtC + 1 else if want < s.dtC then s.dtC - 1 else s.dtC }
    if n = 4 then s1.raiseC 0x05 0 else s1

/-- DT_SYNC: the word carries the DT at which its transmission started. -/
def execDtSync (s : State) : Out :=
  match s.toControl with
  | x :: rest => if x.msg = .dtSync then .next (dtSync x.start { s with toControl := rest }) else .next s
  | [] => .next s

/-! ### Upstream port -/

/-- The mask bit of vector `v` is written (R367): a pending message is sent when it is unmasked. -/
def msixMask (v : Nat) (b : Bool) (s : State) : State :=
  let s1 := s.setFlag (A.MSIX_CTRL v) 0 b
  if ! b ∧ s.flag (A.MSIX_PBA (v / 32)) (v % 32) ∧ s.host.msixEn ∧ s.hostUp then
    (s1.setFlag (A.MSIX_PBA (v / 32)) (v % 32) false).msiSend v
  else s1

/-- Messages of unmasked vectors that are pending are sent (R367). -/
def msixFlush (s : State) : State :=
  forUpTo 64 (fun v (t : State) => if t.flag (A.MSIX_CTRL v) 0 then t else msixMask v false t) s

/-- Posted writes that waited are made, in their order (R368), and then the messages that waited (assumption 148). -/
def flushPosts (s : State) : State :=
  msixFlush { s with hostMem := s.host.postQ.foldl (fun m p => storeBytes m p.1 p.2) s.hostMem, host := { s.host with postQ := [] } }

/-- HOST_DL_DOWN (R368). -/
def execHostDlDown (s : State) : Out :=
  if ! s.hostUp then .next s
  else .next ((((s.setFlag A.LK_UPSTAT 31 false).setFlag A.LK_UPSTAT 27 true).raiseC 0x80 0).setActive 0x80 0 true)

/-- HOST_DL_UP (R364, R368): the link trains while LK_CTRL.UPEN allows it and its domain is powered. -/
def execHostDlUp (speed : Fin 6) (lanes : Fin 3) (cxl : Bool) (s : State) : Out :=
  if ! s.flag A.LK_CTRL 31 ∨ 2 < s.rung then .next s
  else
    let s1 := (((s.setFlag A.LK_UPSTAT 31 true).setFlag A.LK_UPSTAT 30 cxl).setFld A.LK_UPSTAT 5 3 speed).setFld A.LK_UPSTAT 2 0
      (2 ^ lanes.val)
    .next (flushPosts ((s1.setFld A.LK_UPSTAT 7 6 0).setActive 0x80 0 false))

/-- HOST_LINK_RETRAIN (R368): back in L0. -/
def execHostLinkRetrain (s : State) : Out :=
  if s.hostUp then .next (flushPosts (s.setFld A.LK_UPSTAT 7 6 0)) else .next s

/-- FUNCTION_LEVEL_RESET (R368, R403, R464). -/
def execFunctionLevelReset (s : State) : Out := .next s.flr

/-- As a function-level reset, and the link goes down until it has trained again (R368). -/
def busReset (s : State) : State := s.flr.setFlag A.LK_UPSTAT 31 false

/-- HOT_RESET. -/
def execHotReset (s : State) : Out := .next (busReset s)
/-- LINK_DISABLE. -/
def execLinkDisable (s : State) : Out := .next (busReset s)
/-- D3HOT (R368). -/
def execD3hot (s : State) : Out := .next { s with host := { s.host with d3hot := true } }
/-- SNOOP (R366). -/
def execSnoop (s : State) : Out := .next (s.emit .rspIHitI)

/-- MSIX_UNMASK. -/
def execMsixUnmask (v : Fin 64) (s : State) : Out := .next (msixMask v false s)

/-! ### PTM (R369) -/

/-- A PTM request leaves. -/
def ptmRequest (s : State) : State := { s with host := { s.host with ptmT1 := some s.dtC } }.emit (.ptmReq s.dtC)

/-- PTM_DIALOGUE: every INT ms. -/
def execPtmDialogue (s : State) : Out :=
  if ! s.flag A.LK_PTMCFG 31 ∨ ! s.hostUp ∨ s.dtC < s.host.ptmAt + 1000000 * max 1 (s.fld A.LK_PTMCFG 7 0) then .next s
  else .next (ptmRequest { s with host := { s.host with ptmAt := s.dtC } })

/-- A write of LK_PTMCTL.GO; the bit reads 1 until the dialogue ends (R11). -/
def ptmGo (s : State) : State := (ptmRequest s).setFlag A.LK_PTMCTL 0 true

/-- PTM_GO. -/
def execPtmGo (s : State) : Out := .next (ptmGo s)

/-- The pair that a dialogue gives (R369): delay and host time at t4, or none when it is discarded. -/
def ptmPair (t1 t4 t2 t3 : Nat) : Option (Nat × Nat) :=
  let d := roundDiv (((t4 : Int) - t1) - ((t3 : Int) - t2)) 2
  if d < 0 ∨ 10000 < d then none else some (d.toNat, (t3 + d.toNat) % 2 ^ 64)

/-- A PTM pair is stored. -/
def ptmStore (t4 delay host : Nat) (s : State) : State :=
  let s1 := (s.wr64 A.LK_PTM_DT_L A.LK_PTM_DT_H t4).wr64 A.LK_PTM_HT_L A.LK_PTM_HT_H host
  let s2 := ((s1.setFlag A.LK_PTMSTAT 31 true).setFld A.LK_PTMSTAT 29 16 delay).setFld A.LK_PTMSTAT 15 0 (s1.fld A.LK_PTMSTAT 15 0 + 1)
  if s2.flag A.LK_HIRQ 30 then s2.msix (s2.fld A.LK_HIRQ 5 0) else s2

/-- A read of LK_PTM_DT_L latches the other three registers of the pair. -/
def readPtm (m : Master) (s : State) : Word × State :=
  (s.rd A.LK_PTM_DT_L, [A.LK_PTM_DT_H, A.LK_PTM_HT_L, A.LK_PTM_HT_H].foldl (fun t a => t.setLatch m a (s.rd a)) s)

/-- PTM_DT_READ. -/
def execPtmDtRead (m : Master) (s : State) : Out := let r := readPtm m s; .next (r.2.setData m r.1)

/-! ### Far-memory port (R370–R372) -/

/-- The wait of LK_FARTO, in ns (R372, R375). -/
def State.farTo (s : State) : Nat := 1000 * max 1 (s.fld A.LK_FARTO 15 0)

/-- Lookups that wait for line fetches, and that `p` picks, end with their fallback (R223, R372). -/
def failLookups (p : Station → Bool) (s : State) : State :=
  forUpTo 5 (fun b (t : State) =>
    let g : BogHid := Sparse.get (fun _ => ({} : BogHid)) t.bog b
    let r := g.stations.foldl (fun (acc : List Station × State) st =>
      if ! (st.miss && p st) then (acc.1 ++ [st], acc.2)
      else
        let h := acc.2.getMap st.look.map
        let f := acc.2.mapFall st.look.map (if st.look.buf then h.b else h.a)
        (acc.1 ++ [{ st with miss := false, res := some f.1 }], f.2)) ([], t)
    { r.2 with bog := Sparse.set (fun _ => ({} : BogHid)) r.2.bog b { g with stations := r.1 } }) s

/-- Every waiting lookup ends so, and running loads stay for their waybills. -/
def lookupsFail (s : State) : State := failLookups (fun _ => true) { s with fetches := [] }

/-- Bring-up begins. -/
def farStart (s : State) : State := { s with host := { s.host with farUpAt := some s.dtC } }

/-- The port is disabled. -/
def farStop (s : State) : State :=
  lookupsFail (({ s with host := { s.host with farUpAt := none } }.setFlag A.LK_FARSTAT 31 false).setFlag A.LK_FARSTAT 30 false)

/-- FAR_BRINGUP. -/
def execFarBringup (s : State) : Out :=
  if s.flag A.LK_CTRL 30 ∧ ! s.farUp ∧ s.host.farUpAt.isNone then .next (farStart s) else .next s

/-- FAR_BRINGUP_DONE: `bad` for a switch, a multi-logical device, or one without capacity; `cap` in 256 MiB units. -/
def execFarBringupDone (bad : Bool) (cap : BitVec 16) (speed : Fin 6) (lanes : Fin 3) (s : State) : Out :=
  if s.host.farUpAt.isNone then .next s
  else
    -- the link has trained, whatever its memory device turns out to be
    let s0 := { s with host := { s.host with farUpAt := none } }.setFlag A.LK_FARSTAT 31 true
    let s1 := (s0.setFld A.LK_FARSTAT 5 3 speed).setFld A.LK_FARSTAT 2 0 (2 ^ lanes.val)
    if bad ∨ cap = 0 then .next (s1.setFlag A.LK_FARSTAT 29 true)
    else
      let s2 := (((s1.setFlag A.LK_FARSTAT 30 true).setFlag A.LK_FARSTAT 29 false).setFlag
        A.LK_FARSTAT 28 (decide (256 < cap.toNat))).setFld A.LK_FARCAP 8 0 (min 256 cap.toNat)
      .next ((s2.setActive 0x81 0 false).mpShow)

/-- MEMORY_ACTIVE_TIMEOUT. -/
def execMemoryActiveTimeout (s : State) : Out :=
  match s.host.farUpAt with
  | some t =>
    if t + 1000000000 ≤ s.dtC then
      .next (({ s with host := { s.host with farUpAt := none } }.setFlag A.LK_FARSTAT 31 true).setFlag A.LK_FARSTAT 29 true)
    else .next s
  | none => .next s

/-- FAR_LINK_RETURN: after DL_Down the bring-up runs again. -/
def execFarLinkReturn (s : State) : Out :=
  if s.flag A.LK_CTRL 30 ∧ ! s.farUp ∧ s.host.farUpAt.isNone then .next (farStart s) else .next s

/-- The far link is down (R372); cores that wait for it are the caller's. -/
def farDown (s : State) : State :=
  let s1 := ((s.setFlag A.LK_FARSTAT 31 false).setFlag A.LK_FARSTAT 30 false).setFlag A.LK_FARSTAT 27 true
  let s2 := (s1.raiseC 0x81 0).setActive 0x81 0 true
  lookupsFail (if s2.flag A.LK_HIRQ 31 then s2.msix (s2.fld A.LK_HIRQ 5 0) else s2)

/-! ### Service port (R373, R374) -/

/-- The destination of status frames. -/
def svcDst (s : State) : Nat := s.num A.LK_SVCDST_L + 2 ^ 32 * s.fld A.LK_SVCDST_H 15 0

/-- SVC_FRAME_RX: a frame of type `ty`; frames of type 2 are the commands of the debug port, every other is dropped and
counted. -/
def execSvcFrameRx (ether : BitVec 16) (ty : BitVec 8) (s : State) : Out :=
  if 2 < s.rung then .next s
  else
  let s1 := s.setFlag A.LK_SVCSTAT 31 true
  if ether = 0x88B5 ∧ ty = 2 then .next s1 else .next (s1.satAdd A.LK_SVCSTAT 15 0 1)

/-- SVC_STATUS_FRAME: every PER ms of DT, which the port's die keeps (R373). -/
def execSvcStatusFrame (s : State) : Out :=
  if ! s.flag A.LK_SVCCFG 31 ∨ ! s.flag A.LK_SVCSTAT 31 ∨ 2 < s.rung
      ∨ s.dtF < s.host.svcAt + 1000000 * max 1 (s.fld A.LK_SVCCFG 7 0) then .next s
  else
    let up := (s.flag A.LK_UPSTAT 31).toNat + 2 * (s.flag A.LK_UPSTAT 29).toNat + 16 * s.farUp.toNat
    let body := numBytes 1 1 ++ numBytes 1 1 ++ numBytes 2 s.host.svcSeq ++ numBytes 8 s.dtF
      ++ wordBytes (s.health (List.range 64)) ++ numBytes 3 s.safeMask ++ numBytes 1 up ++ numBytes 4 s.logCount
    let s1 : State := { s with host := { s.host with svcAt := s.dtF, svcSeq := (s.host.svcSeq + 1) % 65536 } }
    .next (s1.emit (.frame (svcDst s) (body ++ wordBytes (crc32 body))))

/-- A write of an LK register (R375). -/
def writeLk (a : Nat) (v ev : Word) (s : State) : State :=
  if a = A.LK_CTRL then
    let s1 := s.plainWrite a v
    if bitOf v 30 ∧ ! s.flag a 30 then farStart s1
    else if ! bitOf v 30 ∧ s.flag a 30 then farStop s1
    else s1
  else if a = A.LK_PTMCTL then (if bitOf v 0 then ptmGo s else s)
  else s.plainWrite a v ev

end Sys2Proof.Machine
end

