-- ==== Sys2Proof/Machine/HostQ.lean ====
section
/-!
DEFINITION. The host-queue engine (R376–R391, R399–R403): posthorns and rings, fetching, the format check, effect instants,
effects, groups, fences and the inbox; the map store's controls (R214, R219, R227).
-/
namespace Sys2Proof.Machine

/-! ### Waybills (R380–R382) -/

/-- Byte `o`, or the little-endian number in bytes `o … o+n-1`, of a waybill. -/
def wbNum (ws : List Word) (o n : Nat) : Nat :=
  bytesNum ((List.range n).map (fun i => BitVec.ofNat 8 ((ws.getD ((o + i) / 4) 0).toNat >>> (8 * ((o + i) % 4)))))

def wbOp (ws : List Word) : Nat := wbNum ws 0 1
def wbEffOf (ws : List Word) : Nat := wbNum ws 1 1 % 8
def wbTask (ws : List Word) : Bool := (wbNum ws 1 1).testBit 4
def wbTarget (ws : List Word) : Nat := wbNum ws 2 2

/-- The parameter bytes that an opcode defines (R381). -/
def wbUsed (ws : List Word) : List (Nat × Nat) :=
  match wbOp ws with
  | 0x01 => [(16, 4)]
  | 0x02 => [(16, 2), (20, 4 * wbNum ws 16 1)]
  | 0x03 => [(16, 2)]
  | 0x04 => [(16, 29)]
  | 0x05 => [(16, 13)]
  | 0x07 => [(16, 2 + wbNum ws 17 1), (28, 4)]
  | 0x09 => [(16, 23)]
  | 0x0A => [(16, 2)]
  | 0x0B => [(16, 1)]
  | 0x0C => [(16, 8)]
  | 0x0D => [(16, 48)]
  | 0x0E => [(16, 2), (20, 7)]
  | 0x0F => [(16, 8), (24, 32)]
  | 0x10 => [(16, 1), (24, 8)]
  | _ => []

/-- The highest EFF of an opcode (R381). -/
def wbEffMax (op : Nat) : Nat :=
  if op = 1 ∨ op = 2 ∨ op = 3 ∨ op = 6 then 4 else if op = 0x0A then 3 else 0

/-- The target and the parameters lie in their ranges, and host addresses are aligned (R381). -/
def wbRange (ws : List Word) : Bool :=
  let b := fun (o : Nat) => wbNum ws o 1
  let t := wbTarget ws
  let aligned := fun (o : Nat) => wbNum ws o 1 % 64 == 0
  match wbOp ws with
  | 0x00 => t == 0
  | 0x01 => decide (t < 64)
  | 0x02 => decide (t < 64 ∧ 1 ≤ b 16 ∧ b 16 ≤ 11 ∧ ((b 17 = 8 ∧ b 16 = 1) ∨ (15 ≤ b 17 ∧ b 17 + b 16 ≤ 256)))
  | 0x03 => decide (t < 64 ∧ b 16 ≤ 5 ∧ b 17 ≤ 1)
  | 0x04 => decide (t < 64)
  | 0x05 => decide (t < 256 ∧ b 28 ≤ 1) && aligned 16
  | 0x06 => decide (t < 256)
  | 0x07 => decide (t < 4 ∧ b 16 ≤ 2 ∧ 1 ≤ b 17 ∧ b 17 ≤ 8)
      && (List.range (b 17)).all (fun i => decide (b (18 + i) < [72, 64, 40].getD (b 16) 0))
  | 0x08 => decide (t < 4)
  | 0x09 => decide (t < 2 ∧ (b 36 = 0 ∨ (2 ≤ b 36 ∧ b 36 ≤ 64)) ∧ b 37 ≤ 1 ∧ b 38 < 64) && aligned 16
  | 0x0A => decide ((if wbEffOf ws = 1 then t < 24 else t = 0) ∧ b 16 < 16 ∧ b 17 ≤ 1)
  | 0x0B => decide (t = 0 ∧ b 16 ≤ 1)
  | 0x0C => t == 0 && aligned 16
  | 0x0D => true
  | 0x0E => decide (b 16 ≤ 2 ∧ b 17 ≤ 3)
  | 0x0F => t == 0 && aligned 16
  | 0x10 => decide (b 16 ≤ 2 ∧ (if b 16 = 1 then t < 64 else t = 0)) && aligned 24
  | _ => false

/-- The effect value fits its kind (R380, R383). -/
def wbValueOk (ws : List Word) : Bool :=
  match wbEffOf ws with
  | 0 | 1 => wbNum ws 8 8 == 0
  | 2 => true
  | 3 => decide (wbNum ws 12 1 < 16 ∧ wbNum ws 13 1 ≤ 2 ∧ wbNum ws 14 2 = 0)
  | 4 => decide (wbNum ws 8 1 < 16 ∧ wbNum ws 9 7 = 0)
  | _ => false

/-- The format check (R382). -/
def wbFormat (ws : List Word) : Bool :=
  let op := wbOp ws
  let fl := wbNum ws 1 1
  let zero := (List.range 48).all (fun i => (wbUsed ws).any (fun u => decide (u.1 ≤ 16 + i ∧ 16 + i < u.1 + u.2)) || wbNum ws (16 + i) 1 == 0)
  decide (op ≤ 0x10) && decide (wbEffOf ws ≤ wbEffMax op) && wbValueOk ws && decide (fl < 64)
    && (! wbTask ws || decide (1 ≤ op ∧ op ≤ 3)) && (! fl.testBit 3 || wbEffOf ws == 2) && zero && wbRange ws

namespace State

/-! ### Rings (R376–R379, R401) -/

/-- The engine runs (R366, R401). -/
def hqRun (s : State) : Bool := s.flag A.HQ_CTRL 31 && s.flag A.LK_UPSTAT 29 && s.flag A.LK_UPSTAT 28

/-- HQ_STAT as the engine's state gives it. -/
def hqStat (s : State) : Word :=
  let st := (List.range 8).foldl (fun m n => if s.flag (A.SQ_CFG n) 30 then m ||| 2 ^ n else m) 0
  putBits (setBit (setBit (s.rd A.HQ_STAT) 31 s.hqRun) 30 (s.ydOwner (s.fld A.HQ_CTRL 3 0) != 8)) 23 16 st

/-- Timed waybills that wait (R383, R401). -/
def hqPend (s : State) : Nat := (s.host.wbs.filter (fun w => (wbEff w == 2 || wbEff w == 3) && ! w.acted)).length

def hqShow (s : State) : State := s.setFld A.HQ_STAT 6 0 (min 64 s.hqPend)

/-- AT_ANGLE entries in use (R383). -/
def angUsed (s : State) : Nat := (s.host.wbs.filter (fun w => wbEff w == 3 && w.angAt.isSome && ! w.acted)).length

/-- An AT_ANGLE waybill waits for an entry. -/
def angWaits (s : State) : Bool := s.host.wbs.any (fun w => wbEff w == 3 && w.angAt.isNone && w.group.isNone && ! w.acted)

/-- A freed entry goes to the oldest waybill that waits for one. -/
def angGrant (s : State) : State :=
  if 16 ≤ s.angUsed then s
  else match s.host.wbs.find? (fun w => wbEff w == 3 && w.angAt.isNone && ! w.acted) with
    | none => s
    | some w => { s with host := { s.host with wbs := s.host.wbs.map (fun (x : WbPend) =>
        if x.ord = w.ord then { x with angAt := some s.dtC } else x) } }

/-- SQ `q` can fetch its next waybill now (R379, R383, R388, R389, R399). -/
def canFetch (s : State) (q : Nat) : Bool :=
  let cq := s.fld (A.SQ_CFG q) 6 4
  s.hqRun && s.hostUp && decide (s.rung < 2) && s.ringOn (A.SQ_CFG q) && ! s.flag (A.SQ_CFG q) 30
    && s.fld (A.SQ_HEAD q) 11 0 != s.fld (A.SQ_TAIL q) 11 0
    && ! (s.ringOn (A.CQ_CFG cq) && s.ringFull (A.CQ_CFG cq) (A.CQ_HEAD cq) (A.CQ_TAIL cq))
    && ! s.host.fences.any (fun f => f.2 == q)
    && ! s.host.wbs.any (fun w => wbOp w.ws == 0x0D && w.sq == q && ! s.host.inbox.any (fun i => i.ord == w.ord))
    && decide (s.hqPend < 64) && ! s.angWaits

/-- A waybill is held. -/
def holdWb (s : State) (w : WbPend) : State := { s with host := { s.host with wbs := s.host.wbs ++ [w] } }

/-- A held waybill changes. -/
def setWb (s : State) (ord : Nat) (f : WbPend → WbPend) : State :=
  { s with host := { s.host with wbs := s.host.wbs.map (fun w => if w.ord = ord then f w else w) } }

/-! ### Inbox (R399) -/

/-- A CORE_MSG enters the inbox while it has room; one that carries 0x30394443 is the host's consent to the 900 MHz bogie clock
(R453). -/
def inboxPut (s : State) (w : WbPend) : State :=
  let n := s.host.inbox.length
  if 16 ≤ n then s
  else
    let e := (s.fld A.HQ_INSTAT 3 0 + n) % 16
    let s1 := forUpTo 16 (fun i (t : State) => t.wr (A.HQ_INBOX (16 * e + i)) (w.ws.getD i 0)) s
    let s2 := if wbNum w.ws 16 4 = 0x30394443 then s1.setFlag A.OD_STAT 29 true else s1
    ({ s2 with host := { s2.host with inbox := s2.host.inbox ++ [w] } }.setFld A.HQ_INSTAT 20 16 (n + 1)).hqCause 0

/-! ### Fetching (R379, R382, R383, R389, R390) -/

/-- The instant that an AT_TIME waybill names (R383), when host time can be used. -/
def wbTime (s : State) (ws : List Word) : Option Nat :=
  let v := wbNum ws 8 8
  if ! (wbNum ws 1 1).testBit 3 then some v
  else if ! s.flag A.LK_PTMSTAT 31 then none
  else some ((s.num64 A.LK_PTM_DT_L A.LK_PTM_DT_H + v + 2 ^ 64 - s.num64 A.LK_PTM_HT_L A.LK_PTM_HT_H) % 2 ^ 64)

/-- A WITH_GROUP waybill is staged (R390), in the yard that HQ_CTRL names; the access meets `up` upsets. -/
def stageWb (s0 : State) (w : WbPend) (up : Nat) : State :=
  let g := wbNum w.ws 8 1
  let r := s0.stageAccess 7 true up
  let s := r.1
  if ! r.2 then s.complete w 4 0 s.dtC
  else if 32 ≤ (s.host.wbs.filter (fun x => x.group == some g && x.commit.isNone)).length then
    let s1 : State := { s with host := { s.host with failed := s.host.failed ++ [(0, g)] } }
    s1.complete w 1 15 s.dtC
  else s.holdWb { w with group := some g }

/-- A COUPLED_COMMIT claims the waybills staged in its group so far (R390). -/
def claimGroup (s : State) (w : WbPend) : State :=
  let g := wbNum w.ws 16 1
  let wbs := s.host.wbs.map (fun (x : WbPend) => if x.group = some g ∧ x.commit.isNone then { x with commit := some w.ord } else x)
  { s with host := { s.host with wbs := wbs, failed := s.host.failed.map (fun f => if f = (0, g) then (1, w.ord) else f) } }

/-- Waybill `w` is refused before its instant; the group of a COUPLED_COMMIT goes with it (assumption 152). -/
def refuseWb (s : State) (w : WbPend) (reason t : Nat) : State :=
  if wbOp w.ws = 0x0A then
    let ms := s.host.wbs.filter (fun x => x.commit == some w.ord)
    let s1 : State := { s with host := { s.host with failed := s.host.failed.filter (fun f => f != (1, w.ord)) } }
    ((forEach ms (fun x (u : State) => u.complete x 1 13 t) s1).complete w 1 reason t).hqCause 5
  else s.complete w 1 reason t

/-- A checked waybill is held until its instant, or refused; staging it meets `up` upsets. -/
def acceptWb (s : State) (w : WbPend) (up : Nat) : State :=
  let op := wbOp w.ws
  let s0 := if op = 0x0A then s.claimGroup w else s
  match wbEffOf w.ws with
  | 4 => s0.stageWb w up
  | 3 => (s0.holdWb w).angGrant.hqShow
  | 2 =>
    match s0.wbTime w.ws with
    | none => s0.refuseWb w 14 s.dtC
    | some t => if t < s.dtC + 1000 then s0.refuseWb w 12 t else (s0.holdWb { w with t := some t }).hqShow
  | _ =>
    let s1 := s0.holdWb w
    if op = 0x0B then { s1 with host := { s1.host with fences := s1.host.fences ++ [(w.ord, w.sq)] } }
    else if op = 0x0D then s1.inboxPut w
    else s1

end State

/-- A waybill as words. -/
def wbWords (v : BitVec 512) : List Word := (List.range 16).map (fun i => v.extractLsb' (32 * i) 32)

/-- WAYBILL_FETCH (R379): the next waybill of SQ `q` arrives as `v`, or its read fails. -/
def execWaybillFetch (q : Fin 8) (v : BitVec 512) (f : FetchIn) (s : State) : Out :=
  if (List.range 8).find? (fun n => s.canFetch n) ≠ some q.val then .next s
  else if ! f.ok then .next ((s.setFlag (A.SQ_CFG q) 30 true).hqCause 1)
  else
    let h := s.fld (A.SQ_HEAD q) 11 0
    let ord := s.host.ord
    let s1 : State := { s.setFld (A.SQ_HEAD q) 11 0 ((h + 1) % s.ringLen (A.SQ_CFG q)) with host := { s.host with ord := ord + 1 } }
    let w : WbPend := { ord := ord, sq := q, ws := wbWords v, fetched := s.dtC }
    if wbFormat w.ws then .next (s1.acceptWb w f.up)
    else .next ((((s1.setFlag A.HQ_STAT 28 true).hqCause 2).raiseC 0x83 q).complete w 2 0 s.dtC)

/-- A posthorn (R378). -/
def posthorn (v : Word) (s : State) : State :=
  let r := bitsOf v 31 24
  let ix := bitsOf v 11 0
  let go := fun (cfg idx : Nat) =>
    if ! s.ringOn cfg ∨ s.ringLen cfg ≤ ix ∨ bitsOf v 23 12 ≠ 0 then s.setFlag A.HQ_STAT 29 true else s.setFld idx 11 0 ix
  if r < 8 then go (A.SQ_CFG r) (A.SQ_TAIL r)
  else if 0x10 ≤ r ∧ r < 0x18 then (go (A.CQ_CFG (r - 0x10)) (A.CQ_HEAD (r - 0x10))).flushCmpl
  else if 0x20 ≤ r ∧ r < 0x24 then go (A.KQ_CFG (r - 0x20)) (A.KQ_HEAD (r - 0x20))
  else s.setFlag A.HQ_STAT 29 true

/-- POSTHORN: ignored while the link is down or the function is in D3hot. -/
def execPosthorn (v : Word) (s : State) : Out := if s.hostUp ∧ ! s.host.d3hot then .next (posthorn v s) else .next s

/-- A write of a ring's CFG (R377, R401): SIZE holds while EN reads 1; setting EN zeroes the indices, and a CQ's phase is
1. -/
def writeRingCfg (cfg head tail : Nat) (cq : Bool) (v ev : Word) (s : State) : State :=
  let was := s.flag cfg 31
  let v1 := if was then putBits v 11 8 (s.fld cfg 11 8) else v
  let s1 := s.plainWrite cfg v1 ev
  if ! was ∧ bitOf v 31 then
    ((s1.setFld head 11 0 0).setFld tail 11 0 0).setFlag tail 31 cq
  else s1

/-- A write of an SQ, CQ or KQ register. -/
def writeRing (a : Nat) (v ev : Word) (s : State) : State :=
  let o := a % 0x20
  let b := a - o
  let cq : Bool := decide (0x080D0200 ≤ a ∧ a < 0x080D0300)
  if o = 8 then (writeRingCfg (b + 8) (b + 0xC) (b + 0x10) cq v ev s).flushCmpl
  else if o < 8 then (if s.flag (b + 8) 31 then s else s.plainWrite a v)
  else s

/-- RING_ENABLE (R377): ring `r` as posthorns number them: 0–7 SQ, 8–15 CQ, 16–19 KQ. -/
def execRingEnable (r : Fin 20) (v : Word) (s : State) : Out :=
  let cfg := if r.val < 8 then A.SQ_CFG r else if r.val < 16 then A.CQ_CFG (r - 8) else A.KQ_CFG (r - 16)
  .next (writeRing cfg v 0 s)

/-- SQ_STOP_CLEAR (R379). -/
def execSqStopClear (q : Fin 8) (s : State) : Out := .next (s.setFlag (A.SQ_CFG q) 30 false)

/-! ### Instants (R383) -/

/-- The first period boundary at or after DT `d` that a notice predicts, as a DT. -/
def boundaryAfter (n : Notice) (d : Nat) : Option Nat :=
  (State.predictUpdate { n with upd := 0 } (instant d 0)).map (· / euPerNs)

/-- NEXT_UPDATE_RESOLVE: the oldest NEXT_UPDATE waybill whose fetch lies 1 µs back takes its instant, or is refused STATE. -/
def execNextUpdateResolve (s : State) : Out :=
  match s.host.wbs.find? (fun w => State.wbEff w == 1 && w.t.isNone && ! w.acted && decide (w.fetched + 1000 ≤ s.dtC)) with
  | none => .next s
  | some w =>
    let su := if wbOp w.ws = 0x0A then some (wbTarget w.ws) else s.chUnit (wbTarget w.ws)
    let t := match su with
      | none => none
      | some u =>
        let rep := if u < 16 then u else 16 + 4 * (u - 16)
        if s.uRun rep then boundaryAfter (s.noticeNow u) (w.fetched + 1000) else none
    match t with
    | some t => .next (s.setWb w.ord (fun w => { w with t := some t }))
    | none => .next (s.refuseWb w 14 s.dtC)

/-- AT_ANGLE_TIMEOUT: an AT_ANGLE waybill has held its entry for 1 s without a commit. -/
def execAtAngleTimeout (s : State) : Out :=
  match s.host.wbs.find? (fun w => State.wbEff w == 3 && w.t.isNone
      && (match w.angAt with | some a => decide (a + 1000000000 ≤ s.dtC) | none => false)) with
  | none => .next s
  | some w => .next ((s.refuseWb w 12 s.dtC).angGrant.hqShow)

/-! ### Effects (R384, R385, R388, R390, R391) -/

/-- The parameter writes of a channel waybill: word, value, mask (R381). -/
def wbWrites (ws : List Word) : List (Nat × Word × Word) :=
  let all : Word := 0xFFFFFFFF
  match wbOp ws with
  | 0x01 => [(32, ws.getD 4 0, all)]
  | 0x02 => (List.range (wbNum ws 16 1)).map (fun i =>
      let w := wbNum ws 17 1 + i
      (w, ws.getD (5 + i) 0, if w = 8 then 0xFF else all))
  | 0x03 => [(1, BitVec.ofNat 32 (wbNum ws 16 1 * 2 ^ 29 + wbNum ws 17 1 % 2 * 2 ^ 28), 0xF0000000)]
  | 0x04 => [(2, ws.getD 4 0, all), (3, ws.getD 5 0, all), (4, ws.getD 6 0, all), (5, ws.getD 7 0, all), (6, ws.getD 8 0, all),
      (7, ws.getD 9 0, all), (14, ws.getD 10 0, all), (1, ws.getD 11 0 &&& 0xFF, 0xFF)]
  | _ => []

namespace State

/-- Why a waybill cannot act now, or 0 (R387, R391). -/
def wbCheck (s : State) (ws : List Word) : Nat :=
  let ch := wbTarget ws
  match wbOp ws with
  | 0x01 | 0x02 => if s.chMode ch = 5 then 14 else 0
  | 0x03 => if s.modeOk ch (wbNum ws 16 1) then 0 else 14
  | 0x04 => if s.chMode ch = 0 then 0 else 14
  | 0x06 => if s.mapState ch = 2 then 0 else 14
  | _ => 0

/-- A channel waybill acts at `t`: its writes reach the port, and TASK releases the task after them (R384). -/
def actChannel (s : State) (w : WbPend) (t : Nat) : State :=
  let ch := wbTarget w.ws
  let ps := wbWrites w.ws
  let s1 := s.setWb w.ord (fun w => { w with acted := true, t := some t, left := ps.length })
  let port := ps.map (fun p => (⟨ch, p.1, p.2.1, p.2.2, t, some (w.ord, w.ws.getD 1 0), s.dtC⟩ : PWrite))
  let s2 := s1.enginePort port
  if wbTask w.ws then s2.releaseTask ch t 5 false else s2

/-- A waybill that is done as it acts, with a status and a reason. -/
def wbDone (s : State) (w : WbPend) (t status reason : Nat) : State := s.complete w status reason t

/-- A waybill whose completion waits for `n` answers. -/
def wbWait (s : State) (w : WbPend) (t n : Nat) : State := s.setWb w.ord (fun w => { w with acted := true, t := some t, left := n })

/-- GUARD_REQUEST (R424). -/
def actGuard (s : State) (w : WbPend) (t : Nat) : State :=
  let k := wbNum w.ws 16 1
  let key := s.rd A.GD_LOGKEY
  let may := s.flag A.GD_CTRL 30 && key != 0 && w.ws.getD 5 0 == key
  let mask := wbNum w.ws 24 3
  if k = 2 then (s.safeUnits ((List.range 24).filter (fun u => mask.testBit u)) none).wbDone w t 0 0
  else if ! may then s.wbDone w t 5 0
  else if k = 0 then
    let f := wbNum w.ws 17 1
    (s.logClear (f.testBit 1) (f.testBit 0) (wbNum w.ws 2 1) (wbNum w.ws 3 1)).wbDone w t 0 0
  else
    let r := s.releaseGsafe mask
    if r.1 then r.2.wbDone w t 0 0 else r.2.wbDone w t 1 14

/-- QUERY (R425, R396, R456). -/
def actQuery (s : State) (w : WbPend) (t : Nat) (hostOk : Bool) : State :=
  if ! hostOk then s.wbDone w t 3 0
  else
    let body := match wbNum w.ws 16 1 with
      | 0 => s.od.report
      | 1 => s.record (wbTarget w.ws) t false
      | _ => s.logSummary t
    (s.hostWr (wbNum w.ws 24 8) body).wbDone w t 0 0

/-- A COUPLED_COMMIT acts at `t` (R391). -/
def actGroup (s : State) (w : WbPend) (t : Nat) : State :=
  let ms := s.host.wbs.filter (fun x => x.commit == some w.ord)
  let marked := s.host.failed.contains (1, w.ord)
  let s0 : State := { s with host := { s.host with failed := s.host.failed.filter (fun f => f != (1, w.ord)) } }
  if wbNum w.ws 17 1 = 1 then
    (forEach ms (fun x (u : State) => u.wbDone x t 1 13) s0).wbDone w t 0 0
  else
    -- the second switch of one map would find its state no longer STAGED (R220)
    -- the members are read back from the staging yard (R387, R390)
    let r := if ms.isEmpty then (s0, true) else s0.stageAccess 7 false 0
    if ! r.2 then ((forEach ms (fun x (u : State) => u.wbDone x s.dtC 4 0) r.1).wbDone w t 1 13).hqCause 5
    else
    let s0 := r.1
    let again := fun (x : WbPend) => wbOp x.ws == 6 && ms.any (fun y => wbOp y.ws == 6 && wbTarget y.ws == wbTarget x.ws && decide (y.ord < x.ord))
    let why := ms.map (fun x => if again x then 14 else s.wbCheck x.ws)
    if marked ∨ why.any (· != 0) then
      let s1 := forEach (ms.zip why) (fun p (u : State) => u.wbDone p.1 t 1 (if p.2 = 0 then 13 else p.2)) s0
      let s2 := if ms.any (fun x => wbOp x.ws == 6) then s1.mpCause 3 else s1
      (s2.wbDone w t 1 13).hqCause 5
    else
      let s1 := s0.wbWait w t ms.length
      (forEach ms (fun x (u : State) =>
        if wbOp x.ws = 6 then
          let r := u.mapSwitch (wbTarget x.ws) t
          r.2.wbDone x t (if r.1 then 0 else 1) (if r.1 then 0 else 14)
        else u.actChannel x t) s1).finishWbs

/-- The waybill acts at `t`. `img` is what its image reads as; `hostOk`: its result can be written. -/
def actWb (s : State) (w : WbPend) (t : Nat) (hostOk : Bool) (img : Option (List Byte)) : State :=
  let ws := w.ws
  let why := s.wbCheck ws
  match wbOp ws with
  | 0x01 | 0x02 | 0x03 | 0x04 => if why ≠ 0 ∧ wbOp ws ≠ 3 then s.wbDone w t 1 why else s.actChannel w t
  | 0x05 =>
    let r := s.mapLoad (wbTarget ws) img (wbNum ws 24 4) (wbNum ws 28 1 == 1) w.ord
    if r.1 = 0 then r.2.wbWait w t 1 else r.2.wbDone w t 1 r.1
  | 0x06 =>
    let r := s.mapSwitch (wbTarget ws) t
    if r.1 then r.2.wbDone w t 0 0 else r.2.wbDone w t 1 14
  | 0x07 =>
    let k := wbTarget ws
    if (s.getCap k).isSome then s.wbDone w t 1 15
    else
      let c : Cap := { kind := wbNum ws 16 1, srcs := (List.range (wbNum ws 17 1)).map (fun i => wbNum ws (18 + i) 1),
                       n := wbNum ws 28 4, cnt := List.replicate (wbNum ws 17 1) 0 }
      ((s.setCap k (some c)).setFlag (A.KQ_CFG k) 29 true).wbDone w t 0 0
  | 0x08 => ((s.setCap (wbTarget ws) none).setFlag (A.KQ_CFG (wbTarget ws)) 29 false).wbDone w t 0 0
  | 0x09 => (consistConfig (wbTarget ws) ws s).wbDone w t 0 0
  | 0x0A => s.actGroup w t
  | 0x0C => if hostOk then ptmRequest (s.wbWait w t 1) else s.wbDone w t 3 0
  | 0x0E => s.actGuard w t
  | 0x0F =>
    let r := s.attestStart w.ord
    if r.1 then r.2.wbWait w t 1 else r.2.wbDone w t 1 14
  | 0x10 => s.actQuery w t hostOk
  | _ => s.wbDone w t 0 0

/-- The instant at which a held waybill can act now; FENCE, CORE_MSG and staged waybills are not acted on here, and an ATTEST
waits for the one that runs (R481), and for room in the guard and security queue (R337). -/
def wbDue (s : State) (w : WbPend) : Option Nat :=
  let op := wbOp w.ws
  if w.acted ∨ w.group.isSome ∨ op = 0x0B ∨ op = 0x0D ∨ (op = 0x0F ∧ (s.sc.attest.isSome ∨ nvFull true s)) then none
  else match w.t with
    | some t => if t ≤ s.dtC then some t else none
    | none => if wbEff w = 0 then some s.dtC else none

/-- The order of effects (R385): by instant; coupled groups first, in fetch order; then descending SQ and ring order. -/
def wbBefore (x y : Nat × WbPend) : Bool :=
  let g := fun (w : WbPend) => wbOp w.ws == 0x0A
  if x.1 ≠ y.1 then decide (x.1 < y.1)
  else if g x.2 ≠ g y.2 then g x.2
  else if g x.2 then decide (x.2.ord < y.2.ord)
  else if x.2.sq ≠ y.2.sq then decide (y.2.sq < x.2.sq)
  else decide (x.2.ord < y.2.ord)

/-- The waybill that acts next. -/
def nextWb (s : State) : Option (Nat × WbPend) :=
  (s.host.wbs.filterMap (fun w => (s.wbDue w).map (fun t => (t, w)))).foldl (fun m x => match m with
    | none => some x
    | some y => if wbBefore x y then some x else some y) none

end State

/-- WAYBILL_EFFECT (R384, R385): the next waybill that is due acts, and its completion is written when nothing is waited
for. The engine acts on none while it waits for space in a bogie's queue (R164). -/
def execWaybillEffect (hostOk : Bool) (img : Option (List Byte)) (s : State) : Out :=
  match s.nextWb with
  | none => .next s
  | some (t, w) => if s.engineWaits then .next s else .next ((s.actWb w t hostOk img).angGrant.hqShow)

/-- WB_FENCE_DONE (R389): the waybills fetched before the oldest FENCE, of its SQ or of all, have completed. -/
def execWbFenceDone (s : State) : Out :=
  match s.host.fences.findSome? (fun f =>
      match s.host.wbs.find? (fun w => w.ord == f.1) with
      | some w =>
        let all := wbNum w.ws 16 1 == 1
        if s.host.wbs.any (fun x => decide (x.ord < w.ord) && (all || x.sq == w.sq) && (x.group.isNone || x.commit.isSome))
            || s.host.cmpls.any (fun x => decide (x.ord < w.ord) && (all || x.sq == w.sq)) then none
        else some w
      | none => none) with
  | none => .next s
  | some w =>
    let s1 : State := { s with host := { s.host with fences := s.host.fences.filter (fun f => f.1 != w.ord) } }
    .next (s1.complete w 0 0 s.dtC)

/-- A write of HQ_CCMPL (R399): the head entry of the inbox completes; a CORE_MSG that waits takes its place. -/
def writeCcmpl (v : Word) (s : State) : State :=
  match s.host.inbox with
  | [] => s
  | w :: _ =>
    if ! bitOf v 31 then s
    else
      let ok := bitsOf v 7 0 = 0
      let s1 := s.complete w (if ok then 0 else 1) (bitsOf v 23 20) s.dtC
      let s2 := (s1.setFld A.HQ_INSTAT 3 0 (s.fld A.HQ_INSTAT 3 0 + 1)).setFld A.HQ_INSTAT 20 16 s1.host.inbox.length
      match s2.host.wbs.find? (fun x => wbOp x.ws == 0x0D && ! s2.host.inbox.any (fun i => i.ord == x.ord)) with
      | some x => s2.inboxPut x
      | none => s2

/-- HQ_CCMPL. -/
def execHqCcmpl (v : Word) (s : State) : Out := .next (writeCcmpl v s)

/-- HQ_CLR.CNT (R401). -/
def hqClrCnt (s : State) : State := ((s.wr A.HQ_CNT_WB 0).wr A.HQ_CNT_REF 0).wr A.HQ_CNT_FMT 0

/-- HQ_CLR_CNT. -/
def execHqClrCnt (s : State) : Out := .next (hqClrCnt s)

/-- A write of an HQ register (R401). -/
def writeHq (a : Nat) (v ev : Word) (s : State) : State :=
  if a = A.HQ_CCMPL then writeCcmpl v s
  else if a = A.HQ_CLR then (if bitOf v 0 then hqClrCnt s else s)
  else if 0x080D0100 ≤ a ∧ a < 0x080D0380 then writeRing a v ev s
  else s.plainWrite a v ev

/-- PTM_RESPONSE (R369, R381): the answer with host times `t2`, `t3`; TIME_SYNC waybills that wait take its pair. -/
def execPtmResponse (t2 t3 : BitVec 64) (s : State) : Out :=
  match s.host.ptmT1 with
  | none => .next s
  | some t1 =>
    let t4 := s.dtC
    let s1 := { s with host := { s.host with ptmT1 := none } }.setFlag A.LK_PTMCTL 0 false
    let ws := s1.host.wbs.filter (fun w => wbOp w.ws == 0x0C && w.acted)
    match ptmPair t1 t4 t2.toNat t3.toNat with
    | none => .next (forEach ws (fun w (u : State) => u.complete w 3 0 (w.t.getD t4)) (s1.setFlag A.LK_PTMSTAT 30 true))
    | some (d, h) =>
      .next (forEach ws (fun w (u : State) =>
        (u.hostWr (wbNum w.ws 16 8) (numBytes 8 t4 ++ numBytes 8 h ++ numBytes 8 d)).complete w 0 0 (w.t.getD t4))
        (ptmStore t4 d h s1))

/-! ### The map store's controls -/

/-- MAP_LOAD_DONE (R219): every write of the load of map `n` is acknowledged. -/
def execMapLoadDone (n : Fin 256) (s : State) : Out :=
  match (s.getMap n).load with
  | none => .next s
  | some l =>
    if ! l.started ∨ ! s.farUp then .next s
    else
      let s1 := ((s.setMap n { s.getMap n with load := none }).setFld (A.DIR_CFG n) 31 29 2).mpCause 0
      match l.wb with
      | some o => .next (s1.wbNote o none)
      | none => .next s1

/-- Every map becomes EMPTY (R227); the waybill of a load that runs is refused NOTEN. -/
def emptyMaps (s : State) : State :=
  let ords := s.maps.filterMap (fun e => e.2.load.bind (fun l => l.wb))
  let s1 := { lookupsFail s with maps := [], cache := [] }.resetRegs (fun a => 0x080B1000 ≤ a && a < 0x080B5000)
  forEach ords (fun o (u : State) => u.wbNote o (some 1)) s1.mpUse

/-- A write of an MP register (R227): area registers hold while EN reads 1. -/
def writeMp (a : Nat) (v ev : Word) (s : State) : State :=
  if a = A.MP_CTRL then
    let s1 := s.plainWrite a v
    (if s.flag a 31 ∧ ! bitOf v 31 then emptyMaps s1 else s1).mpShow
  else if a = A.MP_AREA_L ∨ a = A.MP_AREA_H ∨ a = A.MP_AREA_SIZE then
    if s.flag A.MP_CTRL 31 then s.setFlag A.MP_STAT 30 true else (s.plainWrite a v).mpShow
  else if a = A.MP_CLR then (if bitOf v 0 then mpClrCnt s else s)
  else s.plainWrite a v ev

/-- MP_CTRL_WRITE. -/
def execMpCtrlWrite (v : Word) (s : State) : Out := .next (writeMp A.MP_CTRL v 0 s)

end Sys2Proof.Machine
end

