-- ==== Sys2Proof/Machine/Irq.lean ====
section
/-!
DEFINITION. Interrupt requests (R296): which vectors the sources request for as long as a status bit and its enable are
both set (R84, R87, R113, R117, R139, R165, R227, R343, R362, R401, R426–R428, R446, R457, R487).
-/
namespace Sys2Proof.Machine

namespace State

/-- Causes of a PU in `m` whose status bits are set (R113). -/
def puHeld (s : State) (u m : Nat) : Bool :=
  (m.testBit 5 && s.flag (uStat u) 28) || (m.testBit 6 && s.flag (uStat u) 27) || (m.testBit 7 && s.flag (uStat u) 24)
    || (m.testBit 8 && s.flag (uStat u) 22) || (m.testBit 9 && s.flag (uStat u) 21) || (m.testBit 10 && s.flag (uStat u) 20)

/-- A cause register and an enable register have a bit in common. -/
def anyOf (s : State) (st en hi lo : Nat) : Bool := s.fld st hi lo &&& s.fld en hi lo != 0

/-- A source requests vector `v` now (R296). -/
def requests (s : State) (v : Nat) : Bool :=
  if v = 15 then s.flag A.GD_IRQST 8 && s.flag A.GD_IRQEN 8
  else if v < 96 then false
  else if v < 106 then
    let b := (v - 96) / 2
    s.fld (A.BGn_IRQST b) 5 0 &&& (if v % 2 = 0 then s.fld (A.BGn_IRQEN b) 5 0 else s.fld (A.BGn_IRQEN b) 21 16) != 0
  else if v < 112 then false
  else if v < 144 then
    let u := (v - 112) / 2
    if v % 2 = 0 then s.puHeld u (s.fld (A.PU_IRQEN u) 10 0)
    else s.puHeld u (s.fld (A.PU_IRQEN u) 26 16) || s.fld A.GP_IRQSRC (2 * u + 1) (2 * u) != 0
  else if v < 176 then
    let n := v - 144
    let m := s.fld (A.TC_IRQEN n) 5 0
    (m.testBit 0 && s.flag (A.TC_STAT n) 26) || (m.testBit 1 && s.flag (A.TC_STAT n) 25)
      || (m.testBit 2 && s.flag (A.TC_STAT n) 27) || (m.testBit 3 && s.flag (A.TC_STAT n) 28)
      || (m.testBit 4 && s.flag (A.TC_STAT n) 24) || (m.testBit 5 && s.flag (A.TC_STAT n) 23)
  else if v = 176 then s.flag A.HK_CTRL 29 && s.flag A.HK_STAT 27
  else if v = 177 then s.flag A.HK_CTRL 29 && s.flag A.HK_STAT 26
  else if v = 178 then
    s.flag A.SN_CTRL 31 && (List.range 72).any (fun c => s.fld (A.SN_STAT c) 26 24 != 0 || s.fld (A.SN_STAT c) 22 21 != 0)
  else if v = 179 then s.flag A.SN_CTRL 31 && (List.range 16).any (fun n => s.flag (A.SN_PC_STAT n) 31)
  else if v < 208 then false
  else if v < 216 then s.flag A.BL_STAT (v - 208) && s.flag A.BL_IRQEN (v - 208)
  else if v < 222 then s.flag A.HQ_IRQST (v - 216) && s.flag A.HQ_IRQEN (v - 216)
  else if v < 224 then false
  else if v < 232 then s.flag A.GD_IRQST (v - 224) && s.flag A.GD_IRQEN (v - 224)
  else if v < 236 then s.flag A.MP_IRQST (v - 232) && s.flag A.MP_IRQEN (v - 232)
  else if v < 240 then s.flag A.SC_IRQST (v - 236) && s.flag A.SC_IRQEN (v - 236)
  else if v < 244 then s.flag A.PW_IRQST (v - 240) && s.flag A.PW_IRQEN (v - 240)
  else if v = 244 then s.anyOf A.OD_IRQST A.OD_IRQEN 2 0
  else if v = 245 then s.anyOf A.CPL_IRQST A.CPL_IRQEN 4 0
  else if v = 246 then s.anyOf A.YD_IRQST A.YD_IRQEN 2 0
  else if v = 247 then s.anyOf A.YD_IRQST A.YD_IRQEN 5 3
  else false

/-- The vectors that latch at both cores (R319). -/
def bothCores (v : Nat) : Bool := v == 15 || (224 ≤ v && v ≤ 231)

/-- The core at which a request of vector `v` latches (R296, R319). -/
def routesTo (s : State) (v : Nat) (b : Bool) : Bool :=
  if ! s.flag A.TD_STAT 31 then ! b
  else bothCores v || s.flag (A.TD_ROUTE (v / 32)) (v % 32) == b

/-- The latch of vector `v` at core A (`b` false) or core B. -/
def latchOf (s : State) (b : Bool) (v : Nat) : Bool := Sparse.get (fun _ => false) (if b then s.vecB else s.vecA) v

/-- Vector `v` is pending at core A (`b` false) or core B (R296). A request whose latch is set at the other core stays there
until it is taken (R319). -/
def vecPending (s : State) (b : Bool) (v : Nat) : Bool :=
  s.latchOf b v || (s.requests v && s.routesTo v b && (bothCores v || ! s.latchOf (! b) v))

/-- What is pending sets its latch, at the core to which it is routed: before a route changes (R319). -/
def latchRequests (s : State) : State :=
  let go := fun (b : Bool) (l : Sparse Bool) =>
    forUpTo 248 (fun v (l : Sparse Bool) => if s.vecPending b v then Sparse.set (fun _ => false) l v true else l) l
  { s with vecA := go false s.vecA, vecB := go true s.vecB }

/-- The pending vector with the lowest number (R296). -/
def nextVec (s : State) (b : Bool) : Option Nat := (List.range 248).find? (fun v => s.vecPending b v)

/-- Taking vector `v` clears its latch (R296). -/
def takeVec (s : State) (b : Bool) (v : Nat) : State :=
  if b then { s with vecB := Sparse.set (fun _ => false) s.vecB v false }
  else { s with vecA := Sparse.set (fun _ => false) s.vecA v false }

end State

end Sys2Proof.Machine
end

