-- ==== Sys2Proof/Machine/Tandem.lean ====
section
/-!
DEFINITION. The TD block (R302, R303, R315–R323): shadow contexts, windows, watchdog and counters.
-/
namespace Sys2Proof.Machine

namespace State

/-- The cores that run by themselves: core B does only unhitched (R309). -/
def coreOf (s : State) (m : Master) : Who := if m = .coreB ∧ s.unhitched then .b else .a

/-- The bank in which a core is; in tandem core B holds core A's state (R309). -/
def bkOf (s : State) (c : Who) : Nat := (s.getCore c).bk

/-! ### Shadow contexts (R300–R303) -/

/-- Context of bank `b` of a core (R301): bank 0 uses the one that TD_SSCTX selects. -/
def ssOf (s : State) (c : Who) (b : Nat) : Nat :=
  let base := if c = .b then 20 else 0
  if b = 0 then base + (if c = .b then s.fld A.TD_SSCTX 19 16 else s.fld A.TD_SSCTX 3 0) else base + 15 + b

/-- The newest return addresses of context `x`, at most 64, newest first: those that the core holds (R301). -/
def ssGet (s : State) (x : Nat) : List Nat := Sparse.get (fun _ => []) s.mem.ssCtx x

/-- The older entries of context `x`, which lie in the shadow region: the position of the oldest, and their number. -/
def ssOld (s : State) (x : Nat) : Nat × Nat := Sparse.get (fun _ => (0, 0)) s.mem.ssDeep x

/-- Entries that context `x` holds (R302). -/
def ssDepth (s : State) (x : Nat) : Nat := (s.ssGet x).length + (s.ssOld x).2

/-- The address in the shadow region of position `i` of context `x` (R301): the order within a context is assumption 136. -/
def ssAddr (s : State) (x i : Nat) : Nat :=
  let k := s.fld A.TD_SSCFG 3 0
  s.fld A.TD_SSCFG 21 10 * 1024 + x * (4 * 2 ^ k) + 4 * (i % 2 ^ k)

/-- Context `x` holds `l` in the core and `d` in the region. -/
def ssPut (s : State) (x : Nat) (l : List Nat) (d : Nat × Nat) : State :=
  { s with mem := { s.mem with ssCtx := Sparse.set (fun _ => []) s.mem.ssCtx x l,
                               ssDeep := Sparse.set (fun _ => (0, 0)) s.mem.ssDeep x d } }

/-- Context `x` holds `l` alone. -/
def ssSet (s : State) (x : Nat) (l : List Nat) : State := s.ssPut x l (0, 0)

/-- Shadow checking acts (R300). -/
def ssOn (s : State) : Bool := s.flag A.TD_SSCFG 31 && ! s.flag A.TD_SSCFG 30

/-- A CALL pushes onto the context of the current bank; a full context discards its oldest entry (R300), and of more than 64
entries the mover writes the older ones to the region (R301). -/
def ssPush (s : State) (c : Who) (b ret : Nat) : State :=
  if ! s.ssOn then s
  else
    let x := s.ssOf c b
    let l := s.ssGet x
    let d := s.ssOld x
    let full : Bool := decide (2 ^ s.fld A.TD_SSCFG 3 0 ≤ s.ssDepth x)
    let d1 : Nat × Nat := if full then (d.1 + 1, d.2 - 1) else d
    let s1 :=
      if l.length < 64 then s.ssPut x (ret :: l) d1
      else if full ∧ d.2 = 0 then s.ssPut x ((ret :: l).take 64) d
      else ((s.ydWriteWord 11 (s.ssAddr x (d1.1 + d1.2)) (BitVec.ofNat 32 (l.getD 63 0))).1).ssPut x ((ret :: l).take 64)
        (d1.1, d1.2 + 1)
    if full then s1.setFlag A.TD_SSSTAT (if c = .b then 29 else 30) true else s1

/-- A RET pops context `x`; the newest entry of the region takes the place that falls free in the core (R300, R301). -/
def ssPop (s : State) (x : Nat) : State :=
  let l := (s.ssGet x).tail
  let d := s.ssOld x
  if d.2 = 0 then s.ssPut x l d
  else
    let r := s.ydReadWord 11 (s.ssAddr x (d.1 + d.2 - 1)) 0
    r.1.ssPut x (l ++ [(r.2.getD 0).toNat]) (d.1, d.2 - 1)

/-! ### Checks of the block's configuration -/

/-- Cycles of a signature window (R310, R322). -/
def tdWindow (s : State) : Nat := let w := s.fld A.TD_CFG 2 0; if 5 ≤ w then 1024 else 256 * 2 ^ w

/-- TD_STAT.CFGERR: an invalid WIN or TIME. -/
def tdShowErr (s : State) : State :=
  s.setFlag A.TD_STAT 28 (decide (5 ≤ s.fld A.TD_CFG 2 0) || (s.flag A.TD_WDOG 31 && s.fld A.TD_WDOG 15 0 == 0))

/-- The watchdog runs (R320, R322). -/
def wdOn (s : State) : Bool := s.flag A.TD_WDOG 31 && s.fld A.TD_WDOG 15 0 != 0

/-- The watchdogs restart: both cores', or one's. -/
def kick (s : State) (c : Who) : State := s.setCore c { s.getCore c with kickAt := s.dtC }

/-- The number of held writes as shown in HWCNT. -/
def hwShow (s : State) : State :=
  let n := s.mem.held.length
  let s1 := s.setFld A.TD_STAT 5 0 n
  if 32 ≤ n then s1.setFlag A.TD_STAT 26 true else s1

end State

/-- A write of TD_SSCTX (R302): refused for the field of a core that is in bank 0. -/
def writeSsCtx (v : Word) (s : State) : State :=
  let put := fun (c : Who) (hi lo : Nat) (t : State) =>
    if s.bkOf c = 0 then t.setFlag A.TD_SSSTAT 31 true else t.setFld A.TD_SSCTX hi lo (bitsOf v hi lo)
  put .b 19 16 (put .a 3 0 s)

/-- TD_SSCTX_WRITE. -/
def execTdSsctxWrite (v : Word) (s : State) : Out := .next (writeSsCtx v s)

/-- A write of TD_SSCLR (R302): a context in use is not emptied. -/
def writeSsClr (v : Word) (s : State) : State :=
  let x := bitsOf v 5 0
  if ! bitOf v 31 ∨ 40 ≤ x then s
  else if x = s.ssOf .a s.coreA.bk ∨ (s.unhitched ∧ x = s.ssOf .b s.coreB.bk) then s.setFlag A.TD_SSSTAT 31 true
  else s.ssSet x []

/-- TD_SSCLR. -/
def execTdSsclr (v : Word) (s : State) : Out := .next (writeSsClr v s)

/-- A write of TD_WDKICK (R320). -/
def writeWdKick (m : Master) (v : Word) (s : State) : State :=
  let c := s.coreOf m
  if bitsOf v 15 0 = 0xC0DE then s.kick c else s.raiseC 0x12 (if c = .b then 1 else 0)

/-- WDKICK. -/
def execWdkick (m : Master) (v : Word) (s : State) : Out := .next (writeWdKick m v s)

/-- WATCHDOG_EXPIRE (R320): TIME µs have passed without a kick of the core's watchdog, which then starts anew; a halt by the
debugger pauses it (R484). -/
def execWatchdogExpire (b : Bool) (s : State) : Out :=
  let c : Who := if b then .b else .a
  if ! s.wdOn ∨ ! s.started ∨ (b ∧ ! s.unhitched) ∨ s.mem.tdReset.isSome ∨ (s.getCore c).dbgHalt then .next s
  else if s.dtC < (s.getCore c).kickAt + 1000 * s.fld A.TD_WDOG 15 0 then .next s
  else .next ((s.kick c).raiseC 0x12 b.toNat)

/-- TD_CLR.CNT (R322): the four counters. -/
def tdClrCnt (s : State) : State :=
  (((s.wr A.TD_CNT_HWSTALL 0).wr A.TD_CNT_ICMISSA 0).wr A.TD_CNT_ICMISSB 0).wr A.TD_CNT_ICPAR 0

/-- TD_CLR_CNT. -/
def execTdClrCnt (s : State) : Out := .next (tdClrCnt s)

/-- A write of a TD register (R302, R322). -/
def writeTd (m : Master) (a : Nat) (v ev : Word) (s : State) : State :=
  if a = A.TD_CTRL then (if bitOf v 31 then s.tandemReset else s)
  else if a = A.TD_CFG then (s.plainWrite a v).tdShowErr
  else if a = A.TD_WDOG then
    let s1 := (s.plainWrite a v).tdShowErr
    if s1.wdOn ∧ ! s.wdOn then (s1.kick .a).kick .b else s1
  else if a = A.TD_WDKICK then writeWdKick m v s
  else if a = A.TD_CLR then (if bitOf v 0 then tdClrCnt s else s)
  else if a = A.TD_SSCFG then
    let s1 := s.plainWrite a v
    s1.setFlag a 30 s1.ssBadCfg
  else if a = A.TD_SSCTX then writeSsCtx v s
  else if a = A.TD_SSCLR then writeSsClr v s
  else if a = A.TD_ROUTE 0 then s
  -- a route change applies to later requests (R319)
  else if a = A.TD_ROUTE 7 then s.latchRequests.plainWrite a (v &&& 0xFFFFFF00)
  else if A.TD_ROUTE 0 < a ∧ a < A.TD_ROUTE 7 then s.latchRequests.plainWrite a v
  else s.plainWrite a v ev

/-- ICACHE_FILL (R306, R308, R340): a miss of a core at the cache line of syllable `a` is filled; it is installed as the
newest line of its set. `up` upsets are met in one of its MRAM lines, `k`; `par` tells of a parity error in a line that the
cache held, which is fetched again. -/
def execIcacheFill (b : Bool) (a : BitVec 22) (k : Fin 8) (up : Fin 3) (par : Bool) (s : State) : Out :=
  let c : Who := if b then .b else .a
  let line := a.toNat / 32
  let core := s.getCore c
  let set := line % 256
  let tags := Sparse.get (fun _ => []) core.icache set
  if (tags.contains line ∧ ! par) ∨ ! s.coreOn then .next s
  else
    let l := line * 32 + 4 * k.val
    let s0 := if par then s.satAdd A.TD_CNT_ICPAR 31 0 1 else s.satAdd (if b then A.TD_CNT_ICMISSB else A.TD_CNT_ICMISSA) 31 0 1
    let s1 :=
      if up.val = 2 then pmEcc2 l s0 else if up.val = 1 then s0.satAdd A.PM_ECC1 31 0 1 else s0
    let new := (line :: tags.erase line).take 4
    .next (s1.setCore c { core with
      icache := Sparse.set (fun _ => []) core.icache set new,
      -- what the line that was filled, or one that it replaced, held is gone
      stale := core.stale.filter (fun o => o.1 / 32 != line && (o.1 / 32 % 256 != set || new.contains (o.1 / 32))) })

end Sys2Proof.Machine
end

