-- ==== Sys2Proof/Machine/RegWrite.lean ====
section
/-!
DEFINITION. Register accesses over the whole setup space (R10–R13, R35–R39): which rule a write or a read of each address
follows, whoever makes it.
-/
namespace Sys2Proof.Machine

/-! ### Writes of the control die -/

/-- A write of a SYS register (R464, R467). A write of CDRST sends LIMP to the field die, and the warm reset runs when it has
arrived; the command SYS_CDRST is a request and its reset in one. -/
def writeSys (a : Nat) (v ev : Word) (s : State) : State :=
  if a = A.SYS_CTRL then
    let s0 := (s.setFlag A.SYS_RSTCAUSE 28 true).sendF .limp
    let s1 := if bitOf v 31 then { s0 with gd := { s0.gd with cdPend := true } } else s
    if bitOf v 30 then s1.fieldReset else s1
  else s.plainWrite a v ev

/-- A write of a YD register (R327, R328, R343). -/
def writeYd (m : Master) (a : Nat) (v ev : Word) (s : State) : State :=
  if a = A.YD_CLR then
    let s1 := if bitOf v 2 then ydClrEcc s else s
    let s2 := if bitOf v 1 then ydClrColl s1 else s1
    if bitOf v 0 then ydClrConf s2 else s2
  else if a = A.YD_TESTCFG then
    let s1 := s.plainWrite a v
    let s2 := s1.setFlag A.YD_TESTSTAT 29 (! ydSweepOk s1)
    -- the walk stops when EN is cleared or SWEEP is invalid
    if s1.flag A.YD_TESTCFG 31 && ydSweepOk s1 then s2 else s2.setFlag A.YD_TESTSTAT 31 false
  else if A.YD_OWN 0 ≤ a ∧ a < A.YD_OWN 16 then
    let n := (a - A.YD_OWN 0) / 0x20
    if a = A.YD_HAND n then writeHand m n v s
    else if a = A.YD_FORCE n then writeForce n v s
    else s.plainWrite a v ev
  else if a = A.YD_NVWEARTH then wearTh 0 (s.num a) (s.plainWrite a v)
  else s.plainWrite a v ev

/-- A write of a PM register (R344). -/
def writePm (a : Nat) (v ev : Word) (s : State) : State :=
  if a = A.PM_CLR then (if bitOf v 0 then s.wr A.PM_ECC1 0 else s)
  else if a = A.PM_WEARTH then wearTh 1 (s.num a) (s.plainWrite a v)
  else s.plainWrite a v ev

/-- A write of a register of the common BG block (R164). -/
def writeBg (m : Master) (a : Nat) (v ev : Word) (s : State) : State :=
  if a = A.BG_PPORT_ADDR then s.setLatch m a (v &&& 0x3FFF)
  else if a = A.BG_PPORT_DATA then writePport m v s
  else s.plainWrite a v ev

/-- A write of a register of bogie `b` (R164). -/
def writeBgn (b : Nat) (a : Nat) (v ev : Word) (s : State) : State :=
  if a = A.BGn_CLR b then
    let s1 := if bitOf v 2 then bgClrCnt b s else s
    let s2 := if bitOf v 1 then bgClrTgap b s1 else s1
    if bitOf v 0 then bgClrPeak b s2 else s2
  else s.plainWrite a v ev

/-- A write of a TT register (R63): the tracks, the entries and the mirrors of FIRED. -/
def writeTtBlk (a : Nat) (v ev : Word) (s : State) : State :=
  if A.TT_CTL 0 ≤ a ∧ a < A.TT_CTL 512 then writeTt ((a - A.TT_CTL 0) / 0x20) (a % 0x20 / 4) v ev s
  else if A.TT_FIRED 0 ≤ a ∧ a < A.TT_FIRED 16 then writeTtFired ((a - A.TT_FIRED 0) / 4) v ev s
  else if A.TRK_CFG 1 ≤ a ∧ a < A.TRK_CFG 16 ∧ a % 0x40 = 0 then writeTrkCfg ((a - A.TRK_CFG 0) / 0x40) v s
  else s.plainWrite a v ev

/-- A write of an LK register or of the MSI-X structures (R365, R367, R375). -/
def writeLkAll (a : Nat) (v ev : Word) (s : State) : State :=
  if A.MSIX_CTRL 0 ≤ a ∧ a < A.MSIX_PBA 0 ∧ a % 16 = 12 then msixMask ((a - 0x08131000) / 16) (bitOf v 0) s
  else writeLk a v ev s

/-- A write of a register of the control die. -/
def writeControl (m : Master) (a : Nat) (v ev : Word) (s : State) : State :=
  match a / 0x10000 with
  | 0x800 => writeSys a v ev s
  | 0x801 => writeGd a v ev s
  | 0x802 => writeTd m a v ev s
  | 0x803 => writeYd m a v ev s
  | 0x804 => writePm a v ev s
  | 0x805 => writeBg m a v ev s
  | 0x806 => writeBgn 0 a v ev s
  | 0x807 => writeBgn 1 a v ev s
  | 0x808 => writeBgn 2 a v ev s
  | 0x809 => writeBgn 3 a v ev s
  | 0x80A => writeBgn 4 a v ev s
  | 0x80B => writeMp a v ev s
  | 0x80C => writeTtBlk a v ev s
  | 0x80D => writeHq a v ev s
  | 0x80E => writeCs (if a < A.CS_BASE_L 1 then 0 else 1) a v s
  | 0x810 => writePw a v ev s
  | 0x811 => writeOd a v ev s
  | 0x812 => writeCpl a v ev s
  | 0x813 => writeLkAll a v ev s
  | _ => s.plainWrite a v ev

/-! ### Writes of the field die -/

/-- A write of a PU or GP register of unit `u` (R97, R98, R113, R118–R120). -/
def writeUnit (u : Nat) (a : Nat) (v ev : Word) (s : State) : State :=
  if a = uCtl u then writeUnitCtl u v s
  else if a = uBase u + 8 then s.sealUnit u (bitsOf v 7 0)
  else if uSet u 0 ≤ a ∧ a < uSet u (uSetLen u) then writeUnitSet u ((a - uSet u 0) / 4) v s
  else if u < 16 ∧ a = A.PU_SFCFG u then writeSfcfg u v s
  else if uEvCfg u 0 ≤ a ∧ a < uEvCfg u 4 then writeEvCfg u ((a - uEvCfg u 0) / 4) v s
  else (s.plainWrite a v ev).puSetCfgErr u

/-- A write of a PU or GP register. -/
def writePwmBlk (a : Nat) (v ev : Word) (s : State) : State :=
  if a < 0x08210000 then writeUnit ((a - 0x08200000) / 0x1000) a v ev s
  else if a < 0x08212000 then writeUnit (16 + (a - 0x08210000) / 0x100) a v ev s
  else if A.GP_GSEAL 0 ≤ a ∧ a < A.GP_GSEAL 8 then (sealGroup ((a - A.GP_GSEAL 0) / 4) (bitsOf v 7 0) false s).1
  else s.plainWrite a v ev

/-- A write of an SN or SX register (R77, R78, R82, R88). -/
def writeSn (a : Nat) (v ev : Word) (s : State) : State :=
  if a < 0x08222400 then
    let c := (a - 0x08220000) / 0x80
    if a = A.SN_CFG c then writeSnCfg c v s
    else if a = A.SN_WCFG c then writeWcfg c v s
    else if a = A.SN_WCTL c then writeWctl c v s
    else if a = A.SN_PCFG c ∨ a = A.SN_DIAG c then pcSetCfgErr ((s.plainWrite a v).snSetCfgErr c)
    else s.plainWrite a v ev
  else if a = A.SN_CTRL then
    let s1 := s.plainWrite a v
    if bitOf v 0 then psyncNow s1 else s1
  else if A.SN_PC_CFG 0 ≤ a ∧ a < A.SN_PC_CFG 16 ∧ a % 0x20 = 0 then pcSetCfgErr (s.plainWrite a v)
  else s.plainWrite a v ev

/-- A write of a CP or BL register (R135, R136, R139). -/
def writeCp (a : Nat) (v ev : Word) (s : State) : State :=
  if a < 0x08230700 ∧ a % 16 < 8 then writeCmp ((a - 0x08230000) / 16) (a % 16 == 4) v s
  else if a = A.BL_CLR then writeBlClr v s
  else if A.BL_SS_CFG 0 ≤ a ∧ a < A.BL_SS_CFG 24 ∧ a % 16 = 0 then writeSsCfg ((a - A.BL_SS_CFG 0) / 16) v s
  else if a = A.CP_STCTL then
    let s1 := s.plainWrite a v
    s1.setFlag A.CP_STSTAT 28 (decide (bitsOf v 6 0 = 0 ∨ 100 < bitsOf v 6 0))
  else s.plainWrite a v ev

/-- A write of an HK register (R85, R88). -/
def writeHk (a : Nat) (v ev : Word) (s : State) : State :=
  if a = A.HK_CTRL then writeHkCtrl v s
  else if a = A.HK_URG then writeHkUrg v s
  else if A.HK_SLOT 0 ≤ a ∧ a < A.HK_SLOT 16 then hkSetCfgErr (s.plainWrite a v)
  else s.plainWrite a v ev

/-- A write of a TC register (R351–R362). -/
def writeTc (a : Nat) (v ev : Word) (s : State) : State :=
  if a < 0x08250800 then
    let n := (a - 0x08250000) / 0x40
    if a = A.TC_CTL n then writeTcCtl n v s
    else if a = A.TC_CNT n then writeTcCnt n v s
    else if a = A.TC_CMP0 n then writeTcCmp n 0 v s
    else if a = A.TC_CMP1 n then writeTcCmp n 1 v s
    else if a = A.TC_CMD n then
      let s1 := if bitOf v 0 then s.tcArm n else s
      let s2 := if bitOf v 1 then s1.tcRestart n else s1
      if bitOf v 2 then s2.tcCapture n else s2
    else (s.plainWrite a v ev).tcRefresh n
  else if a = A.TC_GSTART then writeTcGstart v s
  else s.plainWrite a v ev

/-- A write of an IO register (R50). -/
def writeIo (a : Nat) (v ev : Word) (s : State) : State :=
  if a = A.IO_EXC_CFG 0 then writeExcCfg 0 v s
  else if a = A.IO_EXC_CFG 1 then writeExcCfg 1 v s
  else s.plainWrite a v ev

/-- A write applied at the field die; a block without power takes none (R432). -/
def writeField (m : Master) (a : Nat) (v ev : Word) (s : State) : State :=
  if s.fieldOff a then s else
  match a / 0x10000 with
  | 0x820 | 0x821 => writePwmBlk a v ev s
  | 0x822 => writeSn a v ev s
  | 0x823 => writeCp a v ev s
  | 0x824 => writeHk a v ev s
  | 0x825 => writeTc a v ev s
  | 0x826 => writeFg a v ev s
  | 0x827 => writeLn m a v ev s
  | 0x828 => writeIo a v ev s
  | _ => s.plainWrite a v ev

/-- The address lies in the field window (R36). -/
def inField (a : Nat) : Bool := decide (0x08200000 ≤ a ∧ a < 0x08300000)

/-- The address lies in a block whose writes need an epoch: PU, GP, CP/BL and FG (R415). -/
def epochBlock (a : Nat) : Bool :=
  let b := a / 0x10000
  b == 0x820 || b == 0x821 || b == 0x823 || b == 0x826

/-- The write of register `a` under its own rule, wherever it lies. -/
def writeReg (m : Master) (a : Nat) (v ev : Word) (s : State) : State :=
  if inField a then writeField m a v ev s else writeControl m a v ev s

/-! ### Reads -/

/-- Registers that a read of another register latches (R62, R87, R360, R369, R440). -/
def latched (a : Nat) : Bool :=
  let r := fun (lo hi : Nat) => decide (lo ≤ a ∧ a < hi)
  (r (A.TRK_CFG 0) (A.TRK_CFG 16) && (a % 0x40 == 8 || a % 0x40 == 0xC || a % 0x40 == 0x10 || a % 0x40 == 0x14))
    || (r (A.TT_CTL 0) (A.TT_CTL 512) && a % 0x20 == 0x18)
    || (r 0x08220000 0x08222400 && (a % 0x80 == 0x14 || a % 0x80 == 0x18 || a % 0x80 == 0x1C || a % 0x80 == 0x20))
    || (r (A.HK_RES 0) (A.HK_RES 40) && a % 0x10 != 0)
    || a == A.LK_PTM_DT_H || a == A.LK_PTM_HT_L || a == A.LK_PTM_HT_H || a == A.LN_RTC_H

/-- A read of register `a` by requester `m`, with what the read changes. -/
def readReg (m : Master) (a : Nat) (s : State) : Word × State :=
  let r := fun (lo hi : Nat) => decide (lo ≤ a ∧ a < hi)
  if latched a then (s.getLatch m a, s)
  else if r (A.TRK_CFG 0) (A.TRK_CFG 16) ∧ a % 0x40 = 4 then readTrkAng m ((a - A.TRK_CFG 0) / 0x40) s
  else if r (A.TT_CTL 0) (A.TT_CTL 512) ∧ a % 0x20 = 0x14 then readPredL m ((a - A.TT_CTL 0) / 0x20) s
  else if r (A.TT_CTL 0) (A.TT_CTL 512) ∧ a % 0x20 = 0x10 then (putBits (s.rd a) 4 0 (bitsOf (s.getLatch m a) 4 0), s)
  else if r 0x08220000 0x08222400 ∧ a % 0x80 = 0x10 then readWres m ((a - 0x08220000) / 0x80) s
  else if r (A.HK_RES 0) (A.HK_RES 40) then readHkRes m ((a - A.HK_RES 0) / 0x10) s
  else if r 0x08250000 0x08250800 ∧ a % 0x40 = 8 then readTcCnt m ((a - 0x08250000) / 0x40) false s
  else if r 0x08250000 0x08250800 ∧ a % 0x40 = 0x30 then readTcCnt m ((a - 0x08250000) / 0x40) true s
  else if r 0x08250000 0x08250800 ∧ a % 0x40 = 4 then
    (readMask (fieldsAt a) ((s.tcRefresh ((a - 0x08250000) / 0x40)).rd a), s)
  else if r (A.BL_SS_CFG 0) (A.BL_SS_CFG 24) ∧ a % 0x10 = 0xC then
    -- FBWAIT as of this instant (R132)
    (readMask (fieldsAt a) ((s.fbWait ((a - A.BL_SS_CFG 0) / 0x10) (instant s.dtF 19)).rd a), s)
  else if r 0x08200000 0x08210000 ∧ a % 0x1000 = 0x10 then (BitVec.ofNat 32 (s.unitCnt ((a - 0x08200000) / 0x1000)), s)
  else if r 0x08210000 0x08212000 ∧ a % 0x100 = 0x10 then (BitVec.ofNat 32 (s.unitCnt (16 + (a - 0x08210000) / 0x100)), s)
  else if r (A.TD_SSDEP 0) (A.TD_SSDEP 40) then (BitVec.ofNat 32 (s.ssDepth ((a - A.TD_SSDEP 0) / 4)), s)
  else if a = A.YD_NVWEARCNT then (BitVec.ofNat 32 (Sparse.get (fun _ => 0) s.mem.nvWear (s.num A.YD_NVWEARSEL)), s)
  else if a = A.PM_WEARCNT then (BitVec.ofNat 32 (Sparse.get (fun _ => 0) s.mem.pmWear (s.num A.PM_WEARSEL)), s)
  else if a = A.BG_PPORT_ADDR then (s.getLatch m a, s)
  else if a = A.BG_PPORT_STAT then
    let ch := bitsOf (s.getLatch m A.BG_PPORT_ADDR) 13 8
    (putBits (s.rd a) 6 0 (s.portPend ch), s)
  else if a = A.HQ_STAT then (s.hqStat, s)
  else if a = A.CPL_CTRL then (readCplCtrl s, s)
  else if a = A.LK_PTM_DT_L then readPtm m s
  else if a = A.LN_RTC_L then readRtc m s
  else if a = A.SC_RAND then readRand s
  else if a = A.SC_DBGSTAT then
    (match s.sc.ends with | some e => putBits (s.rd a) 21 0 ((e - s.dtC) / 1000000) | none => s.rd a, s)
  else (readMask (fieldsAt a) (s.rd a), s)

/-! ### Field-window traffic (R36–R39, R415) -/

/-- A write to the field window leaves as class-4 traffic (R36), with the epoch of the control side; a host's carries none
(R30). -/
def forwardWrite (m : Master) (a : Nat) (v : Word) (s : State) : State :=
  s.sendF (.regWrite m a v (if m = .host then none else some (s.num A.CPL_EPOCH)))

/-- A write arrives at the field die. PU, GP, CP/BL and FG take it only with the granted epoch, but for a core's FG_LLCLR
(R415, R418). -/
def applyFieldWrite (m : Master) (a : Nat) (v : Word) (epoch : Option Nat) (ev : Word) (s : State) : State :=
  let okEpoch : Bool := match epoch with | some e => s.epochOk e | none => false
  if epochBlock a ∧ ! okEpoch ∧ ! (a = A.FG_LLCLR ∧ epoch.isSome) then rejectTransfer (s.rejectKind epoch) s
  else writeField m a v ev s.ttFirst

/-! ### The host (R37, R365, R366) -/

/-- Control-die registers that a host write reaches (R365). -/
def hostWrites (a : Nat) : Bool :=
  let b := a / 0x10000
  b == 0x80D || b == 0x80E || decide (0x08131000 ≤ a ∧ a < 0x08132000) || a == A.LK_HIRQ || a == A.LK_PTMCTL

/-- A host write at `a` (R30, R365): one to PU, GP, CP/BL or FG is forwarded, and elsewhere only the host's own registers
take it. -/
def hostWrite (a : Nat) (v : Word) (s : State) : State :=
  if epochBlock a then forwardWrite .host a v s else if hostWrites a then writeControl .host a v 0 s else s

/-- HOST_BAR0_ACCESS: `off` the offset in BAR0, `size` in bytes; a read with none, a write with its value. -/
def execHostBar0Access (off : BitVec 24) (size : BitVec 4) (w : Option Word) (s : State) : Out :=
  let a := 0x08000000 + off.toNat
  if ! s.hostUp then .next s
  else if s.host.d3hot then .next (s.emit (.hostErr 1))
  else if size ≠ 4 ∨ off.toNat % 4 ≠ 0 then .next (s.emit (.hostErr 2))
  else
    match w with
    | some v => .next (hostWrite a v s)
    | none =>
      if inField a then .next (s.sendF (.regRead .host a))
      else
        let r := readReg .host a s
        .next (r.2.setData .host r.1)

/-- HOST_CONFIG_WRITE (R366–R368): Cache_Enable, Bus Master Enable, MSI-X Enable and the power state; leaving D3hot
keeps the rest. Setting MSI-X Enable sends the unmasked vectors that are pending. -/
def execHostConfigWrite (cacheEn bme msixEn d3 : Bool) (s : State) : Out :=
  let s1 := ({ s with host := { s.host with msixEn := msixEn, d3hot := d3 } }.setFlag A.LK_UPSTAT 29 cacheEn).setFlag
    A.LK_UPSTAT 28 bme
  .next (if msixEn ∧ ! s.host.msixEn then msixFlush s1 else s1)

end Sys2Proof.Machine
end

