-- ==== Sys2Proof/Machine/FelCore.lean ====
section
/-!
DEFINITION. The Felrad processors (R228–R239, R246–R252, R284–R301, R444): registers, fetching, taking an exception,
returning from one, and how an instruction completes.
-/
namespace Sys2Proof.Machine

namespace CoreSt

/-! ### Registers (R232–R235) -/

def bank (k : CoreSt) (b : Nat) : Bank := Sparse.get (fun _ => {}) k.banks b
def setBank (k : CoreSt) (b : Nat) (v : Bank) : CoreSt := { k with banks := Sparse.set (fun _ => {}) k.banks b v }

/-- Work register `n` of bank `b`. -/
def wreg (k : CoreSt) (b n : Nat) : Word := Sparse.get (fun _ => 0) (k.bank b).w n
def setWreg (k : CoreSt) (b n : Nat) (v : Word) : CoreSt :=
  k.setBank b { k.bank b with w := Sparse.set (fun _ => 0) (k.bank b).w n v }

/-- Work register `n` of the current bank. -/
def reg (k : CoreSt) (n : Nat) : Word := k.wreg k.bk n
def setReg (k : CoreSt) (n : Nat) (v : Word) : CoreSt := k.setWreg k.bk n v

/-- SP of the current bank. -/
def sp (k : CoreSt) : Word := (k.bank k.bk).sp
def setSpOf (k : CoreSt) (b : Nat) (v : Word) : CoreSt := k.setBank b { k.bank b with sp := v }
def setSp (k : CoreSt) (v : Word) : CoreSt := k.setSpOf k.bk v

/-- STAT fields (R234). -/
def pl (k : CoreSt) : Nat := bitsOf k.stat 12 11
def rp (k : CoreSt) : Bool := bitOf k.stat 13
def lp (k : CoreSt) : Bool := bitOf k.stat 14
def ie (k : CoreSt) : Bool := bitOf k.stat 10
def rc (k : CoreSt) : Nat := bitsOf k.stat 31 16
def setStat (k : CoreSt) (hi lo v : Nat) : CoreSt := { k with stat := putBits k.stat hi lo v }

/-- The loop that LS describes (R235): count register, start, end. -/
def lsWc (k : CoreSt) : Nat := bitsOf k.ls 31 28
def lsStart (k : CoreSt) : Nat := bitsOf k.ls 21 0
def lsEnd (k : CoreSt) : Nat := k.lsStart + bitsOf k.ls 27 22 + 1

/-- A pass of the loop has ended (R250). -/
def passEnd (k : CoreSt) : Bool := k.lp && ! k.rp && k.pc == k.lsEnd

/-! ### Near loads (R237–R239) -/

/-- Values that have arrived and whose slots have completed are written, oldest first. -/
def writeBack (k : CoreSt) : CoreSt :=
  let due := k.loads.filter (fun l => l.slotDone && l.val.isSome)
  let k1 := due.foldl (fun (k : CoreSt) l => k.setWreg l.bank l.rd (l.val.getD 0)) k
  { k1 with loads := k.loads.filter (fun l => ! (l.slotDone && l.val.isSome)) }

/-- The first `n` loads have had their slots. -/
def slots (k : CoreSt) (n : Nat) : CoreSt :=
  { k with loads := (k.loads.take n).map (fun l => { l with slotDone := true }) ++ k.loads.drop n }

/-- Every load is written now: before the bank changes. -/
def settle (k : CoreSt) : CoreSt := (k.slots k.loads.length).writeBack

/-- Data of some load has not arrived. -/
def dataOut (k : CoreSt) : Bool := k.loads.any (fun l => l.val.isNone)

/-! ### The instruction cache and the loop buffer (R250, R306, R307) -/

/-- The cache holds the line of syllable `a`. -/
def cached (k : CoreSt) (a : Nat) : Bool := (Sparse.get (fun _ => []) k.icache (a / 32 % 256)).contains (a / 32)

/-- A fetch of syllable `a` that the cache serves makes its line the last used of its set. -/
def useLine (k : CoreSt) (a : Nat) : CoreSt :=
  if k.cached a then
    { k with icache := Sparse.set (fun _ => []) k.icache (a / 32 % 256)
               (a / 32 :: (Sparse.get (fun _ => []) k.icache (a / 32 % 256)).erase (a / 32)) }
  else k

/-- The loop buffer's syllable for address `a`, while it serves fetches. -/
def loopSyl (k : CoreSt) (a : Nat) : Option Syl :=
  if ! k.lp then none
  else match k.loopBuf with
    | some (b, l) => if b ≤ a ∧ a < b + l.length then some (l.getD (a - b) 0) else none
    | none => none

/-- The processor issues an instruction of `n` syllables fetched at `a`: what it begins with (R297, R306). -/
def issue (k : CoreSt) (a n : Nat) : CoreSt :=
  let k1 := if (k.loopSyl a).isSome then k else (k.useLine a).useLine (a + n - 1)
  { k1 with noPoint := false }

/-- An interrupt point (R297): no load between itself and its slot or without its data, no held-write stall, not after
DI nor while a store waits for the NV queue, not before a pass end is counted. -/
def atPoint (k : CoreSt) : Bool := k.loads.isEmpty && ! k.noPoint && k.hwSince.isNone && ! k.passEnd

end CoreSt

/-! ### Fetching (R228, R229, R243, R259) -/

namespace State

/-- A syllable as processor `c` fetches it: from the loop buffer; of a line that it has written, as before that write until
PMSYNC (R243); from a cached line, as cached, and else from program MRAM (R245, R306). -/
def fetchSyl (s : State) (c : Who) (a : Nat) : Syl :=
  let k := s.getCore c
  match k.loopSyl a with
  | some v => v
  | none =>
    match c with
    | .lamp => Sparse.get (fun _ => 0) s.lpm a
    | _ => match (k.oldLines ++ k.stale).find? (fun l => l.1 == a / 4 * 4) with
      | some l => l.2.getD (a % 4) 0
      | none => s.sylAt a

/-- The last syllable address of a processor's program space. -/
def lastSyl (c : Who) : Nat := if c = .lamp then 0x3FFF else 0x3FFFFF

/-- The first of `n` syllables at `a` whose fetch fails: beyond the space, or from an uncorrectable line of program MRAM. -/
def fetchFail (s : State) (c : Who) (a n : Nat) : Option Nat :=
  let k := s.getCore c
  (List.range n).map (a + ·) |>.find? (fun x =>
    (k.loopSyl x).isNone && (decide (lastSyl c < x) ||
      (c != .lamp && Sparse.get (fun _ => false) s.pmBad (x / 4) && ! k.cached x && ! k.oldLines.any (fun l => l.1 == x / 4 * 4))))

/-- The failure of the fetch at `a`: an uncorrectable line is reported (R289, R340). -/
def fetchErr (s : State) (a : Nat) : State := if lastSyl .a < a then s else pmEcc2 (a / 4 * 4) s

/-- The body of the loop that LS describes, as the loop buffer takes it (R250, R252); none where a fetch of it fails. -/
def loopLoad (s : State) (c : Who) (k : CoreSt) : Option (Nat × List Syl) :=
  let n := k.lsEnd - k.lsStart
  if (s.fetchFail c k.lsStart n).isSome then none
  else some (k.lsStart, (List.range n).map (fun i => s.fetchSyl c (k.lsStart + i)))

/-- The instruction at `a`, as processor `c` decodes it; none where it is illegal there. -/
def decodeAt (s : State) (c : Who) (a : Nat) : Option Fel :=
  match decodeFel (s.fetchSyl c a) (s.fetchSyl c (a + 1)) with
  | some i => if c = .lamp ∧ ! i.lampOk then none else some i
  | none => none

/-- Length of the encoding at `a` (R229). -/
def lenAt (s : State) (c : Who) (a : Nat) : Nat := if (s.fetchSyl c a).getLsbD 13 then 2 else 1

/-! ### Taking an exception (R291–R294, R444) -/

/-- The entry word (R292). -/
def entryWord (sync df : Bool) (fromBk cause v : Nat) : Word :=
  BitVec.ofNat 32 (sync.toNat * 2 ^ 31 + df.toNat * 2 ^ 30 + fromBk * 2 ^ 24 + cause * 2 ^ 16 + v)

/-- The master number of a core at the yards (R324). -/
def yardMaster (c : Who) : Nat := if c = .b then 1 else 0

/-- Core `c` stops (R293, R294): in tandem both do. -/
def stopCore (s : State) (c : Who) : State :=
  let stop := fun (k : CoreSt) => { k with run := false, loads := [], hwSince := none, wait := Wait.none }
  let s1 := (s.setCore c (stop (s.getCore c))).raiseC 0x11 (if c = .b then 1 else 0)
  if s.unhitched then s1.setFlag A.TD_STAT (if c = .b then 24 else 25) true
  else (s1.setFlag A.TD_STAT 25 true).setFlag A.TD_STAT 24 true

/-- The table entry of vector `v` (R288), or the failure of its read (R294), which meets `up` upsets. -/
def vectorEntry (s : State) (c : Who) (v : Nat) (up : Nat := 0) : State × Option Word :=
  let a := (s.getCore c).vtb.toNat / 1024 * 1024 + 4 * v
  if c = .lamp then
    (s, if a + 4 ≤ 0x2000 then
        some (BitVec.ofNat 32 (bytesNum ((List.range 4).map (fun i => Sparse.get (fun _ => 0) s.lram (a + i))))) else none)
  else if 0x400000 ≤ a then (s, none)
  else s.ydReadWord (yardMaster c) a up

/-- What an entry leaves of STAT (R291). -/
def entryStat (old : Word) (pl : Nat) (df : Bool) : Word :=
  setBit (putBits (putBits (putBits (putBits old 31 16 0) 14 13 0) 12 11 pl) 10 8 0) 15 df

/-- The lamplighter halts on an exception in bank 1 (R444). -/
def lampHalt (s : State) : State :=
  let s1 := { s with lamp := { s.lamp with run := false, loads := [], wait := .none } }
  let s2 := (((s1.setFlag A.LN_STAT 29 false).setFlag A.LN_STAT 28 false).setFlag A.LN_STAT 27 true).wr A.LN_LLFPC
    (BitVec.ofNat 32 (s.lamp.pc % 2 ^ 24))
  s2.wakeTo 0 s2.pendSources

/-- A processor enters an exception: `cause` the vector of the event, `xpc` what XPC takes, `fa` the fault address,
`up` the upsets of the vector-table entry. -/
def enter (s : State) (c : Who) (sync : Bool) (cause xpc : Nat) (fa : Word) (up : Nat := 0) : State :=
  let k := s.getCore c
  let top := if c = .lamp then 1 else 4
  if top ≤ k.bk then (if c = .lamp then s.lampHalt else s.stopCore c)
  else
    let v := if k.bk = 3 then 1 else cause
    let nb := k.bk + 1
    let df : Bool := nb == 4
    let r := s.vectorEntry c v up
    match r.2 with
    | none => if c = .lamp then r.1.lampHalt else r.1.stopCore c
    | some e =>
      let k := r.1.getCore c
      let old := k.bank nb
      let w := Sparse.set (fun _ => 0) (Sparse.set (fun _ => 0) old.w 0 (entryWord sync df k.bk cause v)) 1 fa
      let pl := if c = .lamp ∨ v < 32 ∨ df ∨ bitOf e 24 then 2 else 1
      let k1 := (k.setBank nb { old with w := w, xpc := BitVec.ofNat 32 (xpc % 2 ^ 24), xst := k.stat })
      let k2 := { k1 with resv := none, stat := entryStat k.stat pl df, bk := nb, pc := bitsOf e 23 0,
                          wait := .none, hwSince := none, noPoint := false }
      let s1 := r.1.setCore c k2
      if c = .lamp then s1 else s1.ssSet (s1.ssOf c nb) []

end State

/-! ### How an instruction ends -/

/-- What the execution of an instruction leads to. -/
inductive FelOut
  /-- it completes, and the next instruction follows -/
  | done (s : State)
  /-- it completes, and control passes to a syllable address -/
  | jump (s : State) (pc : Nat)
  /-- a synchronous exception: vector and fault address; XPC names the instruction -/
  | trap (s : State) (v : Nat) (fa : Word)
  /-- TRAP: XPC names the next instruction -/
  | trapNext (s : State) (v : Nat)
  /-- a held-write stall (R314) -/
  | hold
  /-- it waits before it has done anything -/
  | stay
  /-- it waits so, and no interrupt is taken meanwhile (R297) -/
  | stall
  /-- it has begun, and waits for data or for an acknowledgement -/
  | await (s : State)

/-- The vector that processor `c` would take (R296). -/
def nextVector (s : State) (c : Who) : Option Nat :=
  match c with
  | .lamp => (List.range 112).find? (fun v => Sparse.get (fun _ => false) s.vecL v)
  | c => s.nextVec (c == .b)

/-- No entry into a rung or exit from one is under way, and the cores are clocked. -/
def coresOn (s : State) : Bool := decide (s.rung < 2) && s.pw.entry.isNone && s.pw.exit.isNone

/-- The waits during which an interrupt is taken (R297); the waiting instruction executes again. -/
def waitOpen (s : State) (k : CoreSt) : Bool :=
  match k.wait with
  | .none | .wfi | .pmsync => true
  | .fence => s.mem.held.isEmpty
  | _ => false

/-- The vector that a running processor takes now: at an interrupt point, with IE = 1 (R296, R297). -/
def dueVector (s : State) (c : Who) : Option Nat :=
  let k := s.getCore c
  if ! k.ie ∨ k.dbgHalt ∨ ! k.atPoint ∨ ! waitOpen s k ∨ (c ≠ .lamp ∧ ! coresOn s) then none else nextVector s c

/-- Processor `c` can execute its next instruction: no interrupt comes before it. -/
def felReady (s : State) (c : Who) : Bool :=
  let k := s.getCore c
  k.run && ! (c == .b && ! s.unhitched) && k.wait == .none && ! (k.dbgHalt && k.atPoint)
    && ! k.loads.any (fun l => l.slotDone) && ! k.passEnd && (c == .lamp || decide (s.rung < 2)) && (dueVector s c).isNone

/-- A held-write stall ends with its instruction; its cycles count (R314). -/
def endHold (s : State) (c : Who) : State :=
  match (s.getCore c).hwSince with
  | some t => (s.setCore c { s.getCore c with hwSince := none }).satAdd A.TD_CNT_HWSTALL 31 0 (s.dtC - t)
  | none => s

/-- Processor `c` has completed an instruction of `len` syllables, or passed control to `pc`; the first `n` near loads
had it as their slot. A repeated instruction counts down RC, and its loads interlock but for the last (R246, R249). -/
def complete (c : Who) (len n : Nat) (pc : Option Nat) (s : State) : State :=
  let s1 := endHold s c
  let k := s1.getCore c
  -- a store that has reset the cores leaves them reset
  if ! k.run then s1
  else
  let k1 : CoreSt :=
    match pc with
    | some p => { k.slots n with pc := p % 2 ^ 24 }
    | none =>
      if k.rp then
        if 1 < k.rc then (k.setStat 31 16 (k.rc - 1)).slots k.loads.length
        else { ((k.setStat 31 16 0).setStat 13 13 0).slots n with pc := (k.pc + s.lenAt c k.pc + len) % 2 ^ 24 }
      else { k.slots n with pc := (k.pc + len) % 2 ^ 24 }
  s1.setCore c k1.writeBack

/-- An exception of the instruction at hand; it waits for the data of earlier loads, which are written first (R239). Its
vector-table entry meets `up` upsets. -/
def takeTrap (c : Who) (v xpc : Nat) (fa : Word) (before after : State) (up : Nat := 0) : State :=
  if (before.getCore c).dataOut then before
  else
    let s1 := endHold after c
    (s1.setCore c (s1.getCore c).settle).enter c true v xpc fa up

/-- The body of an instruction of `len` syllables runs at processor `c`, whose present state is ready for it. -/
def runBody (e : Exe) (len : Nat) (body : State → FelOut) (s : State) : State :=
  let c := e.who
  let k := s.getCore c
  let n := k.loads.length
  let start := if k.rp then k.pc + s.lenAt c k.pc else k.pc
  match s.fetchFail c start len with
  | some a => takeTrap c 8 k.pc (BitVec.ofNat 32 a) s (if c = .lamp then s else s.fetchErr a) e.tbl
  | none =>
    let s0 := s.setCore c (k.issue start len)
    let s1 := if e.par ∧ c ≠ .lamp then s0.raiseC 0x14 (if c = .b then 1 else 0) else s0
    let s2 := if e.parB ∧ c = .a ∧ ! s.unhitched then s1.raiseC 0x14 1 else s1
    match body s2 with
    | .done t => complete c len n none t
    | .jump t p => complete c len n (some p) t
    | .trap t v fa => takeTrap c v k.pc fa s t e.tbl
    | .trapNext t v => takeTrap c v ((k.pc + len) % 2 ^ 24) 0 s t e.tbl
    | .hold => s.setCore c { k with hwSince := some (k.hwSince.getD s.dtC) }
    | .stay => s
    | .stall => s.setCore c { k with noPoint := true }
    | .await t => t

/-- A Felrad instruction that is not a repeated one: `core` where the lamplighter does not execute it (R258). -/
def felStep (e : Exe) (len : Nat) (core : Bool) (body : State → FelOut) (s : State) : Out :=
  if ! felReady s e.who ∨ (s.getCore e.who).rp then .next s
  else .next (runBody e len (fun t => if core ∧ e.who = .lamp then .trap t 4 0 else body t) s)

/-- The body changes the processor only. -/
def onCore (c : Who) (f : CoreSt → CoreSt) (s : State) : FelOut := .done (s.setCore c (f (s.getCore c)))

/-- RETX (R284, R295). -/
def insRetx (c : Who) (s : State) : FelOut :=
  let k := s.getCore c
  let b := k.bank k.bk
  if k.pl = 0 then .trap s 5 0
  else if k.bk = 0 then .trap s 1 0
  else if k.pl < bitsOf b.xst 12 11 then .trap s 3 b.xst
  else if k.dataOut then .stay
  else
    let k1 := k.settle
    let st := if c = .lamp then putBits b.xst 12 11 2 else b.xst
    -- a loop that goes on has its body in the loop buffer again (R252)
    let k2 : CoreSt := { k1 with stat := st, bk := k.bk - 1, resv := none,
                                 loopBuf := if bitOf st 14 then s.loopLoad c k else k.loopBuf }
    .jump (s.setCore c k2) (bitsOf b.xpc 23 0)

/-- RETX: returns from an exception. -/
def execRetx (e : Exe) (s : State) : Out := felStep e 1 false (insRetx e.who) s

/-! ### Interrupts (R296–R298) -/

/-- The latch of a vector that is taken clears. -/
def takeVector (s : State) (c : Who) (v : Nat) : State :=
  match c with
  | .lamp => { s with vecL := Sparse.set (fun _ => false) s.vecL v false }
  | c => s.takeVec (c == .b) v

/-- A waiting WFI completes; from Idle the device returns to Run (R283, R441). -/
def wakeCore (c : Who) (s : State) : State :=
  let k := s.getCore c
  if k.wait ≠ .wfi then s
  else if c = .lamp then (s.setCore c { k with wait := .none }).setFlag A.LN_STAT 28 false
  else if s.rung = 1 then s.leaveIdle
  else s.setCore c { k with wait := .none }

/-- INTERRUPT_ENTRY: a processor takes its lowest pending vector at an interrupt point. -/
def execInterruptEntry (x : At) (s : State) : Out :=
  let c := x.who
  if ! (s.getCore c).run ∨ (c = .b ∧ ! s.unhitched) then .next s
  else
    match dueVector s c with
    | none => .next s
    | some v =>
      let s1 := wakeCore c s
      .next ((takeVector s1 c v).enter c false v (s1.getCore c).pc 0 x.tbl)

/-- WFI_WAKE: an interrupt is pending and a waiting WFI completes (R283). -/
def execWfiWake (c : Who) (s : State) : Out :=
  if (s.getCore c).wait = .wfi ∧ (nextVector s c).isSome ∧ (c = .lamp ∨ coresOn s) then .next (wakeCore c s) else .next s

end Sys2Proof.Machine
end

