-- ==== Sys2Proof/Machine/FelMem.lean ====
section
/-!
DEFINITION. Data accesses of the Felrad processors (R33–R39, R240, R241, R259, R273–R277, R287, R312–R314): regions,
checks, held writes, loads, stores and atomics.
-/
namespace Sys2Proof.Machine

/-! ### Regions (R33, R259) -/

/-- Where a data address leads. -/
inductive Region | yard (n : Nat) | nv | ctx | setup | far | cache | lampRam | none
  deriving DecidableEq, Repr, Inhabited

/-- The region of address `a` for processor `c`. -/
def regionOf (c : Who) (a : Nat) : Region :=
  if c = .lamp then
    if a < 0x2000 then .lampRam else if 0x08200000 ≤ a ∧ a < 0x08290000 then .setup else .none
  else if a < 0x00400000 then .yard (a / 0x40000)
  else if 0x01000000 ≤ a ∧ a < 0x01100000 then .nv
  else if 0x02000000 ≤ a ∧ a < 0x02010000 then .ctx
  else if 0x08000000 ≤ a ∧ a < 0x09000000 then .setup
  else if 0x10000000 ≤ a ∧ a < 0x20000000 then .far
  else if 0x20000000 ≤ a ∧ a < 0x20200000 then .cache
  else .none

/-- Setup-space registers that a core writes at M only (R287, R302, R322, R343, R344, R408, R418, R425, R446, R455, R464,
R487, R375). -/
def mOnly (a : Nat) : Bool :=
  match a / 0x10000 with
  | 0x800 | 0x801 | 0x802 | 0x804 | 0x80F | 0x810 | 0x811 | 0x812 | 0x813 => true
  | 0x803 => ! (a == A.YD_NVWEARSEL || (decide (A.YD_OWN 0 ≤ a ∧ a < A.YD_OWN 16) && (a - A.YD_OWN 0) % 0x20 == 4))
  | _ => a == A.FG_LLCLR

/-- A core write at `a` is guard-classed (R312). -/
def guardClass (a : Nat) : Bool :=
  decide (0x01000000 ≤ a ∧ a < 0x01100000) || decide (a / 0x10000 ∈ [0x801, 0x80E, 0x812, 0x820, 0x821, 0x823, 0x826])

/-- The register-access requester that a processor is. -/
def masterOf : Who → Master
  | .a => .coreA
  | .b => .coreB
  | .lamp => .lamp

/-! ### The parts of a near access (R240) -/

/-- An access of `n` bytes at `a`: one part, or a lower and an upper half at an 8-byte boundary. -/
def accParts (a n : Nat) : List (Nat × Nat) :=
  if a / 8 = (a + n - 1) / 8 then [(a, n)]
  else
    let b := (a / 8 + 1) * 8
    [(a, b - a), (b % 2 ^ 32, a + n - b)]

/-- Whether processor `c` may make an access with this part (R33, R34, R37, R274, R287, R326, R336, R444). An access to a
yard of another group is recorded. `size` is that of the whole access. -/
def partOk (c : Who) (wr : Bool) (size : Nat) (p : Nat × Nat) (s : State) : State × Bool :=
  let a := p.1
  let pl := (s.getCore c).pl
  match regionOf c a with
  | .yard n =>
    let r := s.ydEnter (State.yardMaster c) a
    if r.2 then r else (r.1.nonOwner (State.yardMaster c) n wr a, false)
  | .nv =>
    (s, pl != 0 && decide (a < 0x010F4000) &&
      (! wr || decide (a < 0x010E0000) || (decide (0x010F0000 ≤ a) && pl == 2 && s.flag A.YD_NVCTL 31)))
  | .ctx | .cache => (s, ! wr)
  | .setup =>
    (s, size == 4 && a % 4 == 0 && p.2 == 4 &&
      (if c = .lamp then ! (wr && epochBlock a) else pl != 0 && ! (wr && mOnly a && pl != 2)))
  | .lampRam => (s, true)
  | .far | .none => (s, false)

/-- Every part is checked, the lower first: the first byte of the part that fails. -/
def partsOk (c : Who) (wr : Bool) (size : Nat) : List (Nat × Nat) → State → State × Option Nat
  | [], s => (s, none)
  | p :: ps, s =>
    let r := partOk c wr size p s
    if r.2 then partsOk c wr size ps r.1 else (r.1, some p.1)

/-- The ECC of every part that is read (R274, R332); the first meets `up` upsets. -/
def partsEcc (c : Who) : Nat → List (Nat × Nat) → State → State × Option Nat
  | _, [], s => (s, none)
  | up, p :: ps, s =>
    let r := match regionOf c p.1 with
      | .yard n => s.eccRead n p.1 p.2 up
      | .nv => s.eccRead 16 p.1 p.2 up
      | .ctx | .cache => (s, decide (up < 2))
      | _ => (s, true)
    if r.2 then partsEcc c 0 ps r.1 else (r.1, some p.1)

/-- The byte that processor `c` reads at `a`, registers apart. -/
def dataByte (c : Who) (a : Nat) (s : State) : Byte :=
  let ofWord := fun (w : Word) => BitVec.ofNat 8 (w.toNat / 256 ^ (a % 4))
  match regionOf c a with
  | .lampRam => Sparse.get (fun _ => 0) s.lram a
  | .yard _ | .nv => s.byteAt a
  | .ctx => ofWord (s.rd (a / 4 * 4))
  | .cache => ofWord (s.cacheView ((a - 0x20000000) / 4 * 4))
  | _ => 0

/-- `n` bytes at `a`, as a number. -/
def dataNum (c : Who) (a n : Nat) (s : State) : Nat := bytesNum ((List.range n).map (fun i => dataByte c (a + i) s))

/-- A loaded value (R273). -/
def extend (x : Ext) (v : Nat) : Word :=
  match x with
  | .word => BitVec.ofNat 32 v
  | .half => (BitVec.ofNat 16 v).signExtend 32
  | .halfU => BitVec.ofNat 32 (v % 65536)
  | .byte => (BitVec.ofNat 8 v).signExtend 32
  | .byteU => BitVec.ofNat 32 (v % 256)

/-- Bytes of a load. -/
def extSize : Ext → Nat
  | .word => 4
  | .half | .halfU => 2
  | .byte | .byteU => 1

/-- An enabled watchpoint matches a data access of a core (R484): kinds 1 read, 2 write, 3 both. -/
def watched (c : Who) (a : Nat) (rd wr : Bool) (s : State) : Bool :=
  c != .lamp && s.sc.watch.any (fun e =>
    ((rd && e.2.kind % 2 == 1) || (wr && e.2.kind / 2 == 1))
      && (BitVec.ofNat 32 a &&& BitVec.ofNat 32 e.2.mask) == (BitVec.ofNat 32 e.2.addr &&& BitVec.ofNat 32 e.2.mask))

/-! ### Held writes (R312–R314) -/

/-- Core writes go through the held-write buffer. -/
def holds (c : Who) (s : State) : Bool := c != .lamp && ! s.unhitched

/-- A held write goes to the field window. -/
def heldField (s : State) : Bool :=
  s.mem.held.any (fun h => match h with | .store _ a _ => inField a | .pmwr _ => false)

/-- A load at `a` stalls behind held writes. -/
def loadHolds (c : Who) (a : Nat) (s : State) : Bool :=
  holds c s && ((guardClass a && ! s.mem.held.isEmpty) || (inField a && ! guardClass a && heldField s))

/-- A store at `a` stalls behind held writes. -/
def storeHolds (c : Who) (a : Nat) (s : State) : Bool :=
  holds c s && ((guardClass a && decide (32 ≤ s.mem.held.length)) || (inField a && ! guardClass a && heldField s))

/-- A write enters the buffer. -/
def pushHeld (h : HeldWr) (s : State) : State := { s with mem := { s.mem with held := s.mem.held ++ [h] } }.hwShow

/-! ### Stores -/

/-- A store that clears the seal (R477). -/
def sealStore (a n : Nat) (s : State) : State :=
  let hit := fun (lo hi : Nat) => decide (a < hi ∧ lo < a + n)
  if hit 0x010D0000 0x010E0000 || hit s.sc.patchAt (s.sc.patchAt + s.sc.patchLen) then s.clearSeal else s

/-- A store of processor `c` that proceeds to its destination (R313). -/
def issueStore (c : Who) (a : Nat) (bs : List Byte) (s : State) : State :=
  let w : Word := BitVec.ofNat 32 (bytesNum bs)
  match regionOf c a with
  | .lampRam =>
    let k := s.lamp
    let hit : Bool := match k.resv with | some g => decide (a / 64 ≤ g ∧ g ≤ (a + bs.length - 1) / 64) | none => false
    { s with lram := storeBytes s.lram a bs, lamp := if hit then { k with resv := none } else k }
  | .yard _ => s.storeYard a bs
  | .nv => sealStore a bs.length (nvStore (some c) a bs s)
  | .setup =>
    if c = .lamp then writeField .lamp a w 0 s
    else if inField a then forwardWrite (masterOf c) a w s
    else writeControl (masterOf c) a w 0 s
  | _ => s

/-- The NV queue of the cores has room for a store (R337). -/
def nvRoom (a : Nat) (bs : List Byte) (s : State) : Bool :=
  decide (((nvStore (some .a) a bs s).mem.nvQ.filter (fun e => ! e.guard)).length ≤ 8)

/-- A checked near store: it stalls, is held, or proceeds. -/
def putStore (c : Who) (a : Nat) (bs : List Byte) (s : State) : FelOut :=
  if storeHolds c a s then .hold
  else if holds c s && guardClass a then .done (pushHeld (.store s.dtC a bs) s)
  else if regionOf c a = .nv ∧ ! nvRoom a bs s then .stall
  else .done (issueStore c a bs s)

/-! ### Far accesses (R238, R241, R274, R371) -/

/-- The byte offset in far memory of an address of the far window. -/
def farOff (a : Nat) (s : State) : Nat := s.fld A.LK_FARBASE 7 0 * 2 ^ 28 + (a - 0x10000000)

/-- A far access fails at once: the link is down, the offset lies beyond the device, or a write falls in the map area. -/
def farFails (wr : Bool) (a : Nat) (s : State) : Bool :=
  ! s.farUp || decide (s.farCap ≤ farOff a s) || (wr && s.inArea (farOff a s))

/-- Bytes of far memory. -/
def farByte (off : Nat) (s : State) : Byte :=
  BitVec.ofNat 8 ((Sparse.get (fun _ => 0) s.farMem (off / 4)).toNat / 256 ^ (off % 4))

def farNum (off n : Nat) (s : State) : Nat := bytesNum ((List.range n).map (fun i => farByte (off + i) s))

/-- One byte written to far memory. -/
def farPut (off : Nat) (b : Byte) (s : State) : State :=
  let sh := 8 * (off % 4)
  let w := putBits (Sparse.get (fun _ => 0) s.farMem (off / 4)) (sh + 7) sh b.toNat
  { s with farMem := Sparse.set (fun _ => 0) s.farMem (off / 4) w }

/-- Bytes written to far memory. -/
def farStore (off : Nat) : List Byte → State → State
  | [], s => s
  | b :: bs, s => farStore (off + 1) bs (farPut off b s)

/-! ### Loads, stores and atomics -/

/-- The effective address of the register + displacement forms (R236): base 15 names SP. -/
def eaRd (c : Who) (b : Nat) (x : Syl) (s : State) : Nat :=
  let k := s.getCore c
  ((if b = 15 then k.sp else k.reg b) + x.signExtend 32).toNat

/-- The effective address of the banked-direct forms (R236). -/
def eaDd (c : Who) (db : Nat) (x : Syl) (s : State) : Nat :=
  (Sparse.get (fun _ => 0) (s.getCore c).db db).toNat / 2 ^ 14 * 2 ^ 14 + x.toNat

/-- A near load or near atomic enters the load slot; TAS also sets Z. -/
def addLoad (c : Who) (rd : Nat) (v : Option Word) (s : State) : State :=
  let k := s.getCore c
  s.setCore c { k with loads := k.loads ++ [{ bank := k.bk, rd := rd, val := v }] }

/-- Processor `c` waits for a far access. -/
def farWait (c : Who) (w : Wait) (s : State) : FelOut := .await (s.setCore c { s.getCore c with wait := w, farAt := s.dtC })

/-- The checks that a near access meets before it acts (R299): vector and fault address. -/
def nearCheck (c : Who) (rd wr : Bool) (a n : Nat) (s : State) : State × Option (Nat × Word) :=
  let r := partsOk c wr n (accParts a n) s
  match r.2 with
  | some f => (r.1, some (7, BitVec.ofNat 32 f))
  | none => if watched c a rd wr r.1 then (r.1, some (14, 0)) else (r.1, none)

/-- The checks that a far access meets before it leaves. -/
def farCheck (c : Who) (rd wr : Bool) (a n : Nat) (s : State) : Option (Nat × Word) :=
  if a / 64 ≠ (a + n - 1) / 64 then some (6, BitVec.ofNat 32 a)
  else if farFails wr a s then some (12, BitVec.ofNat 32 a)
  else if watched c a rd wr s then some (14, 0)
  else none

/-- The vector of an uncorrectable error at `f`: of the map-cache view 12 (R226), else 9 (R274). -/
def eccVector (c : Who) (f : Nat) : Nat := if regionOf c f = .cache then 12 else 9

/-- A near load of `n` bytes at `a` that fault `f` refuses: of a split one the lower half's own error comes first (R240). -/
def loadFault (c : Who) (a n up : Nat) (f : Nat × Word) (s : State) : FelOut :=
  if f.1 ≠ 7 ∨ f.2 = BitVec.ofNat 32 a then .trap s f.1 f.2
  else
    let e := partsEcc c up ((accParts a n).take 1) s
    match e.2 with
    | some g => .trap e.1 (eccVector c g) (BitVec.ofNat 32 g)
    | none => .trap e.1 f.1 f.2

/-- A load (R273): `up` upsets are met in the first word that it reads. -/
def insLoad (c : Who) (x : Ext) (rd a up : Nat) (s : State) : FelOut :=
  let n := extSize x
  if regionOf c a = .far then
    match farCheck c true false a n s with
    | some f => .trap s f.1 f.2
    | none => farWait c (.farLoad 0 (s.getCore c).bk rd a x) s
  else
    let r := nearCheck c true false a n s
    match r.2 with
    | some f => loadFault c a n up f r.1
    | none =>
      if loadHolds c a r.1 then .hold
      else if regionOf c a = .setup then
        if inField a ∧ c ≠ .lamp then .done (addLoad c rd none (r.1.sendF (.regRead (masterOf c) a)))
        else
          let q := readReg (masterOf c) a r.1
          .done (addLoad c rd (some q.1) q.2)
      else
        let e := partsEcc c up (accParts a n) r.1
        match e.2 with
        | some f => .trap e.1 (eccVector c f) (BitVec.ofNat 32 f)
        | none => .done (addLoad c rd (some (extend x (dataNum c a n e.1))) e.1)

/-- A store (R273) of the low `n` bytes of wd. -/
def insStore (c : Who) (n rd a : Nat) (s : State) : FelOut :=
  let bs := numBytes n ((s.getCore c).reg rd).toNat
  if regionOf c a = .far then
    match farCheck c false true a n s with
    | some f => .trap s f.1 f.2
    | none => farWait c (.farStore a bs false) s
  else
    let r := nearCheck c false true a n s
    match r.2 with
    | some f => .trap r.1 f.1 f.2
    | none => putStore c a bs r.1

/-- Regions that an atomic instruction reaches (R276). -/
def atomicOk (c : Who) (a : Nat) : Bool :=
  match regionOf c a with
  | .yard _ | .lampRam | .far => true
  | _ => false

/-- LDRSV (R276). -/
def insLdrsv (c : Who) (rd a up : Nat) (s : State) : FelOut :=
  if a % 4 ≠ 0 then .trap s 6 (BitVec.ofNat 32 a)
  else if ! atomicOk c a then .trap s 7 (BitVec.ofNat 32 a)
  else if regionOf c a = .far then
    match farCheck c true false a 4 s with
    | some f => .trap s f.1 f.2
    | none => farWait c (.farLoad 1 (s.getCore c).bk rd a .word) s
  else
    match insLoad c .word rd a up s with
    | .done t => .done (t.setCore c { t.getCore c with resv := some (a / 64) })
    | o => o

/-- The reservation of processor `c` is cleared. -/
def dropResv (c : Who) (s : State) : State := s.setCore c { s.getCore c with resv := none }

/-- Z of processor `c`. -/
def putZ (c : Who) (z : Bool) (s : State) : State := s.setCore c ((s.getCore c).setStat 0 0 z.toNat)

/-- STCND (R276, R277): a fault clears the reservation as well. -/
def insStcnd (c : Who) (rd a : Nat) (s : State) : FelOut :=
  let k := s.getCore c
  let mine : Bool := k.resv == some (a / 64)
  let bs := numBytes 4 (k.reg rd).toNat
  if a % 4 ≠ 0 then .trap (dropResv c s) 6 (BitVec.ofNat 32 a)
  else if ! atomicOk c a then .trap (dropResv c s) 7 (BitVec.ofNat 32 a)
  else if regionOf c a = .far then
    match farCheck c false true a 4 s with
    | some f => .trap (dropResv c s) f.1 f.2
    | none => if mine then farWait c (.farStore a bs true) s else .done (putZ c false (dropResv c s))
  else
    let r := nearCheck c false true a 4 s
    match r.2 with
    | some f => .trap (dropResv c r.1) f.1 f.2
    | none =>
      let t := putZ c mine (dropResv c r.1)
      .done (if mine then issueStore c a bs t else t)

/-- TAS (R276). -/
def insTas (c : Who) (rd a up : Nat) (s : State) : FelOut :=
  if ! atomicOk c a then .trap s 7 (BitVec.ofNat 32 a)
  else if regionOf c a = .far then
    match farCheck c true true a 1 s with
    | some f => .trap s f.1 f.2
    | none => farWait c (.farLoad 2 (s.getCore c).bk rd a .byteU) s
  else
    let r := nearCheck c true true a 1 s
    match r.2 with
    | some f => .trap r.1 f.1 f.2
    | none =>
      let e := partsEcc c up [(a, 1)] r.1
      match e.2 with
      | some f => .trap e.1 9 (BitVec.ofNat 32 f)
      | none =>
        let old := dataNum c a 1 e.1
        let t := addLoad c rd (some (BitVec.ofNat 32 old)) e.1
        .done (putZ c (old == 0) (issueStore c a [0xFF] t))

/-- Opcodes 0x28–0x2F and 0x33–0x35. -/
def insRd (op : Rd) (c : Who) (d b : Nat) (x : Syl) (up : Nat) (s : State) : FelOut :=
  let a := eaRd c b x s
  match op with
  | .ldw => insLoad c .word d a up s
  | .ldh => insLoad c .half d a up s
  | .ldhu => insLoad c .halfU d a up s
  | .ldb => insLoad c .byte d a up s
  | .ldbu => insLoad c .byteU d a up s
  | .stw => insStore c 4 d a s
  | .sth => insStore c 2 d a s
  | .stb => insStore c 1 d a s
  | .ldrsv => insLdrsv c d a up s
  | .stcnd => insStcnd c d a s
  | .tas => insTas c d a up s

/-- Opcodes 0x30–0x32; a size that R254 calls illegal takes vector 4. -/
def insDd (op : Dd) (c : Who) (d size db : Nat) (x : Syl) (up : Nat) (s : State) : FelOut :=
  let a := eaDd c db x s
  match op, size with
  | .ldd, 0 => insLoad c .word d a up s
  | .ldd, 1 => insLoad c .half d a up s
  | .ldd, 2 => insLoad c .byte d a up s
  | .lddu, 1 => insLoad c .halfU d a up s
  | .lddu, 2 => insLoad c .byteU d a up s
  | .std, 0 => insStore c 4 d a s
  | .std, 1 => insStore c 2 d a s
  | .std, 2 => insStore c 1 d a s
  | _, _ => .trap s 4 0

/-! ### Commands: loads, stores and atomics -/

def execLdw (e : Exe) (d b : Fin 16) (x : Syl) (up : Fin 3) (s : State) : Out := felStep e 2 false (insRd .ldw e.who d b x up) s
def execLdh (e : Exe) (d b : Fin 16) (x : Syl) (up : Fin 3) (s : State) : Out := felStep e 2 false (insRd .ldh e.who d b x up) s
def execLdhu (e : Exe) (d b : Fin 16) (x : Syl) (up : Fin 3) (s : State) : Out := felStep e 2 false (insRd .ldhu e.who d b x up) s
def execLdb (e : Exe) (d b : Fin 16) (x : Syl) (up : Fin 3) (s : State) : Out := felStep e 2 false (insRd .ldb e.who d b x up) s
def execLdbu (e : Exe) (d b : Fin 16) (x : Syl) (up : Fin 3) (s : State) : Out := felStep e 2 false (insRd .ldbu e.who d b x up) s
def execStw (e : Exe) (d b : Fin 16) (x : Syl) (s : State) : Out := felStep e 2 false (insRd .stw e.who d b x 0) s
def execSth (e : Exe) (d b : Fin 16) (x : Syl) (s : State) : Out := felStep e 2 false (insRd .sth e.who d b x 0) s
def execStb (e : Exe) (d b : Fin 16) (x : Syl) (s : State) : Out := felStep e 2 false (insRd .stb e.who d b x 0) s
def execLdd (e : Exe) (d : Fin 16) (size db : Fin 4) (x : Syl) (up : Fin 3) (s : State) : Out :=
  felStep e 2 false (insDd .ldd e.who d size db x up) s
def execLddu (e : Exe) (d : Fin 16) (size db : Fin 4) (x : Syl) (up : Fin 3) (s : State) : Out :=
  felStep e 2 false (insDd .lddu e.who d size db x up) s
def execStd (e : Exe) (d : Fin 16) (size db : Fin 4) (x : Syl) (s : State) : Out :=
  felStep e 2 false (insDd .std e.who d size db x 0) s
def execLdrsv (e : Exe) (d b : Fin 16) (x : Syl) (up : Fin 3) (s : State) : Out :=
  felStep e 2 false (insRd .ldrsv e.who d b x up) s
def execStcnd (e : Exe) (d b : Fin 16) (x : Syl) (s : State) : Out := felStep e 2 false (insRd .stcnd e.who d b x 0) s
def execTas (e : Exe) (d b : Fin 16) (x : Syl) (up : Fin 3) (s : State) : Out := felStep e 2 false (insRd .tas e.who d b x up) s

end Sys2Proof.Machine
end

