-- ==== Sys2Proof/Machine/Debug.lean ====
section
/-!
DEFINITION. Authenticated debug over the service port (R482–R485): challenge and token, and the operations of a session.
-/
namespace Sys2Proof.Machine

namespace State

/-- A debug frame to `dst` (R374, R482): operation, byte 5 and what follows from byte 8. -/
def dbgFrame (s : State) (dst : BitVec 48) (op b5 : Nat) (data : List Byte) : State :=
  let hd := numBytes 1 2 ++ numBytes 1 1 ++ numBytes 2 s.host.svcSeq ++ numBytes 1 op ++ numBytes 1 b5 ++ numBytes 2 0
  ({ s with host := { s.host with svcSeq := (s.host.svcSeq + 1) % 65536 } }).emit (.frame dst.toNat (hd ++ data))

/-- RESULT (R482): 0 OK, 1 BADTOKEN, 2 DISABLED, 3 NOSESSION, 4 DENIED, 5 FAULT. -/
def dbgResult (s : State) (dst : BitVec 48) (status : Nat) (data : List Byte := []) : State := s.dbgFrame dst 4 status data

/-- Debug is refused: by the OTP, or by the manifest (R483). -/
def dbgOff (s : State) : Bool := Config.otpDebugOff || ! s.sc.flags.testBit 2

/-- The SHA-256 of the identity public key. -/
def idHash : List Byte := sha ((List.range 60).map Config.idPub)

/-- The control die handles frames: it is powered and clocked (R373, R432). -/
def dbgAwake (s : State) : Bool := decide (s.rung < 2)

/-! ### Tokens (R483) -/

/-- The bytes of a challenge nonce. -/
def nonceBytes (n : BitVec 128) : List Byte := (List.range 16).map (fun i => BitVec.ofNat 8 (n.toNat / 256 ^ i))

/-- The number that bytes `at_ … at_+n-1` of a token spell. -/
def tokNum (t : List Byte) (at_ n : Nat) : Nat := bytesNum ((t.drop at_).take n)

/-- A token opens a session (R483): layout, identity, nonce, reserved fields, key and signature. -/
def tokenOk (s : State) (nonce : Option (BitVec 128 × Nat)) (t : List Byte) : Bool :=
  let fresh : Bool := match nonce with
    | some (n, at_) => decide (s.dtC ≤ at_ + 10000000000) && (t.drop 0x24).take 16 == nonceBytes n
    | none => false
  let ms := tokNum t 0x38 4
  let keyGood : Bool := match keyOf ((t.drop 0x40).take 64) with
    | some k => s.slotUsable s.sc.dbgSlot && keyMatches s.sc.dbgSlot k && hssOk k (t.take 128) (t.drop 128)
    | none => false
  decide (128 ≤ t.length) && tokNum t 0 4 == 0x44424731 && (t.drop 4).take 32 == idHash && fresh
    && decide (tokNum t 0x34 4 < 16) && decide (1 ≤ ms ∧ ms ≤ 3600000) && tokNum t 0x3C 4 == 0 && keyGood

/-- A BADTOKEN answer (R483, R485): the eighth within 1 s is a tamper event and refuses CHAL for 60 s. -/
def badToken (s : State) (dst : BitVec 48) : State :=
  let l := s.dtC :: s.sc.badAt.filter (fun t => decide (s.dtC < t + 1000000000))
  let s1 : State := { s with sc := { s.sc with badAt := l } }
  let s2 : State := if 8 ≤ l.length then
      ({ s1 with sc := { s1.sc with badAt := [], lockUntil := some (s.dtC + 60000000000) } } : State).tamper 4
    else s1
  s2.dbgResult dst 1

/-- A session opens: SEALED clears (R477), and the session is counted (R476). -/
def openSession (s : State) (perm ms : Nat) : State :=
  let s1 := s.endSession.clearSeal
  let s2 : State := { s1 with sc := { s1.sc with ends := some (s1.dtC + ms * 1000000), sessions := s1.sc.sessions + 1, watch := [] } }
  ((s2.setFld A.SC_DBGSTAT 31 28 perm).scShow).scCause 1

/-- The operation of a session that needs permission `p` is answered without being done: NOSESSION or DENIED. -/
def dbgRefuse (s : State) (p : Nat) : Option Nat :=
  if s.sc.ends.isNone then some 3 else if s.flag A.SC_DBGSTAT (28 + p) then none else some 4

/-! ### Accesses (R484) -/

/-- A byte as a debug READ returns it: the security store reads 0. -/
def dbgByte (s : State) (a : Nat) : Byte :=
  if 0x010F4000 ≤ a ∧ a < 0x01100000 then 0 else dataByte .a a s

/-- A word read as core A makes it at M, outside the field window, without a check of yard ownership. -/
def dbgRead (s : State) (a : Nat) : State × Option Word :=
  let word := fun (t : State) => (BitVec.ofNat 32 (bytesNum ((List.range 4).map (fun i => t.dbgByte (a + i)))) : Word)
  match regionOf .a a with
  | .far =>
    if a / 64 ≠ (a + 3) / 64 ∨ farFails false a s then (s, none)
    else if Sparse.get (fun _ => false) s.farPoison (farOff a s / 64) then (s.raiseC 0x82 0xFF, none)
    else (s, some (BitVec.ofNat 32 (farNum (farOff a s) 4 s)))
  | .setup =>
    if a % 4 ≠ 0 then (s, none)
    else
      let r := readReg .debug a s
      (r.2, some r.1)
  | _ =>
    let ps := accParts a 4
    let known := ps.all (fun p => match regionOf .a p.1 with | .yard _ | .nv | .ctx | .cache => true | _ => false)
    if ! known then (s, none)
    else
      let e := partsEcc .a 0 ps s
      (e.1, if e.2.isSome then none else some (word e.1))

/-- Blocks that a debug WRITE may not reach (R484): PU, GP, CP/BL, FG, CPL, GD and SC. -/
def dbgDenied (a : Nat) : Bool := decide (a / 0x10000 ∈ [0x820, 0x821, 0x823, 0x826, 0x812, 0x801, 0x80F])

/-- A part of a write as core A makes it at M, under ownership. -/
def dbgPartOk (s : State) (p : Nat × Nat) : State × Bool :=
  match regionOf .a p.1 with
  | .yard n =>
    let r := s.ydEnter 0 p.1
    if r.2 then r else (r.1.nonOwner 0 n true p.1, false)
  | .nv => (s, decide (p.1 < 0x010E0000) || (decide (0x010F0000 ≤ p.1 ∧ p.1 < 0x010F4000) && s.flag A.YD_NVCTL 31))
  | .setup => (s, p.1 % 4 == 0 && p.2 == 4)
  | _ => (s, false)

/-- A word write as core A makes it at M, outside the field window. -/
def dbgWrite (s : State) (a : Nat) (v : Word) : State × Bool :=
  if regionOf .a a = .far then
    if a / 64 ≠ (a + 3) / 64 ∨ farFails true a s then (s, false)
    else ((farStore (farOff a s) (wordBytes v) s).touch a 4, true)
  else
    let r := (accParts a 4).foldl (fun (acc : State × Bool) p => if acc.2 then acc.1.dbgPartOk p else acc) (s, true)
    if ! r.2 then (r.1, false)
    else (issueStore .a a (wordBytes v) r.1, true)

/-- The accesses of an operation run one after another, each once the one before it has completed. One of the field window
is forwarded over the link (R36, R39) and waits there; the operation is answered when the last has completed, or with
FAULT. What waits is the second part of the answer. -/
def dbgAccesses (dst : BitVec 48) : List (Nat × Option Word) → List Byte → State → State × Option DbgOp
  | [], data, s => (s.dbgResult dst 0 data, none)
  | (a, w) :: l, data, s =>
    if inField a ∧ a % 4 = 0 then
      (match w with
        | some v => forwardWrite .debug a v s
        | none => s.sendF (.regRead .debug a), some { dst := dst, todo := (a, w) :: l, data := data })
    else match w with
      | some v =>
        let r := s.dbgWrite a v
        if r.2 then dbgAccesses dst l data r.1 else (r.1.dbgResult dst 5, none)
      | none =>
        match s.dbgRead a with
        | (t, some v) => dbgAccesses dst l (data ++ wordBytes v) t
        | (t, none) => (t.dbgResult dst 5, none)

/-- Operations that have been asked for run in their order, until one waits. -/
def dbgRun : List DbgOp → State → State
  | [], s => { s with sc := { s.sc with dbgQ := [] } }
  | op :: l, s =>
    match dbgAccesses op.dst op.todo op.data s with
    | (t, none) => dbgRun l t
    | (t, some p) => { t with sc := { t.sc with dbgQ := p :: l } }

/-- An operation begins, behind one that waits. -/
def dbgStart (s : State) (op : DbgOp) : State :=
  if s.sc.dbgQ.isEmpty then dbgRun [op] s else { s with sc := { s.sc with dbgQ := s.sc.dbgQ ++ [op] } }

/-- The access of the field window for which the session waits has completed; a read brings `v`. -/
def dbgResume (v : Option Word) (s : State) : State :=
  match s.sc.dbgQ with
  | [] => s
  | op :: l => dbgRun ({ op with todo := op.todo.tail, data := op.data ++ (match v with | some w => wordBytes w | none => []) } :: l) s

end State

/-! ### Commands -/

/-- CHAL_REQ (R482, R485): a challenge, unless debug is off or locked out. -/
def execChalReq (src : BitVec 48) (s : State) : Out :=
  if ! s.dbgAwake then .next s
  else if s.dbgOff then .next (s.dbgResult src 2)
  else if s.sc.lockUntil.isSome then .next (s.dbgResult src 4)
  else
    let a := s.fresh
    let b := a.2.fresh
    let n : BitVec 128 := b.1 ++ a.1
    let s1 : State := { b.2 with sc := { b.2.sc with nonce := some (n, s.dtC), frags := [] } }
    .next (s1.dbgFrame src 2 0 (State.nonceBytes n ++ State.idHash))

/-- TOKEN (R483): fragment `i` of `n`; the last one to arrive completes the token, which consumes the nonce. -/
def execToken (src : BitVec 48) (i n : BitVec 8) (bs : List Byte) (s : State) : Out :=
  let spent := fun (t : State) => ({ t with sc := { t.sc with nonce := none, frags := [] } } : State)
  if ! s.dbgAwake then .next s
  else if s.dbgOff then .next ((spent s).dbgResult src 2)
  else if n = 0 ∨ 16 < n.toNat ∨ n ≤ i ∨ 1024 < bs.length then .next ((spent s).badToken src)
  else
    let frags := (i.toNat, bs) :: s.sc.frags.filter (fun f => f.1 != i.toNat)
    if ! (List.range n.toNat).all (fun j => frags.any (fun f => f.1 == j)) then
      .next ({ s with sc := { s.sc with frags := frags } }.dbgResult src 0)
    else
      let t := (List.range n.toNat).flatMap (fun j => match frags.find? (fun f => f.1 == j) with | some f => f.2 | none => [])
      if s.tokenOk s.sc.nonce t then
        .next (((spent s).openSession (State.tokNum t 0x34 4) (State.tokNum t 0x38 4)).dbgResult src 0)
      else .next ((spent s).badToken src)

/-- READ (R484): `n` words at `a`. -/
def execRead (src : BitVec 48) (a : BitVec 32) (n : BitVec 8) (s : State) : Out :=
  if ! s.dbgAwake then .next s
  else match s.dbgRefuse 0 with
  | some st => .next (s.dbgResult src st)
  | none =>
    if n = 0 ∨ 64 < n.toNat then .next (s.dbgResult src 5)
    else .next (s.dbgStart { dst := src, todo := (List.range n.toNat).map (fun k => ((a.toNat + 4 * k) % 2 ^ 32, none)) })

/-- WRITE (R484): words at `a`; nothing is written when one of them lies in a block that it may not reach. -/
def execWrite (src : BitVec 48) (a : BitVec 32) (ws : List Word) (s : State) : Out :=
  if ! s.dbgAwake then .next s
  else match s.dbgRefuse 1 with
  | some st => .next (s.dbgResult src st)
  | none =>
    if ws = [] ∨ 64 < ws.length then .next (s.dbgResult src 5)
    else if (List.range ws.length).any (fun k => State.dbgDenied ((a.toNat + 4 * k) % 2 ^ 32)) then .next (s.dbgResult src 4)
    else
      .next (s.dbgStart { dst := src, todo := ((List.range ws.length).zip ws).map (fun p => ((a.toNat + 4 * p.1) % 2 ^ 32, some p.2)) })

/-- HALT (R484): the cores stop at their next interrupt point, or resume. -/
def execHalt (src : BitVec 48) (on : Bool) (s : State) : Out :=
  if ! s.dbgAwake then .next s
  else match s.dbgRefuse 2 with
  | some st => .next (s.dbgResult src st)
  | none =>
    let f := fun (k : CoreSt) =>
      if on then (if k.dbgHalt then k else { k with dbgHalt := true, haltAt := s.dtC }) else State.unhalt k s.dtC
    .next ({ s with coreA := f s.coreA, coreB := f s.coreB }.dbgResult src 0)

/-- WATCH (R484): watchpoint `i` is set, or cleared with kind 0. -/
def execWatch (src : BitVec 48) (i kind : BitVec 8) (a mask : BitVec 32) (s : State) : Out :=
  if ! s.dbgAwake then .next s
  else match s.dbgRefuse 3 with
  | some st => .next (s.dbgResult src st)
  | none =>
    if 4 ≤ i.toNat ∨ 4 ≤ kind.toNat then .next (s.dbgResult src 5)
    else
      let w : Watch := if kind = 0 then {} else { kind := kind.toNat, addr := a.toNat, mask := mask.toNat }
      .next ({ s with sc := { s.sc with watch := Sparse.set (fun _ => {}) s.sc.watch i.toNat w } }.dbgResult src 0)

/-- LOCK (R484): the session ends. -/
def execLock (src : BitVec 48) (s : State) : Out :=
  if ! s.dbgAwake then .next s
  else if s.sc.ends.isNone then .next (s.dbgResult src 3)
  else .next (s.endSession.dbgResult src 0)

/-- SESSION_EXPIRY (R484). -/
def execSessionExpiry (s : State) : Out :=
  match s.sc.ends with
  | some e => if e ≤ s.dtC then .next s.endSession else .next s
  | none => .next s

/-- CHAL_LOCKOUT_END (R485). -/
def execChalLockoutEnd (s : State) : Out :=
  match s.sc.lockUntil with
  | some t => if t ≤ s.dtC then .next { s with sc := { s.sc with lockUntil := none } } else .next s
  | none => .next s

end Sys2Proof.Machine
end

