-- ==== Sys2Proof/Machine/Flags.lean ====
section
/-!
DEFINITION. Flag computations and results of the arithmetic, logic, shift, multiply and divide instructions (R261–R272).
-/
namespace Sys2Proof.Machine

/-- A result with its carry (none: C unchanged) and overflow (none: V unchanged). -/
structure AluRes where
  r : Word
  c : Option Bool := none
  v : Option Bool := none

/-- `a + b + cin` (R264): C the carry out of bit 31, V when the signed result does not fit. -/
def addRes (a b : Word) (cin : Bool) : AluRes :=
  let u := a.toNat + b.toNat + cin.toNat
  let i := a.toInt + b.toInt + (cin.toNat : Int)
  ⟨BitVec.ofNat 32 u, some (decide (2 ^ 32 ≤ u)), some (decide (i < -2 ^ 31 ∨ 2 ^ 31 ≤ i))⟩

/-- `a − b − (1 − cin)` (R264): C is 1 when no borrow occurs. -/
def subRes (a b : Word) (cin : Bool) : AluRes :=
  let bin := (! cin).toNat
  let i := a.toInt - b.toInt - (bin : Int)
  ⟨wordOf i, some (decide (b.toNat + bin ≤ a.toNat)), some (decide (i < -2 ^ 31 ∨ 2 ^ 31 ≤ i))⟩

/-- Shifts (R266): 0 SHL, 1 SHR, 2 ASR, 3 ROR, by an amount 0–63. -/
def shiftRes (kind n : Nat) (a : Word) : AluRes :=
  let neg := bitOf a 31
  if n = 0 then ⟨a, none, none⟩
  else
    match kind with
    | 0 => if n < 32 then ⟨a <<< n, some (bitOf a (32 - n)), none⟩
      else ⟨0, some (n == 32 && bitOf a 0), none⟩
    | 1 => if n < 32 then ⟨a >>> n, some (bitOf a (n - 1)), none⟩
      else ⟨0, some (n == 32 && bitOf a 31), none⟩
    | 2 => if n < 32 then ⟨a.sshiftRight n, some (bitOf a (n - 1)), none⟩
      else ⟨if neg then 0xFFFFFFFF else 0, some neg, none⟩
    | _ =>
      let r := a.rotateRight (n % 32)
      ⟨r, some (bitOf r 31), none⟩

/-- Count of leading zero bits, 0–32. -/
def clz32 (a : Word) : Nat := 32 - (if a = 0 then 0 else Nat.log2 a.toNat + 1)

/-- Bytes reversed. -/
def bswap32 (a : Word) : Word :=
  BitVec.ofNat 32 (bitsOf a 7 0 * 2 ^ 24 + bitsOf a 15 8 * 2 ^ 16 + bitsOf a 23 16 * 2 ^ 8 + bitsOf a 31 24)

/-- UNARY (R267). -/
def unaryRes (op : U1) (a : Word) : AluRes :=
  match op with
  | .neg => subRes 0 a true
  | .not_ => ⟨~~~ a, none, none⟩
  | .abs => ⟨if bitOf a 31 then 0 - a else a, none, some (a == 0x80000000)⟩
  | .sexb => ⟨wordOf (sxInt 8 a.toNat), none, none⟩
  | .sexh => ⟨wordOf (sxInt 16 a.toNat), none, none⟩
  | .zexb => ⟨a &&& 0xFF, none, none⟩
  | .zexh => ⟨a &&& 0xFFFF, none, none⟩
  | .clz => ⟨BitVec.ofNat 32 (clz32 a), none, none⟩
  | .bswap => ⟨bswap32 a, none, none⟩

/-- MUL (R268). -/
def mulRes (a b : Word) : AluRes :=
  let p := a.toInt * b.toInt
  ⟨wordOf p, none, some (decide (p < -2 ^ 31 ∨ 2 ^ 31 ≤ p))⟩

/-- MULHS and MULHU (R268). -/
def mulhRes (signed : Bool) (a b : Word) : AluRes :=
  let p : Int := if signed then a.toInt * b.toInt else (a.toNat * b.toNat : Nat)
  ⟨wordOf (p / 2 ^ 32), none, some false⟩

/-- MULQ (R268): Q31, rounding half toward +∞, saturating. -/
def mulqRes (a b : Word) : AluRes :=
  let r := (a.toInt * b.toInt + 2 ^ 30) / 2 ^ 31
  if 0x7FFFFFFF < r then ⟨0x7FFFFFFF, none, some true⟩ else ⟨wordOf r, none, some false⟩

/-- DIV and DIVU (R270, R271): quotient, remainder, V. -/
def divRes (signed : Bool) (a b : Word) : Word × Word × Bool :=
  if b = 0 then
    (if ! signed then 0xFFFFFFFF else if bitOf a 31 then 0x80000000 else 0x7FFFFFFF, a, false)
  else if ! signed then (BitVec.ofNat 32 (a.toNat / b.toNat), BitVec.ofNat 32 (a.toNat % b.toNat), false)
  else if a = 0x80000000 ∧ b = 0xFFFFFFFF then (0x80000000, 0, true)
  else (wordOf (Int.tdiv a.toInt b.toInt), wordOf (Int.tmod a.toInt b.toInt), false)

/-- MAC and MSU (R269): the exact sum, its overflow, and what the accumulator takes. -/
def macRes (acc : BitVec 64) (a b : Word) (sub sat : Bool) : BitVec 64 × Bool :=
  let p := a.toInt * b.toInt
  let x := acc.toInt + (if sub then - p else p)
  let v : Bool := decide (x < -2 ^ 63 ∨ 2 ^ 63 ≤ x)
  (if v ∧ sat then (if x < 0 then 0x8000000000000000 else 0x7FFFFFFFFFFFFFFF) else BitVec.ofInt 64 x, v)

/-- Z and N of a result, and C and V where it has them. -/
def CoreSt.setAlu (k : CoreSt) (x : AluRes) : CoreSt :=
  let k1 := (k.setStat 0 0 (x.r == 0).toNat).setStat 1 1 (bitOf x.r 31).toNat
  let k2 := match x.c with | some b => k1.setStat 2 2 b.toNat | none => k1
  match x.v with | some b => k2.setStat 3 3 b.toNat | none => k2

/-- An instruction with flags; `d` the register written, if any. With `traps`, V = 1 takes vector 11 under OVE, and nothing
is written (R272). -/
def aluOut (c : Who) (d : Option Nat) (traps : Bool) (x : AluRes) (s : State) : FelOut :=
  let k := s.getCore c
  if traps ∧ x.v = some true ∧ bitOf k.stat 9 then .trap s 11 0
  else
    let k1 := k.setAlu x
    .done (s.setCore c (match d with | some n => k1.setReg n x.r | none => k1))

/-- MAC0, MAC1, MSU0, MSU1 (R269): `one` the accumulator A1. -/
def macOut (c : Who) (one sub : Bool) (d w : Nat) (s : State) : FelOut :=
  let k := s.getCore c
  let r := macRes (if one then k.a1 else k.a0) (k.reg d) (k.reg w) sub (bitOf k.stat (if one then 6 else 5))
  if r.2 ∧ bitOf k.stat 9 then .trap s 11 0
  else
    let k1 : CoreSt := if one then { k with a1 := r.1 } else { k with a0 := r.1 }
    .done (s.setCore c (((k1.setStat 0 0 (r.1 == 0).toNat).setStat 1 1 (r.1.getLsbD 63).toNat).setStat 3 3 r.2.toNat))

/-- DIV and DIVU (R257, R270–R272). -/
def divOut (c : Who) (signed : Bool) (d w : Nat) (s : State) : FelOut :=
  let k := s.getCore c
  let b := k.reg w
  let r := divRes signed (k.reg d) b
  if d % 2 = 1 then .trap s 4 0
  else if b = 0 ∧ bitOf k.stat 8 then .trap s 10 0
  else if r.2.2 ∧ bitOf k.stat 9 then .trap s 11 0
  else
    let k1 := (k.setAlu ⟨r.1, none, some r.2.2⟩).setStat 4 4 (b == 0).toNat
    .done (s.setCore c ((k1.setReg d r.1).setReg (d + 1) r.2.1))

end Sys2Proof.Machine
end

