-- ==== Sys2Proof/Machine/FelAlu.lean ====
section
/-!
DEFINITION. Moves, arithmetic, logic, shifts, multiply, accumulate and divide (R264–R272).
-/
namespace Sys2Proof.Machine

/-- Opcodes 0x01–0x0F and 0x11–0x1A. -/
def insR2 (op : R2) (c : Who) (d w : Nat) (s : State) : FelOut :=
  let k := s.getCore c
  let a := k.reg d
  let b := k.reg w
  let cy := bitOf k.stat 2
  let n := bitsOf b 5 0
  match op with
  | .mov => onCore c (fun k => k.setReg d b) s
  | .add => aluOut c (some d) true (addRes a b false) s
  | .adc => aluOut c (some d) true (addRes a b cy) s
  | .sub => aluOut c (some d) true (subRes a b true) s
  | .sbc => aluOut c (some d) true (subRes a b cy) s
  | .cmp => aluOut c none false (subRes a b true) s
  | .and_ => aluOut c (some d) false ⟨a &&& b, none, none⟩ s
  | .or_ => aluOut c (some d) false ⟨a ||| b, none, none⟩ s
  | .xor_ => aluOut c (some d) false ⟨a ^^^ b, none, none⟩ s
  | .andn => aluOut c (some d) false ⟨a &&& ~~~ b, none, none⟩ s
  | .tst => aluOut c none false ⟨a &&& b, none, none⟩ s
  | .shl => aluOut c (some d) false (shiftRes 0 n a) s
  | .shr => aluOut c (some d) false (shiftRes 1 n a) s
  | .asr => aluOut c (some d) false (shiftRes 2 n a) s
  | .ror => aluOut c (some d) false (shiftRes 3 n a) s
  | .mul => aluOut c (some d) true (mulRes a b) s
  | .mulhs => aluOut c (some d) false (mulhRes true a b) s
  | .mulhu => aluOut c (some d) false (mulhRes false a b) s
  | .mulq => aluOut c (some d) true (mulqRes a b) s
  | .div => divOut c true d w s
  | .divu => divOut c false d w s
  | .mac0 => macOut c false false d w s
  | .mac1 => macOut c true false d w s
  | .msu0 => macOut c false true d w s
  | .msu1 => macOut c true true d w s
  | .mfs | .mts | .pmwr => .trap s 4 0

/-- UNARY (R267): NEG and ABS may take vector 11. -/
def insU1 (op : U1) (c : Who) (d : Nat) (s : State) : FelOut :=
  aluOut c (some d) true (unaryRes op ((s.getCore c).reg d)) s

/-- MOVI (R264). -/
def insMovi (c : Who) (d : Nat) (v : BitVec 18) (s : State) : FelOut := onCore c (fun k => k.setReg d (v.signExtend 32)) s

/-- MOVSH (R264). -/
def insMovsh (c : Who) (d : Nat) (x : Syl) (s : State) : FelOut :=
  onCore c (fun k => k.setReg d ((k.reg d <<< 14) ||| x.setWidth 32)) s

/-- ADDI, ANDI, ORI, XORI (R264, R265). -/
def insIm (op : Im) (c : Who) (d w : Nat) (x : Syl) (s : State) : FelOut :=
  let b := (s.getCore c).reg w
  let z : Word := x.setWidth 32
  match op with
  | .addi => aluOut c (some d) true (addRes b (x.signExtend 32) false) s
  | .andi => aluOut c (some d) false ⟨b &&& z, none, none⟩ s
  | .ori => aluOut c (some d) false ⟨b ||| z, none, none⟩ s
  | .xori => aluOut c (some d) false ⟨b ^^^ z, none, none⟩ s

/-- CMPI (R264). -/
def insCmpi (c : Who) (d : Nat) (x : Syl) (s : State) : FelOut :=
  aluOut c none false (subRes ((s.getCore c).reg d) (x.signExtend 32) true) s

/-- SHI (R266). -/
def insShi (c : Who) (d w kind amt : Nat) (s : State) : FelOut :=
  aluOut c (some d) false (shiftRes kind amt ((s.getCore c).reg w)) s

/-! ### Commands -/

def execMov (e : Exe) (d w : Fin 16) (s : State) : Out := felStep e 1 false (insR2 .mov e.who d w) s
def execMovi (e : Exe) (d : Fin 16) (v : BitVec 18) (s : State) : Out := felStep e 2 false (insMovi e.who d v) s
def execMovsh (e : Exe) (d : Fin 16) (x : Syl) (s : State) : Out := felStep e 2 false (insMovsh e.who d x) s
def execAdd (e : Exe) (d w : Fin 16) (s : State) : Out := felStep e 1 false (insR2 .add e.who d w) s
def execAdc (e : Exe) (d w : Fin 16) (s : State) : Out := felStep e 1 false (insR2 .adc e.who d w) s
def execSub (e : Exe) (d w : Fin 16) (s : State) : Out := felStep e 1 false (insR2 .sub e.who d w) s
def execSbc (e : Exe) (d w : Fin 16) (s : State) : Out := felStep e 1 false (insR2 .sbc e.who d w) s
def execCmp (e : Exe) (d w : Fin 16) (s : State) : Out := felStep e 1 false (insR2 .cmp e.who d w) s
def execAddi (e : Exe) (d w : Fin 16) (x : Syl) (s : State) : Out := felStep e 2 false (insIm .addi e.who d w x) s
def execCmpi (e : Exe) (d : Fin 16) (x : Syl) (s : State) : Out := felStep e 2 false (insCmpi e.who d x) s
def execAnd (e : Exe) (d w : Fin 16) (s : State) : Out := felStep e 1 false (insR2 .and_ e.who d w) s
def execOr (e : Exe) (d w : Fin 16) (s : State) : Out := felStep e 1 false (insR2 .or_ e.who d w) s
def execXor (e : Exe) (d w : Fin 16) (s : State) : Out := felStep e 1 false (insR2 .xor_ e.who d w) s
def execAndn (e : Exe) (d w : Fin 16) (s : State) : Out := felStep e 1 false (insR2 .andn e.who d w) s
def execTst (e : Exe) (d w : Fin 16) (s : State) : Out := felStep e 1 false (insR2 .tst e.who d w) s
def execAndi (e : Exe) (d w : Fin 16) (x : Syl) (s : State) : Out := felStep e 2 false (insIm .andi e.who d w x) s
def execOri (e : Exe) (d w : Fin 16) (x : Syl) (s : State) : Out := felStep e 2 false (insIm .ori e.who d w x) s
def execXori (e : Exe) (d w : Fin 16) (x : Syl) (s : State) : Out := felStep e 2 false (insIm .xori e.who d w x) s
def execShl (e : Exe) (d w : Fin 16) (s : State) : Out := felStep e 1 false (insR2 .shl e.who d w) s
def execShr (e : Exe) (d w : Fin 16) (s : State) : Out := felStep e 1 false (insR2 .shr e.who d w) s
def execAsr (e : Exe) (d w : Fin 16) (s : State) : Out := felStep e 1 false (insR2 .asr e.who d w) s
def execRor (e : Exe) (d w : Fin 16) (s : State) : Out := felStep e 1 false (insR2 .ror e.who d w) s
def execShi (e : Exe) (d w : Fin 16) (kind : Fin 4) (amt : Fin 64) (s : State) : Out :=
  felStep e 2 false (insShi e.who d w kind amt) s
def execNeg (e : Exe) (d : Fin 16) (s : State) : Out := felStep e 1 false (insU1 .neg e.who d) s
def execNot (e : Exe) (d : Fin 16) (s : State) : Out := felStep e 1 false (insU1 .not_ e.who d) s
def execAbs (e : Exe) (d : Fin 16) (s : State) : Out := felStep e 1 false (insU1 .abs e.who d) s
def execSexb (e : Exe) (d : Fin 16) (s : State) : Out := felStep e 1 false (insU1 .sexb e.who d) s
def execSexh (e : Exe) (d : Fin 16) (s : State) : Out := felStep e 1 false (insU1 .sexh e.who d) s
def execZexb (e : Exe) (d : Fin 16) (s : State) : Out := felStep e 1 false (insU1 .zexb e.who d) s
def execZexh (e : Exe) (d : Fin 16) (s : State) : Out := felStep e 1 false (insU1 .zexh e.who d) s
def execClz (e : Exe) (d : Fin 16) (s : State) : Out := felStep e 1 false (insU1 .clz e.who d) s
def execBswap (e : Exe) (d : Fin 16) (s : State) : Out := felStep e 1 false (insU1 .bswap e.who d) s
def execMul (e : Exe) (d w : Fin 16) (s : State) : Out := felStep e 1 true (insR2 .mul e.who d w) s
def execMulhs (e : Exe) (d w : Fin 16) (s : State) : Out := felStep e 1 true (insR2 .mulhs e.who d w) s
def execMulhu (e : Exe) (d w : Fin 16) (s : State) : Out := felStep e 1 true (insR2 .mulhu e.who d w) s
def execMulq (e : Exe) (d w : Fin 16) (s : State) : Out := felStep e 1 true (insR2 .mulq e.who d w) s
def execMac0 (e : Exe) (d w : Fin 16) (s : State) : Out := felStep e 1 true (insR2 .mac0 e.who d w) s
def execMac1 (e : Exe) (d w : Fin 16) (s : State) : Out := felStep e 1 true (insR2 .mac1 e.who d w) s
def execMsu0 (e : Exe) (d w : Fin 16) (s : State) : Out := felStep e 1 true (insR2 .msu0 e.who d w) s
def execMsu1 (e : Exe) (d w : Fin 16) (s : State) : Out := felStep e 1 true (insR2 .msu1 e.who d w) s
def execDiv (e : Exe) (d w : Fin 16) (s : State) : Out := felStep e 1 true (insR2 .div e.who d w) s
def execDivu (e : Exe) (d w : Fin 16) (s : State) : Out := felStep e 1 true (insR2 .divu e.who d w) s

end Sys2Proof.Machine
end

