-- ==== Sys2Proof/Machine/FelCtl.lean ====
section
/-!
DEFINITION. Control transfer, stacks, repeats, loops, special registers, banks, traps, waits and program-memory writes
(R242–R252, R278–R286, R300), and the commands that execute them.
-/
namespace Sys2Proof.Machine

/-! ### Control transfer (R256, R278) -/

/-- The condition of a Bcc (R256); none where it is illegal. -/
def condOf (cond : Nat) (st : Word) : Option Bool :=
  let z := bitOf st 0
  let n := bitOf st 1
  let c := bitOf st 2
  let v := bitOf st 3
  match cond with
  | 0 => some z
  | 1 => some (! z)
  | 2 => some c
  | 3 => some (! c)
  | 4 => some n
  | 5 => some (! n)
  | 6 => some v
  | 7 => some (! v)
  | 8 => some (c && ! z)
  | 9 => some (! c || z)
  | 10 => some (n == v)
  | 11 => some (n != v)
  | 12 => some (! z && n == v)
  | 13 => some (z || n != v)
  | 14 => some true
  | _ => none

/-- The syllable address `off` away from the instruction after one of two syllables (R236). -/
def relPc (k : CoreSt) (off : BitVec 18) : Nat := ((k.pc + 2 : Nat) + off.toInt) % 2 ^ 24 |>.toNat

/-- Bcc (R278). -/
def insBcc (c : Who) (cond : Nat) (off : BitVec 18) (s : State) : FelOut :=
  let k := s.getCore c
  match condOf cond k.stat with
  | some true => .jump s (relPc k off)
  | some false => .done s
  | none => .trap s 4 0

/-- JMPA and JMP. -/
def insJump (pc : Nat) (s : State) : FelOut := .jump s pc

/-! ### The data stack (R279, R282) -/

/-- Stack space of `n` bytes at `a` is word-aligned, not below SFLOOR, and in one yard of the core's group (R279, R282); for
the lamplighter, in its data SRAM. -/
def stackOk (c : Who) (a n : Nat) (s : State) : State × Bool :=
  if a % 4 ≠ 0 ∨ a < (s.getCore c).sfloor.toNat then (s, false)
  else
    match regionOf c a with
    | .yard y => if regionOf c (a + n - 1) = .yard y then s.ydEnter (State.yardMaster c) a else (s, false)
    | .lampRam => (s, decide (a + n ≤ 0x2000))
    | _ => (s, false)

/-- A watchpoint matches one of `n` words at `a`. -/
def watchedN (c : Who) (a n : Nat) (rd wr : Bool) (s : State) : Bool :=
  (List.range n).any (fun i => watched c (a + 4 * i) rd wr s)

/-- A call (R279): push, then PC takes the target. -/
def insCall (c : Who) (len pc : Nat) (s : State) : FelOut :=
  let k := s.getCore c
  let ret := (k.pc + len) % 2 ^ 24
  let a := (k.sp - 4).toNat
  let r := stackOk c a 4 s
  if ! r.2 then .trap r.1 13 (BitVec.ofNat 32 a)
  else if watched c a false true r.1 then .trap r.1 14 0
  else
    let t := issueStore c a (numBytes 4 ret) r.1
    let t1 := t.setCore c ((t.getCore c).setSp (BitVec.ofNat 32 a))
    .jump (if c = .lamp then t1 else t1.ssPush c k.bk ret) pc

/-- RET (R279): checked against the shadow stack of the current bank; `up` upsets are met in the word read. -/
def insRet (c : Who) (up : Nat) (s : State) : FelOut :=
  let k := s.getCore c
  let a := k.sp.toNat
  let r := stackOk c a 4 s
  if ! r.2 then .trap r.1 13 k.sp
  else if watched c a true false r.1 then .trap r.1 14 0
  else
    let e := partsEcc c up [(a, 4)] r.1
    match e.2 with
    | some f => .trap e.1 9 (BitVec.ofNat 32 f)
    | none =>
      let v := dataNum c a 4 e.1
      let x := e.1.ssOf c k.bk
      let checked : Bool := c != .lamp && e.1.ssOn
      let l := e.1.ssGet x
      if checked ∧ l.head? ≠ some v then .trap e.1 2 (BitVec.ofNat 32 v)
      else
        let t := e.1.setCore c ((e.1.getCore c).setSp (k.sp + 4))
        .jump (if checked then t.ssPop x else t) (v % 2 ^ 24)

/-! ### Banks (R281, R282, R286) -/

/-- Vector of an instruction that names bank `b` of another context: illegal bank, or below the lowest level (R286). -/
def bankFault (k : CoreSt) (b : Nat) : Option Nat :=
  if 4 < b then some 4 else if k.pl = 0 ∨ (b = 4 ∧ k.pl ≠ 2) then some 5 else none

/-- MFB (R281). -/
def insMfb (c : Who) (d w b : Nat) (sp : Bool) (s : State) : FelOut :=
  let k := s.getCore c
  match (if sp ∧ w ≠ 0 then some 4 else bankFault k b) with
  | some v => .trap s v 0
  | none => onCore c (fun k => k.setReg d (if sp then (k.bank b).sp else k.wreg b w)) s

/-- MTB (R281). -/
def insMtb (c : Who) (d w b : Nat) (sp : Bool) (s : State) : FelOut :=
  let k := s.getCore c
  match (if sp ∧ w ≠ 0 then some 4 else bankFault k b) with
  | some v => .trap s v 0
  | none => onCore c (fun k => if sp then k.setSpOf b (k.reg d) else k.setWreg b w (k.reg d)) s

/-- What XST holds of a word written to it: STAT's layout, in which bit 7 is reserved (R13, R234). -/
def xstOf (v : Word) : Word := v &&& 0xFFFFFF7F

/-- The eighteen words of a bank's frame (R282). -/
def frameOf (k : CoreSt) (b : Nat) : List Word :=
  (List.range 16).map (fun i => k.wreg b i) ++ [(k.bank b).xpc, (k.bank b).xst]

/-- SPILL (R282). -/
def insSpill (c : Who) (b : Nat) (s : State) : FelOut :=
  let k := s.getCore c
  match (if b = k.bk then some 4 else bankFault k b) with
  | some v => .trap s v 0
  | none =>
    let a := (k.sp - 72).toNat
    let r := stackOk c a 72 s
    if ! r.2 then .trap r.1 13 (BitVec.ofNat 32 a)
    else if watchedN c a 18 false true r.1 then .trap r.1 14 0
    else
      let t := issueStore c a ((frameOf k b).flatMap wordBytes) r.1
      .done (t.setCore c ((t.getCore c).setSp (BitVec.ofNat 32 a)))

/-- FILL (R282); `up` upsets are met in the first word read. -/
def insFill (c : Who) (b up : Nat) (s : State) : FelOut :=
  let k := s.getCore c
  match (if b = k.bk then some 4 else bankFault k b) with
  | some v => .trap s v 0
  | none =>
    let a := k.sp.toNat
    let r := stackOk c a 72 s
    if ! r.2 then .trap r.1 13 k.sp
    else if watchedN c a 18 true false r.1 then .trap r.1 14 0
    else
      let e := partsEcc c up ((List.range 18).map (fun i => (a + 4 * i, 4))) r.1
      match e.2 with
      | some f => .trap e.1 9 (BitVec.ofNat 32 f)
      | none =>
        let word := fun (i : Nat) => (BitVec.ofNat 32 (dataNum c (a + 4 * i) 4 e.1) : Word)
        let k1 := forUpTo 16 (fun i (k : CoreSt) => k.setWreg b i (word i)) (e.1.getCore c)
        let k2 := k1.setBank b { k1.bank b with xpc := BitVec.ofNat 32 (bitsOf (word 16) 23 0), xst := xstOf (word 17) }
        .done (e.1.setCore c (k2.setSp (k.sp + 72)))

/-! ### Special registers (R233–R235) -/

/-- Special register `n` as MFS reads it. -/
def sregRead (k : CoreSt) (n : Nat) : Word :=
  match n with
  | 0 => k.stat
  | 1 => k.vtb
  | 2 | 3 | 4 | 5 => Sparse.get (fun _ => 0) k.db (n - 2)
  | 6 => k.sp
  | 7 => k.a0.setWidth 32
  | 8 => (k.a0 >>> 32).setWidth 32
  | 9 => k.a1.setWidth 32
  | 10 => (k.a1 >>> 32).setWidth 32
  | 11 => k.sfloor
  | 12 => (k.bank k.bk).xpc
  | 13 => (k.bank k.bk).xst
  | 14 => BitVec.ofNat 32 k.bk
  | _ => k.ls

/-- A half of an accumulator replaced. -/
def accHalf (x : BitVec 64) (hi : Bool) (v : Word) : BitVec 64 :=
  if hi then (v ++ x.setWidth 32) else ((x >>> 32).setWidth 32 ++ v)

/-- MTS of special register `n` (R234, R235). -/
def sregWrite (k : CoreSt) (n : Nat) (v : Word) : CoreSt :=
  match n with
  | 0 =>
    let m : Word := if k.pl = 0 then 0x7F else 0x77F
    { k with stat := (k.stat &&& ~~~ m) ||| (v &&& m) }
  | 1 => { k with vtb := v &&& 0xFFFFFC00 }
  | 2 | 3 | 4 | 5 => { k with db := Sparse.set (fun _ => 0) k.db (n - 2) (v &&& 0xFFFFC000) }
  | 6 => k.setSp v
  | 7 => { k with a0 := accHalf k.a0 false v }
  | 8 => { k with a0 := accHalf k.a0 true v }
  | 9 => { k with a1 := accHalf k.a1 false v }
  | 10 => { k with a1 := accHalf k.a1 true v }
  | 11 => { k with sfloor := v &&& 0xFFFFFFFC }
  | 12 => k.setBank k.bk { k.bank k.bk with xpc := v &&& 0x00FFFFFF }
  | 13 => k.setBank k.bk { k.bank k.bk with xst := xstOf v }
  | 14 => k
  | _ => { k with ls := v }

/-- The lowest level that reads, and that writes, special register `n` (R233). -/
def sregReadPl (n : Nat) : Nat := if n = 1 ∨ n = 12 ∨ n = 13 then 1 else 0
def sregWritePl (n : Nat) : Nat := if n = 1 then 2 else if n = 11 ∨ n = 12 ∨ n = 13 ∨ n = 15 then 1 else 0

/-- Special registers that the lamplighter does not have (R258). -/
def lampNoSreg (c : Who) (n : Nat) : Bool := c == .lamp && (decide (7 ≤ n ∧ n ≤ 10) || n == 15)

/-- MFS (R281). -/
def insMfs (c : Who) (d n : Nat) (s : State) : FelOut :=
  if lampNoSreg c n then .trap s 4 0
  else if (s.getCore c).pl < sregReadPl n then .trap s 5 0
  else onCore c (fun k => k.setReg d (sregRead k n)) s

/-- MTS (R281). -/
def insMts (c : Who) (n w : Nat) (s : State) : FelOut :=
  if lampNoSreg c n ∨ n = 14 then .trap s 4 0
  else if (s.getCore c).pl < sregWritePl n then .trap s 5 0
  else onCore c (fun k => sregWrite k n (k.reg w)) s

/-! ### Traps and core control (R283) -/

/-- EI. -/
def insEi (c : Who) (s : State) : FelOut :=
  if (s.getCore c).pl = 0 then .trap s 5 0 else onCore c (fun k => k.setStat 10 10 1) s

/-- DI: no interrupt point follows it. -/
def insDi (c : Who) (s : State) : FelOut :=
  if (s.getCore c).pl = 0 then .trap s 5 0 else onCore c (fun k => { k.setStat 10 10 0 with noPoint := true }) s

/-- WFI: it completes at once when an interrupt is pending, and otherwise waits, with the PC past it. -/
def insWfi (c : Who) (s : State) : FelOut :=
  let k := s.getCore c
  if k.pl = 0 then .trap s 5 0
  else if (nextVector s c).isSome then .done s
  else
    let t := complete c 1 k.loads.length none s
    let t1 := t.setCore c { t.getCore c with wait := .wfi }
    .await (if c = .lamp then t1.setFlag A.LN_STAT 28 true else t1)

/-- A store of core `c` waits in the NV write controller, or is being written. -/
def nvBusy (c : Who) (s : State) : Bool :=
  s.mem.nvQ.any (fun e => e.cores.contains c) || (match s.mem.nvRun with | some r => r.1.cores.contains c | none => false)

/-- Every earlier data access of the processor has completed (R283, R338). -/
def fenceDone (c : Who) (s : State) : Bool :=
  c == .lamp ||
    (! (holds c s && ! s.mem.held.isEmpty)
      && ! s.toField.any (fun x => match x.msg with | .regWrite m _ _ _ => m == masterOf c | _ => false)
      && ! nvBusy c s
      && ! (s.getCore c).dataOut)

/-- FENCE: a wait for held writes is a held-write stall (R314). -/
def insFence (c : Who) (s : State) : FelOut :=
  if fenceDone c s then .done s
  else
    let k := s.getCore c
    .await (s.setCore c { k with wait := .fence, hwSince := if s.mem.held.isEmpty then k.hwSince else some (k.hwSince.getD s.dtC) })

/-- FENCE_COMPLETE. -/
def execFenceComplete (c : Who) (s : State) : Out :=
  let k := s.getCore c
  if k.wait ≠ .fence ∨ ! fenceDone c s then .next s
  else .next (complete c 1 k.loads.length none (s.setCore c { k with wait := .none }))

/-! ### Program memory (R242–R245) -/

/-- PMSYNC, once no write is in flight: cached lines that hold a written line are invalidated, the loop buffer is flushed and
the old-line buffer is released (R244). -/
def pmSync (k : CoreSt) : CoreSt :=
  let drop := fun (m : Sparse (List Nat)) (l : Nat × List Syl) =>
    let tag := l.1 / 32
    Sparse.set (fun _ => []) m (tag % 256) ((Sparse.get (fun _ => []) m (tag % 256)).erase tag)
  { k with icache := (k.oldLines ++ k.stale).foldl drop k.icache, oldLines := [], stale := [], loopBuf := none }

/-- A PMSYNC that waits goes on once no write is in flight (R244). -/
def pmSyncGo (c : Who) (s : State) : State :=
  let k := s.getCore c
  if k.wait = .pmsync ∧ k.pmwr.isNone then
    complete c 1 k.loads.length none (s.setCore c (pmSync { k with wait := .none }))
  else s

/-- PMSYNC (R244). -/
def insPmsync (c : Who) (s : State) : FelOut :=
  let k := s.getCore c
  if k.pmwr.isSome then .await (s.setCore c { k with wait := .pmsync }) else onCore c pmSync s

/-- The line that PMWR writes: syllables from wd and w(d+1). -/
def pmwrData (k : CoreSt) (d : Nat) : List Syl :=
  let lo := k.reg d
  let hi := k.reg (d + 1)
  [lo.setWidth 14, (lo >>> 14).setWidth 14, hi.setWidth 14, (hi >>> 14).setWidth 14]

/-- PMWR (R242, R243, R312). -/
def insPmwr (c : Who) (d w : Nat) (s : State) : FelOut :=
  let k := s.getCore c
  let l := bitsOf (k.reg w) 23 0
  let known := k.oldLines.any (fun o => o.1 == l / 4 * 4)
  if d % 2 ≠ 0 ∨ (! known ∧ 16 ≤ k.oldLines.length) then .trap s 4 0
  else if k.pl ≠ 2 then .trap s 5 0
  else if l % 4 ≠ 0 then .trap s 6 (BitVec.ofNat 32 l)
  else if 0x3FFFFF < l then .trap s 7 (BitVec.ofNat 32 l)
  else if k.pmwr.isSome then .stay
  else if holds c s ∧ 32 ≤ s.mem.held.length then .hold
  else
    let k1 : CoreSt := { k with oldLines := if known then k.oldLines else k.oldLines ++ [(l, s.pmLine l)] }
    if holds c s then
      .done (pushHeld (.pmwr s.dtC) (s.setCore c { k1 with pmwr := some (l, pmwrData k d, none) }))
    else .done ((s.setCore c { k1 with pmwr := some (l, pmwrData k d, some s.dtC) }).clearSeal)

/-- Line `l` is about to be written: a core that holds it in its cache goes on reading `old` (R245, R306). -/
def CoreSt.keepStale (k : CoreSt) (l : Nat) (old : List Syl) : CoreSt :=
  if k.cached l ∧ ! k.stale.any (fun o => o.1 == l) then { k with stale := k.stale ++ [(l, old)] } else k

/-- The other core of a pair. -/
def otherCore : Who → Who
  | .a => .b
  | .b => .a
  | .lamp => .lamp

/-- PMWR_WRITE_DONE: the line holds its new contents, and a waiting PMSYNC goes on. -/
def execPmwrWriteDone (c : Who) (s : State) : Out :=
  let k := s.getCore c
  match k.pmwr with
  | some (l, ds, some _) =>
    let o := otherCore c
    let s1 := if s.unhitched then s.setCore o ((s.getCore o).keepStale l (s.pmLine l)) else s
    .next (pmSyncGo c (pmWriteLine l ds (s1.setCore c { k with pmwr := none })))
  | _ => .next s

/-! ### Repeats and loops (R246–R252) -/

/-- RPT of `cnt` iterations; the prefix has `len` syllables. -/
def insRpt (c : Who) (len cnt : Nat) (s : State) : FelOut :=
  let k := s.getCore c
  let p := k.pc + len
  match s.fetchFail c p (s.lenAt c p) with
  | some a => .trap (if c = .lamp then s else s.fetchErr a) 8 (BitVec.ofNat 32 a)
  | none =>
    match s.decodeAt c p with
    | none => .trap s 4 0
    | some i =>
      if i.noRepeat then .trap s 4 0
      else if cnt = 0 then .jump s (p + i.len)
      else
        let t := complete c len k.loads.length (some k.pc) s
        .await (t.setCore c (((t.getCore c).setStat 31 16 cnt).setStat 13 13 1))

/-- The body from `p` up to `e` is fit for a loop that counts in `wc` (R251). -/
def bodyOk (s : State) (c : Who) (wc e : Nat) : Nat → Nat → Bool
  | 0, p => p == e
  | n + 1, p =>
    if e ≤ p then p == e
    else match s.decodeAt c p with
      | none => false
      | some i => ! i.noLoop && ! (i.writes (s.getCore c).bk).contains wc && bodyOk s c wc e n (p + i.len)

/-- LOOP (R250, R251) with a body of `len` syllables. -/
def insLoop (c : Who) (wc len : Nat) (s : State) : FelOut :=
  let k := s.getCore c
  let b := k.pc + 2
  match s.fetchFail c b len with
  | some a => .trap (s.fetchErr a) 8 (BitVec.ofNat 32 a)
  | none =>
    if ! bodyOk s c wc (b + len) len b then .trap s 4 0
    else if k.reg wc = 0 then .jump s (b + len)
    else onCore c (fun k => { k.setStat 14 14 1 with
      ls := BitVec.ofNat 32 (wc * 2 ^ 28 + (len - 1) * 2 ^ 22 + b),
      loopBuf := some (b, (List.range len).map (fun i => s.fetchSyl c (b + i))) }) s

/-- LOOP_PASS_END (R250). -/
def execLoopPassEnd (c : Who) (s : State) : Out :=
  let k := s.getCore c
  if ! k.run ∨ (c = .b ∧ ! s.unhitched) ∨ k.wait ≠ .none ∨ ! k.passEnd ∨ (c ≠ .lamp ∧ 2 ≤ s.rung) then .next s
  else
    let v := k.reg k.lsWc - 1
    let k1 := k.setReg k.lsWc v
    .next (s.setCore c (if v = 0 then k1.setStat 14 14 0 else { k1 with pc := k.lsStart }))

/-! ### Every instruction -/

/-- The effect of instruction `i` at processor `c`; `up` upsets are met in the first word that it reads. -/
def runIns (c : Who) (up : Nat) (i : Fel) (s : State) : FelOut :=
  let k := s.getCore c
  match i with
  | .r2 op d w => match op with
    | .mfs => insMfs c d w s
    | .mts => insMts c d w s
    | .pmwr => insPmwr c d w s
    | _ => insR2 op c d w s
  | .u1 op d => insU1 op c d s
  | .m0 op => match op with
    | .nop => .done s
    | .pmsync => insPmsync c s
    | .retx => insRetx c s
    | .ret => insRet c up s
    | .ei => insEi c s
    | .di => insDi c s
    | .brk => .trap s 14 0
    | .wfi => insWfi c s
    | .fence => insFence c s
  | .spill b => insSpill c b s
  | .fill b => insFill c b up s
  | .rptW n => insRpt c 1 (bitsOf (k.reg n) 15 0) s
  | .jmp n => insJump (bitsOf (k.reg n) 23 0) s
  | .call n => insCall c 1 (bitsOf (k.reg n) 23 0) s
  | .trap n => .trapNext s (32 + n.val)
  | .movi d v => insMovi c d v s
  | .movsh d x => insMovsh c d x s
  | .im op d w x => insIm op c d w x s
  | .cmpi d x => insCmpi c d x s
  | .shi d w kind amt => insShi c d w kind amt s
  | .rd op d b x => insRd op c d b x up s
  | .dd op d size db x => insDd op c d size db x up s
  | .bcc cond off => insBcc c cond off s
  | .jmpa t => insJump t.toNat s
  | .calla t => insCall c 2 t.toNat s
  | .callr off => insCall c 2 (relPc k off) s
  | .rptN n => insRpt c 2 n.toNat s
  | .loop wc len => insLoop c wc (len.val + 1) s
  | .mfb d w b sp => insMfb c d w b sp s
  | .mtb d w b sp => insMtb c d w b sp s

/-- REPEAT_ITERATION (R246, R248): one iteration of the instruction after the prefix at PC. A count of 0, which only a
RETX can restore, ends the repeat. -/
def execRepeatIteration (e : Exe) (up : Fin 3) (s : State) : Out :=
  let c := e.who
  let k := s.getCore c
  if ! felReady s c ∨ ! k.rp then .next s
  else
    let p := k.pc + s.lenAt c k.pc
    match s.decodeAt c p with
    | none => .next (runBody e (s.lenAt c p) (fun t => .trap t 4 0) s)
    | some i =>
      if i.noRepeat then .next (runBody e i.len (fun t => .trap t 4 0) s)
      else if k.rc = 0 then .next (s.setCore c { k.setStat 13 13 0 with pc := (p + i.len) % 2 ^ 24 })
      else .next (runBody e i.len (runIns c up.val i) s)

/-- ILLEGAL_INSTRUCTION (R257, R258): the syllables `x`, `y` at PC are no instruction of the processor. -/
def execIllegalInstruction (e : Exe) (x y : Syl) (s : State) : Out :=
  let bad : Bool := match decodeFel x y with
    | none => true
    | some i => e.who == .lamp && ! i.lampOk
  if bad then felStep e (if x.getLsbD 13 then 2 else 1) false (fun t => .trap t 4 0) s else .next s

/-! ### Commands -/

def execBcc (e : Exe) (cond : Fin 16) (off : BitVec 18) (s : State) : Out := felStep e 2 false (insBcc e.who cond off) s
def execJmpa (e : Exe) (t : BitVec 22) (s : State) : Out := felStep e 2 false (insJump t.toNat) s
def execJmp (e : Exe) (n : Fin 16) (s : State) : Out :=
  felStep e 1 false (fun t => insJump (bitsOf ((t.getCore e.who).reg n) 23 0) t) s
def execCalla (e : Exe) (t : BitVec 22) (s : State) : Out := felStep e 2 false (insCall e.who 2 t.toNat) s
def execCallr (e : Exe) (off : BitVec 18) (s : State) : Out :=
  felStep e 2 false (fun t => insCall e.who 2 (relPc (t.getCore e.who) off) t) s
def execCall (e : Exe) (n : Fin 16) (s : State) : Out :=
  felStep e 1 false (fun t => insCall e.who 1 (bitsOf ((t.getCore e.who).reg n) 23 0) t) s
def execRet (e : Exe) (up : Fin 3) (s : State) : Out := felStep e 1 false (insRet e.who up.val) s
def execRpt (e : Exe) (n : Syl) (s : State) : Out := felStep e 2 false (insRpt e.who 2 n.toNat) s
def execRptWn (e : Exe) (n : Fin 16) (s : State) : Out :=
  felStep e 1 false (fun t => insRpt e.who 1 (bitsOf ((t.getCore e.who).reg n) 15 0) t) s
def execLoop (e : Exe) (wc : Fin 16) (len : Fin 64) (s : State) : Out := felStep e 2 true (insLoop e.who wc (len.val + 1)) s
def execMfs (e : Exe) (d n : Fin 16) (s : State) : Out := felStep e 1 false (insMfs e.who d n) s
def execMts (e : Exe) (n w : Fin 16) (s : State) : Out := felStep e 1 false (insMts e.who n w) s
def execMfb (e : Exe) (d w : Fin 16) (b : Fin 8) (sp : Bool) (s : State) : Out := felStep e 2 true (insMfb e.who d w b sp) s
def execMtb (e : Exe) (d w : Fin 16) (b : Fin 8) (sp : Bool) (s : State) : Out := felStep e 2 true (insMtb e.who d w b sp) s
def execSpill (e : Exe) (b : Fin 16) (s : State) : Out := felStep e 1 true (insSpill e.who b) s
def execFill (e : Exe) (b : Fin 16) (up : Fin 3) (s : State) : Out := felStep e 1 true (insFill e.who b up.val) s
def execTrap (e : Exe) (n : Fin 64) (s : State) : Out := felStep e 1 false (fun t => .trapNext t (32 + n.val)) s
def execBrk (e : Exe) (s : State) : Out := felStep e 1 false (fun t => .trap t 14 0) s
def execEi (e : Exe) (s : State) : Out := felStep e 1 false (insEi e.who) s
def execDi (e : Exe) (s : State) : Out := felStep e 1 false (insDi e.who) s
def execWfi (e : Exe) (s : State) : Out := felStep e 1 false (insWfi e.who) s
def execFence (e : Exe) (s : State) : Out := felStep e 1 false (insFence e.who) s
def execNop (e : Exe) (s : State) : Out := felStep e 1 false (fun t => .done t) s
def execPmwr (e : Exe) (d w : Fin 16) (s : State) : Out := felStep e 1 true (insPmwr e.who d w) s
def execPmsync (e : Exe) (s : State) : Out := felStep e 1 true (insPmsync e.who) s

end Sys2Proof.Machine
end

