-- ==== Sys2Proof/Machine/FelEvents.lean ====
section
/-!
DEFINITION. What reaches the Felrad processors from outside their instructions: load data, far-memory answers and their
failures, and the ends of the signature windows (R237, R238, R275, R310–R316, R372).
-/
namespace Sys2Proof.Machine

/-! ### Data of loads (R237, R238) -/

/-- Data of the oldest near load without its value arrives: it is written once the slot has completed. -/
def nearArrive (c : Who) (v : Word) (s : State) : State :=
  let k := s.getCore c
  match takeFirst (fun (l : NearLoad) => if l.val.isNone then some l else none) k.loads with
  | none => s
  | some _ =>
    let give := fun (acc : List NearLoad × Bool) (l : NearLoad) =>
      if ! acc.2 && l.val.isNone then (acc.1 ++ [{ l with val := some v }], true) else (acc.1 ++ [l], acc.2)
    s.setCore c { k with loads := (k.loads.foldl give ([], false)).1 }.writeBack

/-- A waiting far access ends in vector 12, whose table entry meets `up` upsets. -/
def farAbort (c : Who) (s : State) (up : Nat := 0) : State :=
  let k := s.getCore c
  match k.wait with
  | .farLoad _ _ _ a _ => takeTrap c 12 k.pc (BitVec.ofNat 32 a) s s up
  | .farStore a _ _ => takeTrap c 12 k.pc (BitVec.ofNat 32 a) s s up
  | _ => s

/-- Data of a far load, LDRSV (kind 1) or TAS (kind 2) arrives, or its error (R274, R276, R372). -/
def farArrive (c : Who) (kind b rd a : Nat) (ext : Ext) (err : Bool) (up : Nat) (s : State) : State :=
  let k := s.getCore c
  let off := farOff a s
  if Sparse.get (fun _ => false) s.farPoison (off / 64) then
    takeTrap c 12 k.pc (BitVec.ofNat 32 a) s (s.raiseC 0x82 0xFF) up
  else if err ∨ ! s.farUp then farAbort c s up
  else
    let v := farNum off (extSize ext) s
    let k1 : CoreSt := { k.setWreg b rd (extend ext v) with wait := .none, resv := if kind = 1 then some (a / 64) else k.resv }
    let t := s.setCore c k1
    complete c 2 k.loads.length none (if kind = 2 then putZ c (v == 0) ((farStore off [0xFF] t).touch a 1) else t)

/-- LOAD_DATA_ARRIVAL: `err` is an error answer of far memory. -/
def execLoadDataArrival (x : At) (err : Bool) (s : State) : Out :=
  let c := x.who
  match takeHead (fun (m : LinkMsg) => match m with
      | .readData m _ v => if m = masterOf c then some v else none | _ => none) s.toControl with
  | some (v, rest) => .next (nearArrive c v { s with toControl := rest })
  | none =>
    match (s.getCore c).wait with
    | .farLoad kind b rd a ext => .next (farArrive c kind b rd a ext err x.tbl s)
    | _ => .next s

/-- FAR_STORE_ACK (R274, R275, R277): an STCND writes only while its reservation is still held; a store that far memory
answers with an error takes vector 12, and writes nothing. -/
def execFarStoreAck (x : FarAck) (s : State) : Out :=
  let c := x.who
  let k := s.getCore c
  match k.wait with
  | .farStore a bs cnd =>
    if x.err ∨ ! s.farUp then .next (farAbort c s x.tbl)
    else
      let held : Bool := k.resv == some (a / 64)
      let t := s.setCore c { k with wait := .none, resv := if cnd then none else k.resv }
      let t1 := if cnd && ! held then t else (farStore (farOff a s) bs t).touch a bs.length
      .next (complete c 2 k.loads.length none (if cnd then putZ c held t1 else t1))
  | _ => .next s

/-- FAR_DL_DOWN (R372): accesses that wait complete with error at once. -/
def execFarDlDown (s : State) : Out :=
  if ! s.flag A.LK_FARSTAT 31 then .next s else .next (farAbort .b (farAbort .a (farDown s)))

/-- FAR_ACCESS_TIMEOUT (R372): an access has waited LK_FARTO µs for a link in recovery: a core's, or (none) the lookups'. -/
def execFarAccessTimeout (x : Option At) (s : State) : Out :=
  match x with
  | some x =>
    if s.dtC < (s.getCore x.who).farAt + s.farTo then .next s else .next (farAbort x.who s x.tbl)
  | none =>
    let t := failLookups (fun st => decide (st.iss + 9 * s.farTo ≤ 9 * s.dtC)) s
    -- a line that a younger lookup may wait for is still fetched
    .next (if t.bog.any (fun g => g.2.stations.any (fun st => st.miss)) then t else { t with fetches := [] })

/-! ### Signature windows (R310–R316) -/

/-- A held write leaves the buffer and proceeds as if it had issued now (R313). -/
def releaseHeld (h : HeldWr) (s : State) : State :=
  match h with
  | .store _ a bs => issueStore .a a bs s
  | .pmwr _ =>
    match s.coreA.pmwr with
    | some (l, ds, none) => { s with coreA := { s.coreA with pmwr := some (l, ds, some s.dtC) } }.clearSeal
    | _ => s

/-- A held write is discarded (R313). -/
def dropHeld (h : HeldWr) (s : State) : State :=
  match h with
  | .store .. => s
  | .pmwr _ => { s with coreA := { s.coreA with pmwr := none } }

/-- The DT at which a held write entered the buffer. -/
def HeldWr.entered : HeldWr → Nat
  | .store t _ _ => t
  | .pmwr t => t

/-- The next pattern of the in-service comparator check (R316). -/
def bistNext (ok : Bool) (s : State) : State :=
  if ! s.flag A.TD_CFG 31 then s
  else
    let t : State := { s with mem := { s.mem with pattern := (s.mem.pattern + 1) % 8 } }
    if ok then t else t.raiseC 0x10 1

/-- TANDEM_WINDOW_COMPARE: the oldest window that has ended is compared; `sigA`, `sigB` are the cores' signatures and `ok` the
outcome of the in-service check. -/
def execTandemWindowCompare (sigA sigB : BitVec 64) (ok : Bool) (s : State) : Out :=
  let e := s.mem.winStart + s.tdWindow
  if s.unhitched ∨ ! s.started ∨ s.mem.tdReset.isSome ∨ s.rung ≠ 0 ∨ s.dtC < e then .next s
  else
    let now := s.mem.held.filter (fun h => decide (h.entered < e))
    let s1 := (s.wr64 A.TD_SIGA_L A.TD_SIGA_H sigA.toNat).wr64 A.TD_SIGB_L A.TD_SIGB_H sigB.toNat
    let s2 : State :=
      { s1 with mem := { s1.mem with held := s.mem.held.filter (fun h => ! decide (h.entered < e)), winStart := e } }
    let s3 := if sigA = sigB then forEach now releaseHeld s2
      else (forEach now dropHeld (s2.setFlag A.TD_STAT 27 true)).raiseC 0x10 0
    let s4 := (bistNext ok s3).hwShow
    -- the instructions that waited for the held writes go on
    .next (pmSyncGo .a (if s4.mem.held.isEmpty ∧ s4.coreA.wait = .fence then endHold s4 .a else s4))

end Sys2Proof.Machine
end

