-- ==== Sys2Proof/Machine/RegAccess.lean ====
section
/-!
DEFINITION. Register accesses as commands: a write that has no row of its own, and what arrives at the field die over the
link (R11–R13, R30, R36–R39, R287, R365).
-/
namespace Sys2Proof.Machine

/-- A read of the field window has been made for requester `m`: a core's data travels back over the link (R38); the host's is
delivered, and a debug session goes on (assumption 108). -/
def answerRead (m : Master) (a : Nat) (v : Word) (s : State) : State :=
  match m with
  | .coreA | .coreB => s.sendC (.readData m a v)
  | .debug => s.dbgResume (some v)
  | _ => s.setData m v

/-- FIELD_WINDOW_ACCESS: an access arrives at the field die and is applied; `ev` are W1C bits that an event sets in the same
cycle. -/
def execFieldWindowAccess (ev : Word) (s : State) : Out :=
  match takeHead (fun (m : LinkMsg) => match m with
      | .regWrite m a v e => some (Sum.inl (m, a, v, e)) | .regRead m a => some (Sum.inr (m, a)) | _ => none) s.toField with
  | none => .next s
  | some (Sum.inl (m, a, v, e), rest) =>
    let t := applyFieldWrite m a v e ev { s with toField := rest }
    .next (if m = .debug then t.dbgResume none else t)
  | some (Sum.inr (m, a), rest) =>
    let r := readReg m a { s with toField := rest }
    .next (answerRead m a r.1 r.2)

/-- A write of register `a` applies at its block: one of the control die, or the lamplighter's; `ev` and `clr` are the W1C
bits set and the W1S bits cleared by events of the same cycle (R12). -/
def landWrite (m : Master) (a : Nat) (v ev clr : Word) (s : State) : State :=
  let s1 := writeReg m a v ev s
  if clr = 0 then s1 else s1.wr a (s1.rd a &&& ~~~ (clr &&& ~~~ v &&& typeMask (fieldsAt a) [.w1s]))

/-- The processor that makes the accesses of requester `m`. -/
def whoIs : Master → Who
  | .coreB => .b
  | .lamp => .lamp
  | _ => .a

/-- REGISTER_WRITE: a write by requester `m`. The host's reaches what R30 and R365 let it reach, and a debug session's what
R484 does; a processor that may not make it takes vector 7 and writes nothing (R33, R37, R287, R444). One to the field
window, but the lamplighter's, is forwarded over the link (R36). -/
def execRegisterWrite (m : Master) (a : BitVec 32) (v ev clr : Word) (s : State) : Out :=
  let a := a.toNat
  if m = .host then .next (if ! epochBlock a && hostWrites a then landWrite .host a v ev clr s else hostWrite a v s)
  else if m = .debug then
    .next (if State.dbgDenied a then s else if inField a then forwardWrite m a v s else landWrite m a v ev clr s)
  else
    let c := whoIs m
    let r := partOk c true 4 (a, 4) s
    if ! r.2 then .next (takeTrap c 7 (s.getCore c).pc (BitVec.ofNat 32 a) s r.1)
    else .next (if inField a ∧ c ≠ .lamp then forwardWrite m a v r.1 else landWrite m a v ev clr r.1)

end Sys2Proof.Machine
end

