-- ==== Sys2Proof/Machine/Pads.lean ====
section
/-!
DEFINITION. The balls of the package (R490–R495): which pin each of them is, the bank and level of a bank's balls, and what
the output balls drive in each phase.
-/
namespace Sys2Proof.Machine

/-- What a ball of R491 carries. Outputs and feedbacks are counted AH, AL, BH, BL, CH, CL; `neg` is the _N ball of a pair. -/
inductive Ball
  | pw (u o : Nat) | sf (u o : Nat) | gp (n : Nat) | gpa (n : Nat) | sn (c : Nat) (neg : Bool)
  | sx (c : Nat) (data : Bool) | cpin (n : Nat) | hk (n : Nat)
  /-- A, B and Z of QEn; U, V and W of HLn -/
  | qe (n k : Nat) | hl (n k : Nat)
  | exc (n : Nat) | svc (neg : Bool) | errout (neg : Bool) | safeN | porstN | testen | vsel (b : Nat)
  /-- TX_P, TX_N, RX_P and RX_N of a lane -/
  | hup (lane k : Nat) | far (lane k : Nat)
  | refclk (neg : Bool) | vsup | reserved | gnd
  deriving DecidableEq, Repr

/-- The ball in row `r`, counted from 0 at row A over the rows of R490, and column `c`, counted from 1 (R491). -/
def ballAt (r c : Nat) : Ball :=
  let k := fun (r0 : Nat) => 32 * (r - r0) + (c - 1)
  if c = 34 ∨ c = 0 ∨ 34 < c then .gnd
  else if c = 33 then
    if r < 12 then .vsel r else if r < 17 then .reserved else if r = 29 then .far 3 2 else .gnd
  else if r < 3 then .pw (k 0 / 6) (k 0 % 6)
  else if r < 6 then .sf (k 3 / 6) (k 3 % 6)
  else if r = 6 then .gp (c - 1)
  else if r < 9 then .gpa (k 7)
  else if r < 12 then .sn (k 9 / 2) (k 9 % 2 == 1)
  else if r = 12 then .sx ((c - 1) / 2) ((c - 1) % 2 == 1)
  else if r = 13 then (if c ≤ 16 then .sx (16 + (c - 1) / 2) ((c - 1) % 2 == 1) else .cpin (c - 17))
  else if r = 14 then .hk (c - 1)
  else if r = 15 then
    if c ≤ 24 then .qe ((c - 1) / 3) ((c - 1) % 3)
    else match c with
      | 25 => .exc 0 | 26 => .exc 1 | 27 => .svc false | 28 => .svc true
      | 29 => .errout false | 30 => .errout true | 31 => .safeN | _ => .porstN
  else if r = 16 then (if c ≤ 24 then .hl ((c - 1) / 3) ((c - 1) % 3) else if c = 25 then .testen else .reserved)
  else if r = 29 then
    if c ≤ 16 then .hup ((c - 1) / 4) ((c - 1) % 4)
    else if c = 17 then .refclk false
    else if c = 18 then .refclk true
    else .far ((c - 19) / 4) ((c - 19) % 4)
  else if r = 33 ∧ c ≤ 24 then .vsup
  else .gnd

/-- Column 34 of row AL is the last ball of the FAR lanes; every other ball of column 34 is GND (R491). -/
def ballOf (r c : Nat) : Ball := if r = 29 ∧ c = 34 then .far 3 3 else ballAt r c

/-- The I/O bank of a ball (R492). -/
def bankOf : Ball → Option Nat
  | .pw u _ | .sf u _ => some (u / 2)
  | .gp n => some (8 + n / 16)
  | .gpa n => some (10 + n / 32)
  | _ => none

/-- The level of the bank's balls in millivolts, as VSEL was last sampled (R492, R493). -/
def State.bankLevel (s : State) (b : Nat) : Nat := if s.pw.vsel.getLsbD b then 5000 else 3300

/-- What an output ball does (R495): `sine` is the excitation of R50. -/
inductive Drive | hiZ | pullDown | low | high | sine
  deriving DecidableEq, Repr

namespace State

/-- Neither VSUP nor PoDL power has come since the power-on reset. -/
def unpowered (s : State) : Bool := ! s.flag A.LN_STAT 30 && ! s.flag A.LN_STAT 31

/-- Output `o` of PU or GP unit `u` (R433, R460, R494, R495). -/
def unitPad (s : State) (u o : Nat) : Drive :=
  if s.unpowered then .hiZ
  else if s.rung = 5 then .pullDown
  else if s.gd.fdReset ∨ s.pw.factory then .low
  else if s.pinHigh u o then .high else .low

/-- Ball GPA `p`: an input until something drives it. -/
def gpaPad (s : State) (p : Nat) : Drive :=
  if s.unpowered then .hiZ
  else if s.rung = 5 ∨ s.gd.fdReset then .pullDown
  else match Sparse.get (fun _ => 0) s.gpaDrv p with | 0 => .pullDown | 1 => .low | _ => .high

/-- Ball EXC `n` (R50). -/
def excPad (s : State) (n : Nat) : Drive :=
  if s.unpowered ∨ s.rung = 5 then .hiZ
  else if s.gd.fdReset ∨ s.rung = 4 then .low
  else if s.excOn n then .sine else .low

/-- ERROUT_P, and ERROUT_N with `neg` (R413): in antiphase while the field die is not limp. -/
def erroutPad (s : State) (neg : Bool) : Drive :=
  if s.unpowered then .hiZ
  else if s.limp ∨ s.gd.fdReset ∨ 2 ≤ s.rung then .low
  else if s.errout != neg then .high else .low

/-- SAFE_N (R413). -/
def safePad (s : State) : Drive :=
  if s.unpowered then .hiZ else if s.gd.fdReset ∨ 2 ≤ s.rung ∨ ! s.safeN then .low else .high

end State

end Sys2Proof.Machine
end

