-- ==== Sys2Proof/Machine/Rungs.lean ====
section
/-!
DEFINITION. The guard's start of a reaction, and the entries into the rungs of the power ladder and the exits from them
(R404, R405, R411, R432, R435, R441–R443).
-/
namespace Sys2Proof.Machine

/-! ### Faults at the guard (R404) -/

/-- A RESET_CD reaction has begun (R405, R443): in Idle and Stand the rung exits first; with the control die off in Park
and below there is nothing left to reset. -/
def startCd (s : State) : State :=
  match s.rung with
  | 0 => { s with pw := { s.pw with req := none, entry := none, cdAfter := false } }
  | 1 => { s.leaveIdle with pw := { s.leaveIdle.pw with cdAfter := false } }
  | 2 => { s.linkReturn with pw := { s.linkReturn.pw with cdAfter := true } }
  | _ => { s with gd := { s.gd with cdPend := false }, pw := { s.pw with cdAfter := false } }

/-- FAULT_ARRIVAL: reports that are next on the link arrive, and the guard takes the next fault. In Lantern it is off. -/
def execFaultArrival (s : State) : Out :=
  if s.rung = 5 then .next s
  else
    let u := s.arriveFaults
    match u.nextFault with
    | none => .next u
    | some f =>
      let s1 := ({ u with faultQ := u.faultQ.erase f } : State).guardTake f
      .next (if s1.gd.cdPend ∧ ! s.gd.cdPend then startCd s1 else s1)

/-! ### Entry (R435) -/

/-- Step 1: held writes, posted field-window writes and the NV queues drain. -/
def drain (s : State) : State :=
  let s1 := (forEach s.mem.held releaseHeld { s with mem := { s.mem with held := [] } }).hwShow
  let posted := s1.toField.filterMap (fun x => match x.msg with | .regWrite m a v e => some (m, a, v, e) | _ => none)
  let rest := s1.toField.filter (fun x => match x.msg with | .regWrite .. => false | _ => true)
  nvDrain (forEach posted (fun p (t : State) => applyFieldWrite p.1 p.2.1 p.2.2.1 p.2.2.2 0 t) { s1 with toField := rest })

/-- The hash of the resume region (R441). -/
def resumeHash (s : State) : BitVec 256 :=
  let a := s.fld A.PW_RESBASE 21 16 * 0x10000
  Config.sha256 ((List.range 0x10000).map (fun i => s.safeByte (a + i)))

/-- The security block reads the resume region, wherever it lies (R332). -/
def resumeSweep (s : State) : State :=
  let a := s.fld A.PW_RESBASE 21 16 * 0x10000
  s.eccSweep (a / 0x40000) a 0x10000

/-- RUNG_ENTRY: after the last WFI, steps 1–3. -/
def execRungEntry (s : State) : Out :=
  match s.pw.req with
  | none => .next s
  | some r =>
    if ! s.allWfi then .next s
    else
      let s1 := if 3 ≤ r then resumeSweep (drain s) else drain s
      let s2 : State := { s1 with pw := { s1.pw with req := none, entry := some r,
                                                     resume := if 3 ≤ r then some (resumeHash s1) else s1.pw.resume } }
      .next (if 2 ≤ r then s2.sendF .suspend else s2)

/-- A wake that waited for the entry's end begins the exit (R443): toward Shed from Lantern as a write of LN_WAKE does. -/
def exitAtOnce (s : State) : State :=
  match s.pw.wake with
  | none => s
  | some t =>
    let s1 : State := { s with pw := { s.pw with wake := none } }
    if t = 4 then writeLnWake 0x80000004 s1 else s1.beginExit

/-- RUNG_ENTRY_DONE: the domains take their states, once SUSPEND has arrived. -/
def execRungEntryDone (s : State) : Out :=
  match s.pw.entry with
  | none => .next s
  | some r =>
    if underWay .suspend s.toField then .next s else .next (exitAtOnce (s.enterRung r))

/-! ### Exit (R441) -/

/-- Registers that an exit from Park gives again the values that the boot manifest gave them: no step of start-up runs. -/
def resumeKeeps : List Nat :=
  [A.SYS_ENTRY, A.SC_STAT, A.SC_ARB_L, A.SC_ARB_H, A.SC_MFVER, A.SC_IDCNT] ++ (List.range 15).map A.SC_IDPUB

/-- The control die powers up from Park (R441): as after a warm reset, in its mode, with what verification had found. -/
def resumeBlocks (s : State) : State :=
  let un := s.unhitched
  let s1 := s.cdBlocks false
  let s2 := forEach resumeKeeps (fun a (t : State) => t.wr a (s.rd a)) s1
  let s3 := ((s2.setFlag A.TD_STAT 31 un).setFlag A.TD_STAT 30 (s.flag A.TD_STAT 30)).setFld A.SYS_BOOTSTAT 29 28 (s.fld A.SYS_BOOTSTAT 29 28)
  let s4 := s3.setFld A.BG_UC_STAT 29 28 (s.fld A.BG_UC_STAT 29 28)
  let s5 : State := { s4 with sc := { s4.sc with meas := s.sc.meas } }
  if un then forUpTo 15 (fun n (t : State) => t.wr (A.YD_OWN n) 1) s5 else s5

/-- The patch image is the one that was measured (R441, R476). -/
def patchSame (s : State) : Bool :=
  let e2 := if s.sc.patchAt = 0 then List.replicate 32 (0 : Byte) else State.sha ((s.patchImage).getD [])
  e2 == s.sc.stored.getD 2 []

/-- RESUME_CHECK_DONE: at the exit from Park, once DT is loaded (R23), the hashes are compared. -/
def execResumeCheckDone (o : StartOut) (s : State) : Out :=
  if s.pw.exit ≠ some 3 ∨ s.pw.dtLoad then .next s
  else
    let same : Bool := s.pw.resume == some (resumeHash s)
    let good : Bool := same && patchSame s && s.sc.sealed_
    -- the region is read, and what is uncorrectable there is found, once the blocks are up (R332)
    let a := s.fld A.PW_RESBASE 21 16 * 0x10000
    let s1 := ((resumeBlocks s).returnRun 3).eccSweep (a / 0x40000) a 0x10000
    let s2 := s1.setFlag A.PW_STAT 20 good
    if good then .next ((s2.patchLoad false).startCores (s2.fld A.PW_RESVEC 23 0))
    else
      let s3 := if same then s2 else (s2.setFlag A.PW_STAT 19 true).tamper 0
      .next (s3.startMid o false)

/-- The field die and the always-on domain power up from Lantern (R441): CD_AON as at power-on. The field blocks stand at their
reset since they lost their power (`enterRung`), and their self-test has run. -/
def lanternUp (o : StartOut) (s : State) : State :=
  let src := s.rd A.PW_WAKESRC
  let dt := s.num64 A.PW_WAKEDT_L A.PW_WAKEDT_H
  let s1 := ((s.cdBlocks true).logPowerOn.wr A.PW_WAKESRC src).wr64 A.PW_WAKEDT_L A.PW_WAKEDT_H dt
  { s1 with gd := { s1.gd with fdReset := false }, pw := { s1.pw with vsel := o.vsel } }.refreshAll (instant s.dtF 0)

/-- The control die starts from Shed or Lantern, with sealed-image fast boot while the seal holds (R441, R478). -/
def wakeStart (o : StartOut) (r : Nat) (s : State) : State :=
  ((s.returnRun r).redrive (instant s.dtF 0)).startUp { o with testen := false } ⟨true, false, false⟩ s.sc.sealed_

/-- RUNG_EXIT_DONE: an exit from Stand, Shed or Lantern completes, once DT is loaded (R23) and a field die that has powered up has
run its comparator self-test (R137, R441). -/
def execRungExitDone (o : StartOut) (s : State) : Out :=
  if s.pw.dtLoad then .next s
  else match s.pw.exit with
  | some 2 =>
    let s1 := (s.returnRun 2).completeWfi
    .next (if s1.pw.cdAfter then { s1 with pw := { s1.pw with cdAfter := false } }.sendF .limp else s1)
  | some 4 => .next (if s.selfTested then wakeStart o 4 (s.cdBlocks false) else s)
  | some 5 => .next (if s.selfTested then wakeStart o 5 (lanternUp o s) else s)
  | _ => .next s

end Sys2Proof.Machine
end

