-- ==== Sys2Proof/Machine/Dispatch.lean ====
section
/-!
DEFINITION. One arm for each command: its meaning.
-/
namespace Sys2Proof.Machine

def exec (i : Instr) (s : State) : Host.Outcome State Fault Refusal :=
  match i with
  | .registerWrite m a v ev clr => Sys2Proof.Machine.execRegisterWrite m a v ev clr s
  | .fieldWindowAccess ev => Sys2Proof.Machine.execFieldWindowAccess ev s
  | .replayRequest d ix k o => Sys2Proof.Machine.execReplayRequest d ix k o s
  | .dtSyncSend => Sys2Proof.Machine.execDtSyncSend s
  | .dtSync => Sys2Proof.Machine.execDtSync s
  | .clkLoss inst fd => Sys2Proof.Machine.execClkLoss inst fd s
  | .loadDataArrival c err => Sys2Proof.Machine.execLoadDataArrival c err s
  | .farStoreAck c => Sys2Proof.Machine.execFarStoreAck c s
  | .qeAbEdge q a b => Sys2Proof.Machine.execQeAbEdge q a b s
  | .qeZEdge q z => Sys2Proof.Machine.execQeZEdge q z s
  | .hlStateChange h v => Sys2Proof.Machine.execHlStateChange h v s
  | .trackEdgeReport => Sys2Proof.Machine.execTrackEdgeReport s
  | .trackWrite => Sys2Proof.Machine.execTrackWrite s
  | .trackWdog n => Sys2Proof.Machine.execTrackWdog n s
  | .trackStall n => Sys2Proof.Machine.execTrackStall n s
  | .trkCfgWrite n v => Sys2Proof.Machine.execTrkCfgWrite n v s
  | .trkAngRead m n => Sys2Proof.Machine.execTrkAngRead m n s
  | .predLRead m e => Sys2Proof.Machine.execPredLRead m e s
  | .ttFiredWrite j v => Sys2Proof.Machine.execTtFiredWrite j v s
  | .ttEntryWrite e r v => Sys2Proof.Machine.execTtEntryWrite e r v s
  | .excCfgWrite n v => Sys2Proof.Machine.execExcCfgWrite n v s
  | .ttPredict => Sys2Proof.Machine.execTtPredict s
  | .ttCommit => Sys2Proof.Machine.execTtCommit s
  | .ttFire => Sys2Proof.Machine.execTtFire s
  | .ttFallbackFire e => Sys2Proof.Machine.execTtFallbackFire e s
  | .ttCancel => Sys2Proof.Machine.execTtCancel s
  | .snCfgWrite c v => Sys2Proof.Machine.execSnCfgWrite c v s
  | .settlingEnd c => Sys2Proof.Machine.execSettlingEnd c s
  | .wcfgWrite c v => Sys2Proof.Machine.execWcfgWrite c v s
  | .wctlStart c => Sys2Proof.Machine.execWctlStart c s
  | .wctlEnd c => Sys2Proof.Machine.execWctlEnd c s
  | .windowResult c xs => Sys2Proof.Machine.execWindowResult c xs s
  | .windowLong c => Sys2Proof.Machine.execWindowLong c s
  | .resultDelivery => Sys2Proof.Machine.execResultDelivery s
  | .pSample c m => Sys2Proof.Machine.execPSample c m s
  | .pSampleTransfer => Sys2Proof.Machine.execPSampleTransfer s
  | .fSample c x dup => Sys2Proof.Machine.execFSample c x dup s
  | .snPsync => Sys2Proof.Machine.execSnPsync s
  | .modStall c => Sys2Proof.Machine.execModStall c s
  | .sxClockMissing n => Sys2Proof.Machine.execSxClockMissing n s
  | .stallClear c => Sys2Proof.Machine.execStallClear c s
  | .hkCtrlWrite v => Sys2Proof.Machine.execHkCtrlWrite v s
  | .hkUrg v => Sys2Proof.Machine.execHkUrg v s
  | .hkConversionStart => Sys2Proof.Machine.execHkConversionStart s
  | .hkConversionEnd code => Sys2Proof.Machine.execHkConversionEnd code s
  | .wresRead m c => Sys2Proof.Machine.execWresRead m c s
  | .hkResRead m ix => Sys2Proof.Machine.execHkResRead m ix s
  | .puCtlWrite u v => Sys2Proof.Machine.execPuCtlWrite u v s
  | .puStart u => Sys2Proof.Machine.execPuStart u s
  | .periodBoundary u => Sys2Proof.Machine.execPeriodBoundary u s
  | .periodMiddle u => Sys2Proof.Machine.execPeriodMiddle u s
  | .signalEdge u eu => Sys2Proof.Machine.execSignalEdge u eu s
  | .triggerCrossing u k eu => Sys2Proof.Machine.execTriggerCrossing u k eu s
  | .deadTimeEnd u o => Sys2Proof.Machine.execDeadTimeEnd u o s
  | .minpEnd u o => Sys2Proof.Machine.execMinpEnd u o s
  | .syncMiss u => Sys2Proof.Machine.execSyncMiss u s
  | .puSetWrite u b v => Sys2Proof.Machine.execPuSetWrite u b v s
  | .seal u seq => Sys2Proof.Machine.execSeal u seq s
  | .bogieCommit => Sys2Proof.Machine.execBogieCommit s
  | .sealAck => Sys2Proof.Machine.execSealAck s
  | .immediateTransfer u => Sys2Proof.Machine.execImmediateTransfer u s
  | .swFeedbackEdge u o lvl eu => Sys2Proof.Machine.execSwFeedbackEdge u o lvl eu s
  | .swFeedbackDisag u o eu => Sys2Proof.Machine.execSwFeedbackDisag u o eu s
  | .gpGseal g seq => Sys2Proof.Machine.execGpGseal g seq s
  | .unitNotice => Sys2Proof.Machine.execUnitNotice s
  | .cwCondition n v => Sys2Proof.Machine.execCwCondition n v s
  | .brakeFilter ix => Sys2Proof.Machine.execBrakeFilter ix s
  | .safeTurnOn u o eu => Sys2Proof.Machine.execSafeTurnOn u o eu s
  | .speedselEval su => Sys2Proof.Machine.execSpeedselEval su s
  | .blClr v => Sys2Proof.Machine.execBlClr v s
  | .brakeLineStatus => Sys2Proof.Machine.execBrakeLineStatus s
  | .blSsCfgWrite su v => Sys2Proof.Machine.execBlSsCfgWrite su v s
  | .cwCfgWrite ix thr v => Sys2Proof.Machine.execCwCfgWrite ix thr v s
  | .compSelftestDone fail => Sys2Proof.Machine.execCompSelftestDone fail s
  | .cwBgTest n => Sys2Proof.Machine.execCwBgTest n s
  | .cwBgTestDone n ok => Sys2Proof.Machine.execCwBgTestDone n ok s
  | .gatherTimeout ch => Sys2Proof.Machine.execGatherTimeout ch s
  | .taskDispatch b => Sys2Proof.Machine.execTaskDispatch b s
  | .microTrap b => Sys2Proof.Machine.execMicroTrap b s
  | .iterationBoundary ch => Sys2Proof.Machine.execIterationBoundary ch s
  | .bogieOverrun b => Sys2Proof.Machine.execBogieOverrun b s
  | .reliefAdopted m => Sys2Proof.Machine.execReliefAdopted m s
  | .reliefCatchupDone => Sys2Proof.Machine.execReliefCatchupDone s
  | .reliefTimeout => Sys2Proof.Machine.execReliefTimeout s
  | .utilWindow b => Sys2Proof.Machine.execUtilWindow b s
  | .pportData m v => Sys2Proof.Machine.execPportData m v s
  | .bgClrCnt b => Sys2Proof.Machine.execBgClrCnt b s
  | .bgClrTgap b => Sys2Proof.Machine.execBgClrTgap b s
  | .bgClrPeak b => Sys2Proof.Machine.execBgClrPeak b s
  | .microwordIssue b up => Sys2Proof.Machine.execMicrowordIssue b up s
  | .waitDeadline b => Sys2Proof.Machine.execWaitDeadline b s
  | .fmaResult b => Sys2Proof.Machine.execFmaResult b s
  | .rotResult b => Sys2Proof.Machine.execRotResult b s
  | .divResult b => Sys2Proof.Machine.execDivResult b s
  | .svuResult b => Sys2Proof.Machine.execSvuResult b s
  | .yldResult b => Sys2Proof.Machine.execYldResult b s
  | .mapResult b => Sys2Proof.Machine.execMapResult b s
  | .mapLoadDone n => Sys2Proof.Machine.execMapLoadDone n s
  | .cacheLineFill poison => Sys2Proof.Machine.execCacheLineFill poison s
  | .mpCtrlWrite v => Sys2Proof.Machine.execMpCtrlWrite v s
  | .mpClrCnt => Sys2Proof.Machine.execMpClrCnt s
  | .mov e d w => Sys2Proof.Machine.execMov e d w s
  | .movi e d v => Sys2Proof.Machine.execMovi e d v s
  | .movsh e d x => Sys2Proof.Machine.execMovsh e d x s
  | .add e d w => Sys2Proof.Machine.execAdd e d w s
  | .adc e d w => Sys2Proof.Machine.execAdc e d w s
  | .sub e d w => Sys2Proof.Machine.execSub e d w s
  | .sbc e d w => Sys2Proof.Machine.execSbc e d w s
  | .cmp e d w => Sys2Proof.Machine.execCmp e d w s
  | .addi e d w x => Sys2Proof.Machine.execAddi e d w x s
  | .cmpi e d x => Sys2Proof.Machine.execCmpi e d x s
  | .and e d w => Sys2Proof.Machine.execAnd e d w s
  | .or e d w => Sys2Proof.Machine.execOr e d w s
  | .xor e d w => Sys2Proof.Machine.execXor e d w s
  | .andn e d w => Sys2Proof.Machine.execAndn e d w s
  | .tst e d w => Sys2Proof.Machine.execTst e d w s
  | .andi e d w x => Sys2Proof.Machine.execAndi e d w x s
  | .ori e d w x => Sys2Proof.Machine.execOri e d w x s
  | .xori e d w x => Sys2Proof.Machine.execXori e d w x s
  | .shl e d w => Sys2Proof.Machine.execShl e d w s
  | .shr e d w => Sys2Proof.Machine.execShr e d w s
  | .asr e d w => Sys2Proof.Machine.execAsr e d w s
  | .ror e d w => Sys2Proof.Machine.execRor e d w s
  | .shi e d w kind amt => Sys2Proof.Machine.execShi e d w kind amt s
  | .neg e d => Sys2Proof.Machine.execNeg e d s
  | .not e d => Sys2Proof.Machine.execNot e d s
  | .abs e d => Sys2Proof.Machine.execAbs e d s
  | .sexb e d => Sys2Proof.Machine.execSexb e d s
  | .sexh e d => Sys2Proof.Machine.execSexh e d s
  | .zexb e d => Sys2Proof.Machine.execZexb e d s
  | .zexh e d => Sys2Proof.Machine.execZexh e d s
  | .clz e d => Sys2Proof.Machine.execClz e d s
  | .bswap e d => Sys2Proof.Machine.execBswap e d s
  | .mul e d w => Sys2Proof.Machine.execMul e d w s
  | .mulhs e d w => Sys2Proof.Machine.execMulhs e d w s
  | .mulhu e d w => Sys2Proof.Machine.execMulhu e d w s
  | .mulq e d w => Sys2Proof.Machine.execMulq e d w s
  | .mac0 e d w => Sys2Proof.Machine.execMac0 e d w s
  | .mac1 e d w => Sys2Proof.Machine.execMac1 e d w s
  | .msu0 e d w => Sys2Proof.Machine.execMsu0 e d w s
  | .msu1 e d w => Sys2Proof.Machine.execMsu1 e d w s
  | .div e d w => Sys2Proof.Machine.execDiv e d w s
  | .divu e d w => Sys2Proof.Machine.execDivu e d w s
  | .ldw e d b x up => Sys2Proof.Machine.execLdw e d b x up s
  | .ldh e d b x up => Sys2Proof.Machine.execLdh e d b x up s
  | .ldhu e d b x up => Sys2Proof.Machine.execLdhu e d b x up s
  | .ldb e d b x up => Sys2Proof.Machine.execLdb e d b x up s
  | .ldbu e d b x up => Sys2Proof.Machine.execLdbu e d b x up s
  | .stw e d b x => Sys2Proof.Machine.execStw e d b x s
  | .sth e d b x => Sys2Proof.Machine.execSth e d b x s
  | .stb e d b x => Sys2Proof.Machine.execStb e d b x s
  | .ldd e d size db x up => Sys2Proof.Machine.execLdd e d size db x up s
  | .lddu e d size db x up => Sys2Proof.Machine.execLddu e d size db x up s
  | .std e d size db x => Sys2Proof.Machine.execStd e d size db x s
  | .ldrsv e d b x up => Sys2Proof.Machine.execLdrsv e d b x up s
  | .stcnd e d b x => Sys2Proof.Machine.execStcnd e d b x s
  | .tas e d b x up => Sys2Proof.Machine.execTas e d b x up s
  | .bcc e cond off => Sys2Proof.Machine.execBcc e cond off s
  | .jmpa e t => Sys2Proof.Machine.execJmpa e t s
  | .jmp e n => Sys2Proof.Machine.execJmp e n s
  | .calla e t => Sys2Proof.Machine.execCalla e t s
  | .callr e off => Sys2Proof.Machine.execCallr e off s
  | .call e n => Sys2Proof.Machine.execCall e n s
  | .ret e up => Sys2Proof.Machine.execRet e up s
  | .rpt e n => Sys2Proof.Machine.execRpt e n s
  | .rptWn e n => Sys2Proof.Machine.execRptWn e n s
  | .repeatIteration e up => Sys2Proof.Machine.execRepeatIteration e up s
  | .loop e wc len => Sys2Proof.Machine.execLoop e wc len s
  | .loopPassEnd c => Sys2Proof.Machine.execLoopPassEnd c s
  | .mfs e d n => Sys2Proof.Machine.execMfs e d n s
  | .mts e n w => Sys2Proof.Machine.execMts e n w s
  | .mfb e d w b sp => Sys2Proof.Machine.execMfb e d w b sp s
  | .mtb e d w b sp => Sys2Proof.Machine.execMtb e d w b sp s
  | .spill e b => Sys2Proof.Machine.execSpill e b s
  | .fill e b up => Sys2Proof.Machine.execFill e b up s
  | .trap e n => Sys2Proof.Machine.execTrap e n s
  | .retx e => Sys2Proof.Machine.execRetx e s
  | .brk e => Sys2Proof.Machine.execBrk e s
  | .ei e => Sys2Proof.Machine.execEi e s
  | .di e => Sys2Proof.Machine.execDi e s
  | .wfi e => Sys2Proof.Machine.execWfi e s
  | .wfiWake c => Sys2Proof.Machine.execWfiWake c s
  | .fence e => Sys2Proof.Machine.execFence e s
  | .fenceComplete c => Sys2Proof.Machine.execFenceComplete c s
  | .nop e => Sys2Proof.Machine.execNop e s
  | .pmwr e d w => Sys2Proof.Machine.execPmwr e d w s
  | .pmwrWriteDone c => Sys2Proof.Machine.execPmwrWriteDone c s
  | .pmsync e => Sys2Proof.Machine.execPmsync e s
  | .interruptEntry c => Sys2Proof.Machine.execInterruptEntry c s
  | .tdSsctxWrite v => Sys2Proof.Machine.execTdSsctxWrite v s
  | .tdSsclr v => Sys2Proof.Machine.execTdSsclr v s
  | .icacheFill b a k up par => Sys2Proof.Machine.execIcacheFill b a k up par s
  | .tandemWindowCompare sigA sigB ok => Sys2Proof.Machine.execTandemWindowCompare sigA sigB ok s
  | .watchdogExpire b => Sys2Proof.Machine.execWatchdogExpire b s
  | .wdkick m v => Sys2Proof.Machine.execWdkick m v s
  | .tdSrst => Sys2Proof.Machine.execTdSrst s
  | .tandemResetDone injOk => Sys2Proof.Machine.execTandemResetDone injOk s
  | .tdClrCnt => Sys2Proof.Machine.execTdClrCnt s
  | .yardHand m n v => Sys2Proof.Machine.execYardHand m n v s
  | .yardForce n v => Sys2Proof.Machine.execYardForce n v s
  | .handoverDone n => Sys2Proof.Machine.execHandoverDone n s
  | .yardWindowTest up => Sys2Proof.Machine.execYardWindowTest up s
  | .yardWindowTestDone ok => Sys2Proof.Machine.execYardWindowTestDone ok s
  | .nvLineWriteStart => Sys2Proof.Machine.execNvLineWriteStart s
  | .nvLineWriteDone => Sys2Proof.Machine.execNvLineWriteDone s
  | .pmScrub up => Sys2Proof.Machine.execPmScrub up s
  | .ydClrEcc => Sys2Proof.Machine.execYdClrEcc s
  | .ydClrColl => Sys2Proof.Machine.execYdClrColl s
  | .ydClrConf => Sys2Proof.Machine.execYdClrConf s
  | .pmClrEcc1 => Sys2Proof.Machine.execPmClrEcc1 s
  | .tcPinEdge n p sample => Sys2Proof.Machine.execTcPinEdge n p sample s
  | .countEdge n => Sys2Proof.Machine.execCountEdge n s
  | .lateMatch n k => Sys2Proof.Machine.execLateMatch n k s
  | .tcArm n => Sys2Proof.Machine.execTcArm n s
  | .tcRestart n => Sys2Proof.Machine.execTcRestart n s
  | .tcCapture n => Sys2Proof.Machine.execTcCapture n s
  | .tcTrigger n => Sys2Proof.Machine.execTcTrigger n s
  | .linkAction n => Sys2Proof.Machine.execLinkAction n s
  | .tcCntRead m n cap => Sys2Proof.Machine.execTcCntRead m n cap s
  | .tcCtlWrite n v => Sys2Proof.Machine.execTcCtlWrite n v s
  | .tcCmpWrite n k v => Sys2Proof.Machine.execTcCmpWrite n k v s
  | .tcGstart v => Sys2Proof.Machine.execTcGstart v s
  | .globalStart => Sys2Proof.Machine.execGlobalStart s
  | .hostBar0Access off size w => Sys2Proof.Machine.execHostBar0Access off size w s
  | .hostDlDown => Sys2Proof.Machine.execHostDlDown s
  | .hostLinkRetrain => Sys2Proof.Machine.execHostLinkRetrain s
  | .functionLevelReset => Sys2Proof.Machine.execFunctionLevelReset s
  | .hotReset => Sys2Proof.Machine.execHotReset s
  | .linkDisable => Sys2Proof.Machine.execLinkDisable s
  | .d3hot => Sys2Proof.Machine.execD3hot s
  | .snoop => Sys2Proof.Machine.execSnoop s
  | .msixUnmask v => Sys2Proof.Machine.execMsixUnmask v s
  | .ptmDialogue => Sys2Proof.Machine.execPtmDialogue s
  | .ptmGo => Sys2Proof.Machine.execPtmGo s
  | .ptmResponse t2 t3 => Sys2Proof.Machine.execPtmResponse t2 t3 s
  | .ptmDtRead m => Sys2Proof.Machine.execPtmDtRead m s
  | .farBringup => Sys2Proof.Machine.execFarBringup s
  | .farBringupDone bad cap speed lanes => Sys2Proof.Machine.execFarBringupDone bad cap speed lanes s
  | .memoryActiveTimeout => Sys2Proof.Machine.execMemoryActiveTimeout s
  | .farDlDown => Sys2Proof.Machine.execFarDlDown s
  | .farLinkReturn => Sys2Proof.Machine.execFarLinkReturn s
  | .farAccessTimeout c => Sys2Proof.Machine.execFarAccessTimeout c s
  | .svcFrameRx ether ty => Sys2Proof.Machine.execSvcFrameRx ether ty s
  | .svcStatusFrame => Sys2Proof.Machine.execSvcStatusFrame s
  | .posthorn v => Sys2Proof.Machine.execPosthorn v s
  | .ringEnable r v => Sys2Proof.Machine.execRingEnable r v s
  | .sqStopClear q => Sys2Proof.Machine.execSqStopClear q s
  | .waybillFetch q v ok => Sys2Proof.Machine.execWaybillFetch q v ok s
  | .nextUpdateResolve => Sys2Proof.Machine.execNextUpdateResolve s
  | .atAngleTimeout => Sys2Proof.Machine.execAtAngleTimeout s
  | .waybillEffect hostOk img => Sys2Proof.Machine.execWaybillEffect hostOk img s
  | .wbFenceDone => Sys2Proof.Machine.execWbFenceDone s
  | .attestSigned ok => Sys2Proof.Machine.execAttestSigned ok s
  | .consistPeriod c => Sys2Proof.Machine.execConsistPeriod c s
  | .consistPublish c => Sys2Proof.Machine.execConsistPublish c s
  | .hqCcmpl v => Sys2Proof.Machine.execHqCcmpl v s
  | .hqClrCnt => Sys2Proof.Machine.execHqClrCnt s
  | .faultArrival => Sys2Proof.Machine.execFaultArrival s
  | .gdReactWrite id v => Sys2Proof.Machine.execGdReactWrite id v s
  | .gdLock => Sys2Proof.Machine.execGdLock s
  | .gdRel v => Sys2Proof.Machine.execGdRel v s
  | .gsafeUpdate => Sys2Proof.Machine.execGsafeUpdate s
  | .vsupUv => Sys2Proof.Machine.execVsupUv s
  | .vsupOv => Sys2Proof.Machine.execVsupOv s
  | .coreSupply => Sys2Proof.Machine.execCoreSupply s
  | .tempCd => Sys2Proof.Machine.execTempCd s
  | .tempFd => Sys2Proof.Machine.execTempFd s
  | .erroutToggle => Sys2Proof.Machine.execErroutToggle s
  | .heartbeatSend => Sys2Proof.Machine.execHeartbeatSend s
  | .heartbeat => Sys2Proof.Machine.execHeartbeat s
  | .couplingLoss => Sys2Proof.Machine.execCouplingLoss s
  | .statusSend => Sys2Proof.Machine.execStatusSend s
  | .status => Sys2Proof.Machine.execStatus s
  | .statusTimeout => Sys2Proof.Machine.execStatusTimeout s
  | .cplClaim => Sys2Proof.Machine.execCplClaim s
  | .claim => Sys2Proof.Machine.execClaim s
  | .grant => Sys2Proof.Machine.execGrant s
  | .refuse => Sys2Proof.Machine.execRefuse s
  | .cplRelease => Sys2Proof.Machine.execCplRelease s
  | .releaseLimp => Sys2Proof.Machine.execReleaseLimp s
  | .released => Sys2Proof.Machine.execReleased s
  | .claimTimeout => Sys2Proof.Machine.execClaimTimeout s
  | .reject => Sys2Proof.Machine.execReject s
  | .limp o => Sys2Proof.Machine.execLimp o s
  | .safeAllArrival => Sys2Proof.Machine.execSafeAllArrival s
  | .suspend => Sys2Proof.Machine.execSuspend s
  | .limpNotice => Sys2Proof.Machine.execLimpNotice s
  | .limpLockClearNotice => Sys2Proof.Machine.execLimpLockClearNotice s
  | .fgLlclr v => Sys2Proof.Machine.execFgLlclr v s
  | .logbookRecordWrite => Sys2Proof.Machine.execLogbookRecordWrite s
  | .gdLogclr v => Sys2Proof.Machine.execGdLogclr v s
  | .pwReq v => Sys2Proof.Machine.execPwReq v s
  | .rungEntry => Sys2Proof.Machine.execRungEntry s
  | .rungEntryDone => Sys2Proof.Machine.execRungEntryDone s
  | .wakeSource ix => Sys2Proof.Machine.execWakeSource ix s
  | .resumeCheckDone o => Sys2Proof.Machine.execResumeCheckDone o s
  | .lnWake v => Sys2Proof.Machine.execLnWake v s
  | .lwSample n uv => Sys2Proof.Machine.execLwSample n uv s
  | .rtcAlarm => Sys2Proof.Machine.execRtcAlarm s
  | .rtcRead m => Sys2Proof.Machine.execRtcRead m s
  | .lanternDtTick => Sys2Proof.Machine.execLanternDtTick s
  | .faultQueueFlush => Sys2Proof.Machine.execFaultQueueFlush s
  | .llStart => Sys2Proof.Machine.execLlStart s
  | .llHalt => Sys2Proof.Machine.execLlHalt s
  | .lnPgdata v => Sys2Proof.Machine.execLnPgdata v s
  | .lnMbox v => Sys2Proof.Machine.execLnMbox v s
  | .podlChange present => Sys2Proof.Machine.execPodlChange present s
  | .vsupRise => Sys2Proof.Machine.execVsupRise s
  | .odEvaluate slack om ro => Sys2Proof.Machine.execOdEvaluate slack om ro s
  | .supplyStepSettled => Sys2Proof.Machine.execSupplyStepSettled s
  | .odPcap => Sys2Proof.Machine.execOdPcap s
  | .odClkSel900 => Sys2Proof.Machine.execOdClkSel900 s
  | .odClkSel1g => Sys2Proof.Machine.execOdClkSel1g s
  | .bogieClockSwitch => Sys2Proof.Machine.execBogieClockSwitch s
  | .coldStart o vsup podl => Sys2Proof.Machine.execColdStart o vsup podl s
  | .porst => Sys2Proof.Machine.execPorst s
  | .powerLoss => Sys2Proof.Machine.execPowerLoss s
  | .sysCdrst o => Sys2Proof.Machine.execSysCdrst o s
  | .sysFdrst => Sys2Proof.Machine.execSysFdrst s
  | .fieldDieReady vsel => Sys2Proof.Machine.execFieldDieReady vsel s
  | .chalReq src => Sys2Proof.Machine.execChalReq src s
  | .token src ix n bs => Sys2Proof.Machine.execToken src ix n bs s
  | .read src a n => Sys2Proof.Machine.execRead src a n s
  | .write src a ws => Sys2Proof.Machine.execWrite src a ws s
  | .halt src on => Sys2Proof.Machine.execHalt src on s
  | .watch src ix kind a mask => Sys2Proof.Machine.execWatch src ix kind a mask s
  | .lock src => Sys2Proof.Machine.execLock src s
  | .sessionExpiry => Sys2Proof.Machine.execSessionExpiry s
  | .tamper ix => Sys2Proof.Machine.execTamper ix s
  | .chalLockoutEnd => Sys2Proof.Machine.execChalLockoutEnd s
  | .scRandRead m => Sys2Proof.Machine.execScRandRead m s
  | .illegalInstruction e x y => Sys2Proof.Machine.execIllegalInstruction e x y s
  | .hostConfigWrite cacheEn bme msixEn d3 => Sys2Proof.Machine.execHostConfigWrite cacheEn bme msixEn d3 s
  | .hostDlUp speed lanes cxl => Sys2Proof.Machine.execHostDlUp speed lanes cxl s
  | .serviceLinkDown => Sys2Proof.Machine.execServiceLinkDown s
  | .faultConditionCleared id inst => Sys2Proof.Machine.execFaultConditionCleared id inst s
  | .guardCopyDisagreement => Sys2Proof.Machine.execGuardCopyDisagreement s
  | .rungExitDone o => Sys2Proof.Machine.execRungExitDone o s
  | .randomSourceRecovery => Sys2Proof.Machine.execRandomSourceRecovery s

end Sys2Proof.Machine
end

