-- ==== Sys2Proof/Machine/Tick.lean ====
section
/-!
DEFINITION. What passes while no command waits: time (R6, R22, R440, R442); and the queue of waiting commands.
-/
namespace Sys2Proof.Machine

namespace State

/-- One nanosecond of device time on both dies: the control die's copy runs while the die is clocked, and DT stands still
in Lantern (assumption 21). -/
def dtTick (s : State) : State :=
  if s.rung = 5 then s else { s with dtF := s.dtF + 1, dtC := if s.rung < 2 then s.dtC + 1 else s.dtC }

/-- The real-time clock's share of a nanosecond: a tick every 1,953,125 / 64 ns (R442); in Lantern its ticks are commands. -/
def rtcTick (s : State) : State :=
  if s.rung = 5 then s
  else
    let f := s.pw.rtcFrac + 64
    if f < 1953125 then { s with pw := { s.pw with rtcFrac := f } }
    else ({ s with pw := { s.pw with rtcFrac := f - 1953125 } } : State).rtcStep

/-- A step without a command: a nanosecond passes. -/
def tick (s : State) : State := s.rtcTick.dtTick

/-- The state with command `c` in front of its queue. -/
def pushFront (s : State) (c : Instr) : State := { s with pending := c :: s.pending }

end State

end Sys2Proof.Machine
end

