-- ==== Sys2Proof/WellFormed.lean ====
section
/-!
DEFINITION. Which commands are well formed: what the types of their operands leave open. The meanings are total; a command
that is not well formed is one that the outside cannot send under that name.
-/
namespace Sys2Proof

/-- A register address: aligned, in the setup space (R33, R37). -/
def setupAddrOk (a : BitVec 32) : Bool := decide (0x08000000 ≤ a.toNat ∧ a.toNat < 0x09000000) && a.toNat % 4 == 0

/-- DIV, DIVU and PMWR name an even register (R257). -/
def evenOk (d : Fin 16) : Bool := d.val % 2 == 0

/-- Banks 0–4 (R254, R255). -/
def bankOk (b : Nat) : Bool := decide (b ≤ 4)

/-- MFB and MTB: a bank, and register field 0 where SP is named (R254). -/
def mbOk (b : Fin 8) (r : Fin 16) (sp : Bool) : Bool := bankOk b.val && (! sp || r.val == 0)

/-- Conditions of Bcc (R256). -/
def condOk (c : Fin 16) : Bool := c.val != 15

/-- Sizes of LDD and STD, and of LDDU (R254). -/
def sizeOk (unsigned : Bool) (z : Fin 4) : Bool := z.val != 3 && (! unsigned || z.val != 0)

/-- Fragments of a token (R482). -/
def fragOk (i n : BitVec 8) (len : Nat) : Bool := decide (1 ≤ n.toNat ∧ n.toNat ≤ 16) && decide (i < n) && decide (len ≤ 1024)

/-- Word counts of a debug READ or WRITE (R482). -/
def countOk (n : Nat) : Bool := decide (1 ≤ n ∧ n ≤ 64)

/-- A host access: 1, 2, 4 or 8 bytes (R365). -/
def hostSizeOk (z : BitVec 4) : Bool := z.toNat == 1 || z.toNat == 2 || z.toNat == 4 || z.toNat == 8

/-- Whether a command is well formed. -/
def Instr.wf : Instr → Bool
  | .registerWrite _ a _ _ _ => setupAddrOk a
  | .div _ d _ | .divu _ d _ | .pmwr _ d _ => evenOk d
  | .spill _ b => bankOk b.val
  | .fill _ b _ => bankOk b.val
  | .mfb _ _ r b sp | .mtb _ _ r b sp => mbOk b r sp
  | .bcc _ c _ => condOk c
  | .ldd _ _ z _ _ _ => sizeOk false z
  | .std _ _ z _ _ => sizeOk false z
  | .lddu _ _ z _ _ _ => sizeOk true z
  | .token _ i n bs => fragOk i n bs.length
  | .read _ _ n => countOk n.toNat
  | .write _ _ ws => countOk ws.length
  | .hostBar0Access _ z _ => hostSizeOk z
  | _ => true

end Sys2Proof
end

