-- ==== Sys2Proof/Safety.lean ====
section
/-!
DEFINITION. The terms in which claims are stated: the canonical form of a state's stores, when a Felrad instruction runs to
its end, which transfer of a link is the oldest of its kind, and what a command leaves alone.
-/
namespace Sys2Proof.Machine

/-! ### The canonical form -/

/-- Every memory of the device and of its hosts is in the canonical form, and so are its registers. -/
def State.Canon (s : State) : Prop :=
  Sparse.wf regReset s.regs = true ∧ Memory.wf s.ram = true ∧ Memory.wf s.lram = true ∧ Memory.wf s.hostMem = true
    ∧ Sparse.wf (fun _ => (0 : Word)) s.farMem = true ∧ Sparse.wf (fun _ => (0 : Syl)) s.pm = true
    ∧ Sparse.wf (fun _ => (0 : Syl)) s.lpm = true ∧ Sparse.wf (fun _ => false) s.poison = true
    ∧ Sparse.wf (fun _ => false) s.pmBad = true

/-- A core is in bank 0–4 at a privilege level that R234 names: 0 U, 1 S, 2 M. -/
def CoreSt.Legal (k : CoreSt) : Prop := k.bk ≤ 4 ∧ k.pl ≤ 2

/-! ### Commands -/

/-- The command answers a next state, of which `P` holds. -/
def Answers (c : Instr) (s : State) (P : State → Prop) : Prop := ∃ t, exec c s = .next t ∧ P t

/-! ### Felrad instructions -/

/-- An instruction of `len` syllables runs to its end at the processor of `e`: the processor is ready, repeats nothing, waits for
no load and no held write, its fetch succeeds, and no register that it reads has a parity error (R308). -/
def Runs (s : State) (e : Exe) (len : Nat) : Prop :=
  let k := s.getCore e.who
  felReady s e.who = true ∧ e.par = false ∧ e.parB = false ∧ k.rp = false ∧ k.loads = [] ∧ k.hwSince = none
    ∧ s.fetchFail e.who k.pc len = none

/-- The processor of `e` is core A or B: the instruction is none that the lamplighter lacks (R258). -/
def OnCore (e : Exe) : Prop := e.who ≠ .lamp

/-- The processor of `e` as an instruction of `len` syllables at its PC is issued: the fetch makes its cache line the last used
of its set (R306), and interrupts can come again. -/
abbrev State.issued (s : State) (e : Exe) (len : Nat) : CoreSt := (s.getCore e.who).issue (s.getCore e.who).pc len

/-- The state in which the body of an instruction of `len` syllables runs. -/
abbrev bodyState (s : State) (e : Exe) (len : Nat) : State := s.setCore e.who (s.issued e len)

/-- The state after an instruction of `len` syllables whose whole effect is `f` on the processor: the PC moves past it. -/
def State.retire (s : State) (e : Exe) (len : Nat) (f : CoreSt → CoreSt) : State :=
  s.setCore e.who { f (s.issued e len) with pc := ((s.getCore e.who).pc + len) % 2 ^ 24 }

/-- The state after a synchronous exception of an instruction of `len` syllables: vector `v`, XPC `xpc`, fault address `fa`; the
vector-table entry meets the upsets that `e` carries (R294). -/
def State.except (s : State) (e : Exe) (len v xpc : Nat) (fa : Word) : State :=
  (bodyState s e len).enter e.who true v xpc fa e.tbl

/-- A signed result does not fit in 32 bits. -/
def overflows (i : Int) : Bool := decide (i < -2 ^ 31 ∨ 2 ^ 31 ≤ i)

/-- Address `a` of processor `c` lies in a yard whose owner group is its own, no handover of it is under way, and no access there
waits now for the cycle of a window test, which would be counted (R334). -/
def YardOwned (s : State) (c : Who) (a : Nat) : Prop :=
  ∃ y, regionOf c a = .yard y ∧ s.handOf y = none ∧ s.ydOwner y = s.groupOf (State.yardMaster c) ∧ s.ydMeets a = false

/-- An access of `n` bytes at `a` stays in yards that processor `c` owns, and meets no watchpoint. -/
def InYards (s : State) (c : Who) (a n : Nat) (rd wr : Bool) : Prop :=
  (∀ p ∈ accParts a n, YardOwned s c p.1) ∧ watched c a rd wr s = false

/-- No 32-bit half of the `n` bytes at `a` is marked poisoned. -/
def Clean (s : State) (a n : Nat) : Prop := ∀ i, i < n → s.isPoison ((a + i) / 4) = false

/-- A near load of value `v` to work register `d` of the current bank: its target is written after the delay slot. -/
def loads (d : Fin 16) (v : Word) (k : CoreSt) : CoreSt :=
  { k with loads := [{ bank := k.bk, rd := d.val, val := some v }] }

/-- What a write of `v` leaves of a word `old` whose bits of `mask` can be written. -/
def putMask (mask old v : Word) : Word := (old &&& ~~~ mask) ||| (v &&& mask)

/-- No unit is in the safe state HOLD: leaving it lets a set that waited transfer, whose edges can release tasks. -/
def NoneHolds (s : State) : Prop := ∀ u, (s.getPu u).safe ≠ 2

/-! ### PWM units and general outputs -/

/-- A unit in its plain state: it alone runs on its counter, it is not safe, none of its event lines is enabled, and no output
uses feedback. -/
def PlainUnit (s : State) (u : Nat) : Prop :=
  s.sharers u = [u] ∧ (s.getPu u).safe = 0 ∧ (s.getPu u).leaving = false
    ∧ (∀ k, k < 4 → s.flag (uEvCfg u k) 31 = false) ∧ ∀ o, o < 6 → s.fbEn u o = false

/-- The set whose register `b` is at `at_ b` is valid for unit `u` (R91, R114, R115): PER of at least 2,000 EU and dead times of at
most 102,000 EU; for a general output on its own counter PER of at least 100 ns. -/
def ValidSet (s : State) (u : Nat) (at_ : Nat → Word) : Prop :=
  if u < 16 then 2000 ≤ (at_ 0).toNat ∧ ∀ o, o < 6 → bitsOf (at_ (9 + o)) 16 0 ≤ 102000
  else 100 ≤ (at_ 0).toNat ∨ s.owner u ≠ u

/-- The control die holds the epoch that the field die accepts, and it is not 0 (R415). -/
def Authorised (s : State) : Prop := s.num A.FG_EPOCH = s.num A.CPL_EPOCH ∧ s.num A.FG_EPOCH ≠ 0

/-- The bits of set register `b` of unit `u` (R119, R120). -/
def setBits (u b : Nat) : Word :=
  if u < 16 then (if b < 9 then 0xFFFFFFFF else if b < 15 then 0x1FFFF else if b = 15 then 0xFFFFF else 0x3FFFF)
  else if b < 5 then 0xFFFFFFFF else if b = 5 then 0xFFFFF else 7

/-! ### Start-up -/

/-- The start-up has halted at `stage` of R459 (R463): no core runs. -/
def Halted (t : State) (stage : Nat) : Prop :=
  t.flag A.SYS_BOOTSTAT 30 = true ∧ t.fld A.SYS_BOOTSTAT 3 0 = stage ∧ t.coreA.run = false

/-- The cores have been started (R465): core A is in bank 0 at M, at SYS_ENTRY. -/
def Started (t : State) : Prop :=
  t.flag A.SYS_BOOTSTAT 31 = true ∧ t.fld A.SYS_BOOTSTAT 3 0 = 11 ∧ t.coreA.run = true ∧ t.coreA.bk = 0 ∧ t.coreA.pl = 2
    ∧ t.coreA.pc = t.fld A.SYS_ENTRY 23 0

/-- How the checks of R462 with outcomes `o` end a start-up; `mem`: the memory self-test runs. -/
def StartEnds (t : State) (o : StartOut) (mem : Bool) : Prop :=
  (o.otpBad = true → Halted t 5)
    ∧ (o.otpBad = false → o.logicOk = false → Halted t 6)
    ∧ (o.otpBad = false → o.logicOk = true → mem = true → o.memOk = false → Halted t 7)
    ∧ (o.otpBad = false → o.logicOk = true → (mem = true → o.memOk = true) → Halted t 8 ∨ Halted t 9 ∨ Started t)

/-- The waybill of words `ws` just fetched from SQ `q`, held for instant `t`. -/
def fetchedWb (s : State) (q : Nat) (ws : List Word) (t : Option Nat) : WbPend :=
  { ord := s.host.ord, sq := q, ws := ws, fetched := s.dtC, t := t }

/-- The engines can use their staging yard (R387, R392): HOSTQ owns it, no handover of it is under way, and no half of it is
poisoned. -/
def State.stagingOk (s : State) : Bool :=
  let y := s.fld A.HQ_CTRL 3 0
  s.ydOwner y == 8 && (s.handOf y).isNone
    && ! s.poison.any (fun e => e.2 && decide (y * 0x40000 ≤ 4 * e.1 ∧ 4 * e.1 < (y + 1) * 0x40000))

/-! ### What commands may change -/

/-- Commands that may change yards, cores and registers alike: Felrad instructions, and what ends their waits. -/
def reachesAll (c : Instr) : Bool :=
  match c with
  | .loadDataArrival .. | .farStoreAck .. | .mov .. | .movi .. | .movsh .. | .add .. | .adc .. | .sub .. | .sbc ..
  | .cmp .. | .addi .. | .cmpi .. | .and .. | .or .. | .xor .. | .andn .. | .tst .. | .andi .. | .ori .. | .xori ..
  | .shl .. | .shr .. | .asr .. | .ror .. | .shi .. | .neg .. | .not .. | .abs .. | .sexb .. | .sexh .. | .zexb ..
  | .zexh .. | .clz .. | .bswap .. | .mul .. | .mulhs .. | .mulhu .. | .mulq .. | .mac0 .. | .mac1 .. | .msu0 .. | .msu1 ..
  | .div .. | .divu .. | .ldw .. | .ldh .. | .ldhu .. | .ldb .. | .ldbu .. | .stw .. | .sth .. | .stb .. | .ldd ..
  | .lddu .. | .std .. | .ldrsv .. | .stcnd .. | .tas .. | .bcc .. | .jmpa .. | .jmp .. | .calla .. | .callr .. | .call ..
  | .ret .. | .rpt .. | .rptWn .. | .repeatIteration .. | .loop .. | .mfs .. | .mts .. | .mfb .. | .mtb .. | .spill ..
  | .fill .. | .trap .. | .retx .. | .brk .. | .ei .. | .di .. | .wfi .. | .fence .. | .nop .. | .pmwr .. | .pmsync ..
  | .interruptEntry .. | .tandemWindowCompare .. | .farDlDown .. | .farAccessTimeout .. | .rungEntry .. | .podlChange ..
  | .porst .. | .powerLoss .. | .write .. | .illegalInstruction .. => true
  | _ => false

/-- Commands at which timetable entries can fire (R54): writes at the field die come after what is due there. -/
def firesEntries (c : Instr) : Bool :=
  match c with
  | .fieldWindowAccess .. | .ttCommit .. | .ttFire .. | .ttFallbackFire .. | .snCfgWrite .. | .wcfgWrite ..
  | .wctlStart .. | .wctlEnd .. | .puCtlWrite .. | .triggerCrossing .. | .puSetWrite .. | .seal .. | .gpGseal ..
  | .blClr .. | .blSsCfgWrite .. | .cwCfgWrite .. | .tcArm .. | .tcRestart .. | .tcCapture .. | .tcTrigger ..
  | .tcCtlWrite .. => true
  | _ => false

/-- Further commands that can pass an event line of a unit, which can release tasks (R111). -/
def passesLines (c : Instr) : Bool :=
  match c with
  | .registerWrite .. | .clkLoss .. | .fSample .. | .puStart .. | .periodBoundary .. | .periodMiddle ..
  | .signalEdge .. | .syncMiss .. | .immediateTransfer .. | .cwCondition .. | .brakeFilter .. | .cwBgTestDone ..
  | .globalStart .. | .hostBar0Access .. | .gsafeUpdate .. | .vsupUv .. | .vsupOv .. | .couplingLoss .. | .claim ..
  | .releaseLimp .. | .limp .. | .safeAllArrival .. | .suspend .. | .rungEntryDone .. | .lnWake .. | .coldStart ..
  | .sysFdrst .. | .rungExitDone .. => true
  | _ => false

/-- Further commands that can make a wake source true, which can end Idle (R436, R441). -/
def wakesCores (c : Instr) : Bool :=
  match c with
  | .registerWrite .. | .fSample .. | .cwCondition .. | .brakeFilter .. | .cwBgTestDone .. | .tcPinEdge ..
  | .countEdge .. | .lateMatch .. | .linkAction .. | .globalStart .. | .vsupUv .. | .rungEntryDone .. | .wakeSource ..
  | .lwSample .. | .rtcAlarm .. | .vsupRise .. => true
  | _ => false

/-- Commands that may change the yards and the NV yard. -/
def reachesYards (c : Instr) : Bool :=
  reachesAll c || firesEntries c || match c with
  | .registerWrite .. | .replayRequest .. | .microwordIssue .. | .waitDeadline .. | .handoverDone ..
  | .yardWindowTest .. | .nvLineWriteDone .. | .hostBar0Access .. | .waybillFetch .. | .waybillEffect ..
  | .consistPeriod .. | .vsupUv .. | .limp .. | .logbookRecordWrite .. | .gdLogclr .. | .rungEntryDone ..
  | .resumeCheckDone .. | .lnWake .. | .coldStart .. | .sysCdrst .. | .fieldDieReady .. | .read .. | .rungExitDone .. => true
  | _ => false

/-- Commands that may change program memory. -/
def reachesProgram (c : Instr) : Bool :=
  reachesAll c || match c with
  | .registerWrite .. | .fieldWindowAccess .. | .replayRequest .. | .pmwrWriteDone .. | .icacheFill .. | .tdSrst ..
  | .pmScrub .. | .hostBar0Access .. | .faultArrival .. | .vsupUv .. | .limp .. | .rungEntryDone ..
  | .resumeCheckDone .. | .lnWake .. | .sysCdrst .. | .rungExitDone .. => true
  | _ => false

/-- Commands that may change the lamplighter's stores. -/
def reachesLampStore (c : Instr) : Bool :=
  reachesAll c || match c with
  | .registerWrite .. | .fieldWindowAccess .. | .lnPgdata .. => true
  | _ => false

/-- Commands that may change host memory. -/
def reachesHost (c : Instr) : Bool :=
  reachesAll c || firesEntries c || passesLines c || match c with
  | .resultDelivery .. | .pSampleTransfer .. | .hkConversionEnd .. | .gatherTimeout .. | .taskDispatch ..
  | .iterationBoundary .. | .reliefAdopted .. | .microwordIssue .. | .waitDeadline .. | .mapLoadDone ..
  | .mpCtrlWrite .. | .hostLinkRetrain .. | .ptmResponse .. | .posthorn .. | .ringEnable .. | .waybillFetch ..
  | .nextUpdateResolve .. | .atAngleTimeout .. | .waybillEffect .. | .wbFenceDone .. | .attestSigned ..
  | .consistPeriod .. | .consistPublish .. | .hqCcmpl .. | .hostDlUp .. => true
  | _ => false

/-- Commands that may change far memory. -/
def reachesFar (c : Instr) : Bool :=
  reachesAll c || firesEntries c || passesLines c || match c with
  | .resultDelivery .. | .gatherTimeout .. | .taskDispatch .. | .iterationBoundary .. | .bogieOverrun ..
  | .reliefAdopted .. | .microwordIssue .. | .waitDeadline .. | .waybillEffect .. | .faultArrival .. => true
  | _ => false

/-- Commands that may change a processor. -/
def reachesCores (c : Instr) : Bool :=
  reachesAll c || firesEntries c || wakesCores c || match c with
  | .replayRequest .. | .microwordIssue .. | .waitDeadline .. | .loopPassEnd .. | .wfiWake .. | .fenceComplete ..
  | .pmwrWriteDone .. | .icacheFill .. | .watchdogExpire .. | .wdkick .. | .tdSrst .. | .tandemResetDone ..
  | .handoverDone .. | .hostBar0Access .. | .waybillFetch .. | .waybillEffect .. | .consistPeriod ..
  | .faultArrival .. | .limp .. | .logbookRecordWrite .. | .gdLogclr .. | .resumeCheckDone .. | .lnWake ..
  | .llStart .. | .llHalt .. | .coldStart .. | .sysCdrst .. | .token .. | .halt .. | .lock .. | .sessionExpiry ..
  | .tamper .. | .serviceLinkDown .. | .rungExitDone .. => true
  | _ => false

/-- Commands that may change the counters. -/
def reachesCounters (c : Instr) : Bool :=
  reachesAll c || firesEntries c || passesLines c || match c with
  | .tcPinEdge .. | .countEdge .. | .lateMatch .. | .linkAction .. | .tcCmpWrite .. => true
  | _ => false

/-- Commands that may change the tracks. -/
def reachesTracks (c : Instr) : Bool :=
  reachesAll c || match c with
  | .registerWrite .. | .fieldWindowAccess .. | .replayRequest .. | .qeAbEdge .. | .qeZEdge .. | .hlStateChange ..
  | .trackEdgeReport .. | .trackWrite .. | .trackWdog .. | .trackStall .. | .trkCfgWrite .. | .hostBar0Access ..
  | .vsupUv .. | .limp .. | .rungEntryDone .. | .resumeCheckDone .. | .lnWake .. | .sysCdrst .. | .sysFdrst ..
  | .rungExitDone .. => true
  | _ => false

/-- Commands that may change the PWM units. -/
def reachesUnits (c : Instr) : Bool :=
  reachesAll c || firesEntries c || passesLines c || match c with
  | .deadTimeEnd .. | .minpEnd .. | .bogieCommit .. | .swFeedbackEdge .. | .swFeedbackDisag .. | .safeTurnOn ..
  | .speedselEval .. => true
  | _ => false

/-- Commands that may change the power ladder. -/
def reachesPower (c : Instr) : Bool :=
  reachesAll c || firesEntries c || wakesCores c || match c with
  | .replayRequest .. | .dtSync .. | .wfiWake .. | .hostBar0Access .. | .faultArrival .. | .limp .. | .pwReq ..
  | .resumeCheckDone .. | .lnWake .. | .lanternDtTick .. | .coldStart .. | .sysCdrst .. | .fieldDieReady ..
  | .faultConditionCleared .. | .rungExitDone .. => true
  | _ => false

/-- Commands that may change the security block. -/
def reachesSecurity (c : Instr) : Bool :=
  reachesAll c || match c with
  | .registerWrite .. | .fieldWindowAccess .. | .replayRequest .. | .nvLineWriteDone .. | .waybillEffect ..
  | .attestSigned .. | .vsupUv .. | .limp .. | .rungEntryDone .. | .resumeCheckDone .. | .lnWake .. | .coldStart ..
  | .sysCdrst .. | .chalReq .. | .token .. | .read .. | .watch .. | .lock .. | .sessionExpiry .. | .tamper ..
  | .chalLockoutEnd .. | .serviceLinkDown .. | .rungExitDone .. | .randomSourceRecovery .. => true
  | _ => false

/-- Commands that may change the map store. -/
def reachesMaps (c : Instr) : Bool :=
  reachesAll c || firesEntries c || passesLines c || match c with
  | .replayRequest .. | .resultDelivery .. | .gatherTimeout .. | .taskDispatch .. | .iterationBoundary ..
  | .bogieOverrun .. | .reliefAdopted .. | .microwordIssue .. | .waitDeadline .. | .mapLoadDone .. | .mpCtrlWrite ..
  | .waybillEffect .. | .faultArrival .. | .resumeCheckDone .. | .sysCdrst .. => true
  | _ => false

/-! ### Transfers -/

/-- The transfer that arrives next on a direction of the link carries `m`; `rest` follow it. -/
def Oldest (l : List Xfer) (m : LinkMsg) (rest : List Xfer) : Prop := ∃ x, l = x :: rest ∧ x.msg = m

/-- A transfer that carries `m` is queued or under way in `l`. -/
def Queued (m : LinkMsg) (l : List Xfer) : Prop := ∃ x ∈ l, x.msg = m

end Sys2Proof.Machine
end

