-- ==== Sys2Proof/Certificates/Slice0/Obligations.lean ====
section
/-!
DEFINITION. What is claimed of the block: the rules of the manual, command family by command family, as statements of what a
command answers from every state and operand that meet conditions on the state and the operands alone, and of what it
leaves alone; and what holds of every step.
-/
open Sys2Proof Sys2Proof.Machine

/-! ### The machine as a whole -/

/-- A step takes the command at the front of the queue and runs it on the state with the queue's rest. -/
def Obligations.StepRunsFrontCommand : Prop :=
  (∀ (c : Instr) (s : State), step (s.pushFront c) = exec c s)
  ∧ ∀ (c : Instr) (rest : List Instr) (s : State), s.pending = c :: rest → step s = exec c { s with pending := rest }

/-- With no command waiting, a step is one nanosecond: R6 advances DT by 1 wherever the field die is powered, the control die's
copy runs while that die is clocked, and memory, cores and queues are as before. The model's choice, assumption 21. -/
def Obligations.IdleStepAdvancesDeviceTime : Prop :=
  ∀ s : State, s.pending = [] →
    ∃ t, step s = .next t ∧ t.pending = []
      ∧ (s.rung ≠ 5 → t.dtF = s.dtF + 1) ∧ (s.rung < 2 → t.dtC = s.dtC + 1) ∧ (2 ≤ s.rung → t.dtC = s.dtC)
      ∧ (s.rung = 5 → t.dtF = s.dtF)
      ∧ t.coreA = s.coreA ∧ t.coreB = s.coreB ∧ t.lamp = s.lamp ∧ (∀ a, t.byteAt a = s.byteAt a)
      ∧ t.toControl = s.toControl ∧ t.toField = s.toField ∧ t.faultQ = s.faultQ

/-- Every command answers a next state, whatever the state and its operands: none ends in a fault or a refusal.

No command touches the queue of waiting commands. -/
def Obligations.EveryCommandAnswersNext : Prop :=
  (
  ∀ (c : Instr) (s : State), ∃ t, exec c s = .next t
  )
  ∧ (
  ∀ (c : Instr) (s t : State), exec c s = .next t → t.pending = s.pending
  )

/-- The canonical form of registers and memories is kept by every step. -/
def Obligations.StepKeepsCanonicalStores : Prop :=
  ∀ s t : State, s.Canon → step s = .next t → t.Canon

/-- After reset (R6, R286, R290, R325, R414, R460) device time is 0, the cores are in bank 0 at level M, both authority epochs are 0, the
field die is in limp with no brake line latched, YD00–YD14 belong to the tandem and YD15 to the guard, the stores are in canonical form,
and no command waits. That core A does not run before the start-up has started it is how the model cuts the start-up, assumption 22. -/
def Obligations.ResetIsCanonicalAndLegal : Prop :=
  State.reset.Canon ∧ State.reset.coreA.Legal ∧ State.reset.coreB.Legal ∧ State.reset.lamp.Legal
    ∧ State.reset.pending = [] ∧ State.reset.dtF = 0 ∧ State.reset.dtC = 0
    ∧ State.reset.coreA.pl = 2 ∧ State.reset.coreA.bk = 0 ∧ State.reset.coreB.pl = 2 ∧ State.reset.coreB.bk = 0
    ∧ State.reset.coreA.run = false ∧ State.reset.num A.CPL_EPOCH = 0 ∧ State.reset.num A.FG_EPOCH = 0
    ∧ State.reset.limp = true ∧ State.reset.anyLine = false ∧ State.reset.rd A.SYS_RSTCAUSE = 0x80000000
    ∧ (∀ n, n < 15 → State.reset.ydOwner n = 0) ∧ State.reset.ydOwner 15 = 10

/-! ### Felrad: moves, arithmetic, logic, shifts, multiply and divide -/

/-- R261: an instruction with flags sets Z when its result is 0 and N to bit 31 of it, C and V where its group gives them a
rule, and no other bit of STAT; it changes nothing else of the processor. -/
def Obligations.FlagsFollowTheResult : Prop :=
  ∀ (k : CoreSt) (x : AluRes),
    bitOf (k.setAlu x).stat 0 = (x.r == 0) ∧ bitOf (k.setAlu x).stat 1 = bitOf x.r 31
    ∧ bitOf (k.setAlu x).stat 2 = x.c.getD (bitOf k.stat 2) ∧ bitOf (k.setAlu x).stat 3 = x.v.getD (bitOf k.stat 3)
    ∧ (∀ b, 4 ≤ b → bitOf (k.setAlu x).stat b = bitOf k.stat b)
    ∧ k.setAlu x = { k with stat := (k.setAlu x).stat }

/-- R264: the moves and the integer arithmetic. An instruction that runs and does not trap writes its register, its flags and the
PC, and nothing else. C is the carry out of bit 31, or for a subtraction that no borrow occurs; V that the signed result does
not fit. -/
def Obligations.MoveAndArithmeticResults : Prop :=
  ∀ (e : Exe) (d w : Fin 16) (v : BitVec 18) (x : Syl) (s : State),
    let k := s.getCore e.who
    let a := k.reg d
    let b := k.reg w
    let cy := bitOf k.stat 2
    let y := x.signExtend 32
    let fits := fun (i : Int) => ¬ (bitOf k.stat 9 = true ∧ overflows i = true)
    (Runs s e 1 →
      exec (.mov e d w) s = .next (s.retire e 1 (fun k => k.setReg d b))
      ∧ (fits (a.toInt + b.toInt) → exec (.add e d w) s = .next (s.retire e 1 (fun k =>
          (k.setAlu ⟨a + b, some (decide (2 ^ 32 ≤ a.toNat + b.toNat)), some (overflows (a.toInt + b.toInt))⟩).setReg d (a + b))))
      ∧ (fits (a.toInt + b.toInt + cy.toNat) → exec (.adc e d w) s = .next (s.retire e 1 (fun k =>
          let r := a + b + BitVec.ofNat 32 cy.toNat
          (k.setAlu ⟨r, some (decide (2 ^ 32 ≤ a.toNat + b.toNat + cy.toNat)),
            some (overflows (a.toInt + b.toInt + cy.toNat))⟩).setReg d r)))
      ∧ (fits (a.toInt - b.toInt) → exec (.sub e d w) s = .next (s.retire e 1 (fun k =>
          (k.setAlu ⟨a - b, some (decide (b.toNat ≤ a.toNat)), some (overflows (a.toInt - b.toInt))⟩).setReg d (a - b))))
      ∧ (fits (a.toInt - b.toInt - (1 - cy.toNat : Int)) → exec (.sbc e d w) s = .next (s.retire e 1 (fun k =>
          let r := a - b - BitVec.ofNat 32 (1 - cy.toNat)
          (k.setAlu ⟨r, some (decide (b.toNat + (1 - cy.toNat) ≤ a.toNat)),
            some (overflows (a.toInt - b.toInt - (1 - cy.toNat : Int)))⟩).setReg d r)))
      ∧ exec (.cmp e d w) s = .next (s.retire e 1 (fun k =>
          k.setAlu ⟨a - b, some (decide (b.toNat ≤ a.toNat)), some (overflows (a.toInt - b.toInt))⟩)))
    ∧ (Runs s e 2 →
      exec (.movi e d v) s = .next (s.retire e 2 (fun k => k.setReg d (v.signExtend 32)))
      ∧ exec (.movsh e d x) s = .next (s.retire e 2 (fun k => k.setReg d ((a <<< 14) ||| x.setWidth 32)))
      ∧ (fits (b.toInt + y.toInt) → exec (.addi e d w x) s = .next (s.retire e 2 (fun k =>
          (k.setAlu ⟨b + y, some (decide (2 ^ 32 ≤ b.toNat + y.toNat)), some (overflows (b.toInt + y.toInt))⟩).setReg d (b + y))))
      ∧ exec (.cmpi e d x) s = .next (s.retire e 2 (fun k =>
          k.setAlu ⟨a - y, some (decide (y.toNat ≤ a.toNat)), some (overflows (a.toInt - y.toInt))⟩)))

/-- R265: the logic instructions write Z and N and leave C and V.

R266: the shifts, column by column of its table: `kind` 0 SHL, 1 SHR, 2 ASR, 3 ROR of `a` by `n` gives `r` with carry `c`
(none: unchanged).

R267: the unary instructions. NEG sets the flags of a subtraction from 0, ABS sets V for the most negative number; both take
vector 11 in its place under OVE (R272). -/
def Obligations.LogicShiftAndUnaryResults : Prop :=
  (
  ∀ (e : Exe) (d w : Fin 16) (x : Syl) (s : State),
    let k := s.getCore e.who
    let a := k.reg d
    let b := k.reg w
    let y : Word := x.setWidth 32
    let writes := fun (n : Nat) (r : Word) => s.retire e n (fun k => (k.setAlu ⟨r, none, none⟩).setReg d r)
    (Runs s e 1 →
      exec (.and e d w) s = .next (writes 1 (a &&& b))
      ∧ exec (.or e d w) s = .next (writes 1 (a ||| b))
      ∧ exec (.xor e d w) s = .next (writes 1 (a ^^^ b))
      ∧ exec (.andn e d w) s = .next (writes 1 (a &&& ~~~ b))
      ∧ exec (.tst e d w) s = .next (s.retire e 1 (fun k => k.setAlu ⟨a &&& b, none, none⟩)))
    ∧ (Runs s e 2 →
      exec (.andi e d w x) s = .next (writes 2 (b &&& y))
      ∧ exec (.ori e d w x) s = .next (writes 2 (b ||| y))
      ∧ exec (.xori e d w x) s = .next (writes 2 (b ^^^ y)))
  )
  ∧ (
  let table := fun (kind n : Nat) (a r : Word) (c : Option Bool) =>
    (n = 0 → r = a ∧ c = none)
    ∧ (1 ≤ n ∧ n ≤ 31 → (kind = 0 → r = a <<< n ∧ c = some (bitOf a (32 - n)))
        ∧ (kind = 1 → r = a >>> n ∧ c = some (bitOf a (n - 1)))
        ∧ (kind = 2 → r = a.sshiftRight n ∧ c = some (bitOf a (n - 1)))
        ∧ (kind = 3 → r = a.rotateRight n ∧ c = some (bitOf r 31)))
    ∧ (n = 32 → (kind = 0 → r = 0 ∧ c = some (bitOf a 0)) ∧ (kind = 1 → r = 0 ∧ c = some (bitOf a 31))
        ∧ (kind = 2 → (∀ j, j < 32 → bitOf r j = bitOf a 31) ∧ c = some (bitOf a 31))
        ∧ (kind = 3 → r = a ∧ c = some (bitOf a 31)))
    ∧ (33 ≤ n → (kind = 0 ∨ kind = 1 → r = 0 ∧ c = some false)
        ∧ (kind = 2 → (∀ j, j < 32 → bitOf r j = bitOf a 31) ∧ c = some (bitOf a 31))
        ∧ (kind = 3 → r = a.rotateRight (n - 32) ∧ c = some (bitOf r 31)))
  ∀ (e : Exe) (d w : Fin 16) (s : State),
    let k := s.getCore e.who
    let a := k.reg d
    let n := bitsOf (k.reg w) 5 0
    let writes := fun (len : Nat) (r : Word) (c : Option Bool) =>
      s.retire e len (fun k => (k.setAlu ⟨r, c, none⟩).setReg d r)
    (Runs s e 1 →
      (∃ r c, table 0 n a r c ∧ exec (.shl e d w) s = .next (writes 1 r c))
      ∧ (∃ r c, table 1 n a r c ∧ exec (.shr e d w) s = .next (writes 1 r c))
      ∧ (∃ r c, table 2 n a r c ∧ exec (.asr e d w) s = .next (writes 1 r c))
      ∧ (∃ r c, table 3 n a r c ∧ exec (.ror e d w) s = .next (writes 1 r c)))
    ∧ ∀ (kind : Fin 4) (amt : Fin 64), Runs s e 2 →
      ∃ r c, table kind amt (k.reg w) r c ∧ exec (.shi e d w kind amt) s = .next (writes 2 r c)
  )
  ∧ (
  ∀ (e : Exe) (d : Fin 16) (s : State),
    let k := s.getCore e.who
    let a := k.reg d
    let min : Bool := a == 0x80000000
    let writes := fun (r : Word) (c v : Option Bool) => s.retire e 1 (fun k => (k.setAlu ⟨r, c, v⟩).setReg d r)
    Runs s e 1 →
      (¬ (bitOf k.stat 9 = true ∧ min = true) →
        exec (.neg e d) s = .next (writes (0 - a) (some (a == 0)) (some min))
        ∧ exec (.abs e d) s = .next (writes (BitVec.ofNat 32 a.toInt.natAbs) none (some min)))
      ∧ (bitOf k.stat 9 = true ∧ min = true →
        exec (.neg e d) s = .next (s.except e 1 11 k.pc 0) ∧ exec (.abs e d) s = .next (s.except e 1 11 k.pc 0))
      ∧ exec (.not e d) s = .next (writes (~~~ a) none none)
      ∧ exec (.sexb e d) s = .next (writes ((a.setWidth 8).signExtend 32) none none)
      ∧ exec (.sexh e d) s = .next (writes ((a.setWidth 16).signExtend 32) none none)
      ∧ exec (.zexb e d) s = .next (writes ((a.setWidth 8).setWidth 32) none none)
      ∧ exec (.zexh e d) s = .next (writes ((a.setWidth 16).setWidth 32) none none)
      ∧ (∃ n : Nat, n ≤ 32 ∧ (∀ j, 32 - n ≤ j → j < 32 → bitOf a j = false) ∧ (n < 32 → bitOf a (31 - n) = true)
          ∧ exec (.clz e d) s = .next (writes (BitVec.ofNat 32 n) none none))
      ∧ (∃ r : Word, bitsOf r 31 24 = bitsOf a 7 0 ∧ bitsOf r 23 16 = bitsOf a 15 8 ∧ bitsOf r 15 8 = bitsOf a 23 16
          ∧ bitsOf r 7 0 = bitsOf a 31 24 ∧ exec (.bswap e d) s = .next (writes r none none))
  )

/-- R268 and R269: the products and the accumulators of cores A and B, where nothing traps. MULQ rounds half toward +∞ and
saturates; MAC and MSU saturate under SAT0 or SAT1 and otherwise wrap; the accumulators' instructions write no work
register.

R270 and R271: DIV and DIVU of an even register write the quotient to it and the remainder to the next one; DZ tells of a
divisor of 0, V of the one quotient that does not fit. -/
def Obligations.MultiplyAndDivideResults : Prop :=
  (
  ∀ (e : Exe) (d w : Fin 16) (s : State),
    let k := s.getCore e.who
    let a := k.reg d
    let b := k.reg w
    let p := a.toInt * b.toInt
    let q := (p + 2 ^ 30) / 2 ^ 31
    let fits := fun (v : Bool) => ¬ (bitOf k.stat 9 = true ∧ v = true)
    let writes := fun (r : Word) (v : Bool) => s.retire e 1 (fun k => (k.setAlu ⟨r, none, some v⟩).setReg d r)
    let big := fun (x : Int) => decide (x < -2 ^ 63 ∨ 2 ^ 63 ≤ x)
    let kept := fun (x : Int) (sat : Bool) =>
      if big x && sat then (if x < 0 then BitVec.ofInt 64 (-2 ^ 63) else BitVec.ofInt 64 (2 ^ 63 - 1)) else BitVec.ofInt 64 x
    let flags := fun (y : BitVec 64) (v : Bool) (k : CoreSt) =>
      ((k.setStat 0 0 (y == 0).toNat).setStat 1 1 (y.getLsbD 63).toNat).setStat 3 3 v.toNat
    let acc0 := fun (x : Int) =>
      s.retire e 1 (fun k => flags (kept x (bitOf k.stat 5)) (big x) { k with a0 := kept x (bitOf k.stat 5) })
    let acc1 := fun (x : Int) =>
      s.retire e 1 (fun k => flags (kept x (bitOf k.stat 6)) (big x) { k with a1 := kept x (bitOf k.stat 6) })
    Runs s e 1 → OnCore e →
      (fits (overflows p) → exec (.mul e d w) s = .next (writes (BitVec.ofInt 32 p) (overflows p)))
      ∧ exec (.mulhs e d w) s = .next (writes (BitVec.ofInt 32 (p / 2 ^ 32)) false)
      ∧ exec (.mulhu e d w) s = .next (writes (BitVec.ofNat 32 (a.toNat * b.toNat / 2 ^ 32)) false)
      ∧ (fits (decide (q = 2 ^ 31)) →
          exec (.mulq e d w) s = .next (writes (if q = 2 ^ 31 then 0x7FFFFFFF else BitVec.ofInt 32 q) (decide (q = 2 ^ 31))))
      ∧ (fits (big (k.a0.toInt + p)) → exec (.mac0 e d w) s = .next (acc0 (k.a0.toInt + p)))
      ∧ (fits (big (k.a1.toInt + p)) → exec (.mac1 e d w) s = .next (acc1 (k.a1.toInt + p)))
      ∧ (fits (big (k.a0.toInt - p)) → exec (.msu0 e d w) s = .next (acc0 (k.a0.toInt - p)))
      ∧ (fits (big (k.a1.toInt - p)) → exec (.msu1 e d w) s = .next (acc1 (k.a1.toInt - p)))
  )
  ∧ (
  ∀ (e : Exe) (d w : Fin 16) (s : State),
    let k := s.getCore e.who
    let a := k.reg d
    let b := k.reg w
    let v : Bool := a == 0x80000000 && b == 0xFFFFFFFF
    let writes := fun (q r : Word) (v : Bool) => s.retire e 1 (fun k =>
      ((((k.setAlu ⟨q, none, some v⟩).setStat 4 4 (b == 0).toNat).setReg d q).setReg (d.val + 1) r))
    Runs s e 1 → OnCore e → d.val % 2 = 0 → ¬ (b = 0 ∧ bitOf k.stat 8 = true) →
      (¬ (v = true ∧ bitOf k.stat 9 = true) → exec (.div e d w) s = .next (
        if b = 0 then writes (if bitOf a 31 then 0x80000000 else 0x7FFFFFFF) a false
        else if v then writes 0x80000000 0 true
        else writes (BitVec.ofInt 32 (a.toInt.tdiv b.toInt)) (BitVec.ofInt 32 (a.toInt.tmod b.toInt)) false))
      ∧ exec (.divu e d w) s = .next (
        if b = 0 then writes 0xFFFFFFFF a false
        else writes (BitVec.ofNat 32 (a.toNat / b.toNat)) (BitVec.ofNat 32 (a.toNat % b.toNat)) false)
  )

/-- R272 and R257: where arithmetic traps. With OVE = 1 a result that would set V takes vector 11, with DZE = 1 a division by 0
takes vector 10, and a division of an odd register takes vector 4; no register, accumulator or flag is written before the
entry. -/
def Obligations.ArithmeticTraps : Prop :=
  ∀ (e : Exe) (d w : Fin 16) (x : Syl) (s : State),
    let k := s.getCore e.who
    let a := k.reg d
    let b := k.reg w
    let cy := bitOf k.stat 2
    let p := a.toInt * b.toInt
    let big := fun (x : Int) => x < -2 ^ 63 ∨ 2 ^ 63 ≤ x
    let trapAt := fun (len v : Nat) => Host.Outcome.next (s.except e len v k.pc 0)
    let trap := trapAt 1
    (bitOf k.stat 9 = true → Runs s e 2 →
      overflows (b.toInt + (x.signExtend 32).toInt) = true → exec (.addi e d w x) s = trapAt 2 11)
    ∧ (bitOf k.stat 9 = true → Runs s e 1 →
      (overflows (a.toInt + b.toInt) = true → exec (.add e d w) s = trap 11)
      ∧ (overflows (a.toInt + b.toInt + cy.toNat) = true → exec (.adc e d w) s = trap 11)
      ∧ (overflows (a.toInt - b.toInt) = true → exec (.sub e d w) s = trap 11)
      ∧ (overflows (a.toInt - b.toInt - (1 - cy.toNat : Int)) = true → exec (.sbc e d w) s = trap 11)
      ∧ (OnCore e →
        (overflows p = true → exec (.mul e d w) s = trap 11)
        ∧ ((p + 2 ^ 30) / 2 ^ 31 = 2 ^ 31 → exec (.mulq e d w) s = trap 11)
        ∧ (big (k.a0.toInt + p) → exec (.mac0 e d w) s = trap 11)
        ∧ (big (k.a1.toInt + p) → exec (.mac1 e d w) s = trap 11)
        ∧ (big (k.a0.toInt - p) → exec (.msu0 e d w) s = trap 11)
        ∧ (big (k.a1.toInt - p) → exec (.msu1 e d w) s = trap 11)
        ∧ (d.val % 2 = 0 → a = 0x80000000 → b = 0xFFFFFFFF → exec (.div e d w) s = trap 11)))
    ∧ (Runs s e 1 → OnCore e →
      (d.val % 2 = 1 → exec (.div e d w) s = trap 4 ∧ exec (.divu e d w) s = trap 4)
      ∧ (d.val % 2 = 0 → b = 0 → bitOf k.stat 8 = true → exec (.div e d w) s = trap 10 ∧ exec (.divu e d w) s = trap 10))

/-! ### Felrad: loads, stores and atomics -/

/-- R273, R237: a load from owned yards puts the bytes at its address, extended as its row says, into the load slot; LDRSV reserves
its granule besides (R276). Nothing else changes but the PC.

R237: a near load is written after the instruction in its delay slot, which still reads the old value. -/
def Obligations.YardLoadsTakeTheirBytes : Prop :=
  (
  ∀ (e : Exe) (d b : Fin 16) (x : Syl) (s : State), Runs s e 2 →
    let near := fun (a n : Nat) => InYards s e.who a n true false ∧ Clean s a n
    let half := fun (a : Nat) => BitVec.ofNat 16 (s.bytesAt a 2)
    let byte := fun (a : Nat) => BitVec.ofNat 8 (s.bytesAt a 1)
    let done := fun (v : Word) => Host.Outcome.next (s.retire e 2 (loads d v))
    let a := eaRd e.who b x s
    (near a 4 → exec (.ldw e d b x 0) s = done (BitVec.ofNat 32 (s.bytesAt a 4)))
    ∧ (near a 2 → exec (.ldh e d b x 0) s = done ((half a).signExtend 32)
        ∧ exec (.ldhu e d b x 0) s = done ((half a).setWidth 32))
    ∧ (near a 1 → exec (.ldb e d b x 0) s = done ((byte a).signExtend 32)
        ∧ exec (.ldbu e d b x 0) s = done ((byte a).setWidth 32))
    ∧ (near a 4 → a % 4 = 0 → exec (.ldrsv e d b x 0) s =
        .next (s.retire e 2 (fun k => { loads d (BitVec.ofNat 32 (s.bytesAt a 4)) k with resv := some (a / 64) })))
    ∧ ∀ db : Fin 4,
      let a := eaDd e.who db x s
      (near a 4 → exec (.ldd e d 0 db x 0) s = done (BitVec.ofNat 32 (s.bytesAt a 4)))
      ∧ (near a 2 → exec (.ldd e d 1 db x 0) s = done ((half a).signExtend 32)
          ∧ exec (.lddu e d 1 db x 0) s = done ((half a).setWidth 32))
      ∧ (near a 1 → exec (.ldd e d 2 db x 0) s = done ((byte a).signExtend 32)
          ∧ exec (.lddu e d 2 db x 0) s = done ((byte a).setWidth 32))
  )
  ∧ (
  ∀ (c : Who) (d w : Fin 16) (v : Word) (s : State),
    let k := s.getCore c
    felReady s c = true → k.rp = false → k.hwSince = none → s.fetchFail c k.pc 1 = none →
    k.loads = [{ bank := k.bk, rd := d.val, val := some v }] →
    (∃ t, exec (.nop { who := c }) s = .next t ∧ (t.getCore c).reg d = v ∧ (t.getCore c).loads = []
      ∧ (∀ n, n ≠ d.val → (t.getCore c).reg n = k.reg n) ∧ (t.getCore c).pc = (k.pc + 1) % 2 ^ 24
      ∧ (t.getCore c).stat = k.stat ∧ ∀ a, t.byteAt a = s.byteAt a)
    ∧ (w ≠ d → ∃ t, exec (.mov { who := c } w d) s = .next t ∧ (t.getCore c).reg w = k.reg d ∧ (t.getCore c).reg d = v)
  )

/-- R273, R276, R277: a store to owned yards writes the low bytes of wd at its address; STCND writes only while the granule is
reserved, and Z tells; TAS reads the byte and writes 0xFF. Besides the stored bytes only the PC, the named flag and
register and reservations on the granule change.

What a store to a yard changes: the bytes at its address, the poison marks of the 32-bit halves that it covers whole (R332), and
reservations on the granules that it touches (R277). -/
def Obligations.YardStoresWriteTheirBytes : Prop :=
  (
  ∀ (e : Exe) (d b : Fin 16) (x : Syl) (s : State), Runs s e 2 →
    let k := s.getCore e.who
    let stores := fun (a n : Nat) => InYards s e.who a n false true
    let done := fun (a n : Nat) =>
      Host.Outcome.next ((s.storeYard a (numBytes n (k.reg d).toNat)).retire e 2 (fun k => k))
    let a := eaRd e.who b x s
    (stores a 4 → exec (.stw e d b x) s = done a 4)
    ∧ (stores a 2 → exec (.sth e d b x) s = done a 2)
    ∧ (stores a 1 → exec (.stb e d b x) s = done a 1)
    ∧ (∀ db : Fin 4,
        let a := eaDd e.who db x s
        (stores a 4 → exec (.std e d 0 db x) s = done a 4)
        ∧ (stores a 2 → exec (.std e d 1 db x) s = done a 2)
        ∧ (stores a 1 → exec (.std e d 2 db x) s = done a 1))
    ∧ (stores a 4 → a % 4 = 0 → k.resv = some (a / 64) → exec (.stcnd e d b x) s =
        .next ((s.storeYard a (numBytes 4 (k.reg d).toNat)).retire e 2
          (fun k => { k.setStat 0 0 1 with resv := none })))
    ∧ (stores a 4 → a % 4 = 0 → k.resv ≠ some (a / 64) → exec (.stcnd e d b x) s =
        .next (s.retire e 2 (fun k => { k.setStat 0 0 0 with resv := none })))
    ∧ (InYards s e.who a 1 true true → Clean s a 1 → exec (.tas e d b x 0) s =
        .next ((s.storeYard a [0xFF]).retire e 2
          (fun k => (loads d (BitVec.ofNat 32 (s.bytesAt a 1)) k).setStat 0 0 (s.byteAt a == 0).toNat)))
  )
  ∧ (
  ∀ (s : State) (a : Nat) (bs : List Byte),
    let t := s.storeYard a bs
    let in_ := fun (x : Nat) => a ≤ x ∧ x < a + bs.length
    (∀ i, i < bs.length → Sparse.get (fun _ => 0) t.ram (a + i) = bs.getD i 0)
    ∧ (∀ x, ¬ in_ x → t.byteAt x = s.byteAt x)
    ∧ (∀ h, in_ (4 * h) ∧ in_ (4 * h + 3) → t.isPoison h = false)
    ∧ (∀ h, ¬ (in_ (4 * h) ∧ in_ (4 * h + 3)) → t.isPoison h = s.isPoison h)
    ∧ (∀ c : Who, (t.getCore c).resv = (s.getCore c).resv
        ∨ (t.getCore c).resv = none ∧ ∃ g, (s.getCore c).resv = some g ∧ ∃ x, x / 64 = g ∧ (in_ x ∨ bs = []))
    ∧ (Memory.wf s.ram = true → Memory.wf t.ram = true)
    ∧ t = { s with ram := t.ram, poison := t.poison,
                   coreA := { s.coreA with resv := t.coreA.resv }, coreB := { s.coreB with resv := t.coreB.resv } }
  )

/-- R240, R258, R259: the lamplighter loads and stores in its own SRAM. -/
def Obligations.LamplighterLoadsAndStoresItsSram : Prop :=
  ∀ (d b : Fin 16) (x : Syl) (s : State),
    let e : Exe := { who := .lamp }
    let a := eaRd .lamp b x s
    let r := fun (i : Nat) => Sparse.get (fun _ => (0 : Byte)) s.lram (a + i)
    Runs s e 2 → a + 4 ≤ 0x2000 →
      exec (.ldw e d b x 0) s = .next (s.retire e 2 (loads d ((r 3) ++ (r 2) ++ (r 1) ++ (r 0))))
      ∧ exec (.ldbu e d b x 0) s = .next (s.retire e 2 (loads d ((r 0).setWidth 32)))
      ∧ ∃ t, exec (.stw e d b x) s = .next t
          ∧ (∀ i, i < 4 → Sparse.get (fun _ => (0 : Byte)) t.lram (a + i) = BitVec.ofNat 8 ((s.lamp.reg d).toNat / 256 ^ i))
          ∧ (∀ y, y < a ∨ a + 4 ≤ y → Sparse.get (fun _ => (0 : Byte)) t.lram y = Sparse.get (fun _ => 0) s.lram y)
          ∧ t.lamp.pc = (s.lamp.pc + 2) % 2 ^ 24 ∧ (∀ n, t.lamp.reg n = s.lamp.reg n) ∧ t.lamp.stat = s.lamp.stat
          ∧ t.coreA = s.coreA ∧ t.coreB = s.coreB ∧ t.regs = s.regs ∧ ∀ y, t.byteAt y = s.byteAt y

/-- R33, R34, R37, R241, R274, R276: accesses that a core may not make take vector 7, or 6 for an atomic that is not aligned and for a far
access over the end of its line, with the address as fault address, and write nothing.

R326, R274: a store to a yard of another group takes vector 7; it is counted and recorded, and no byte changes. -/
def Obligations.ForbiddenAndNonOwnerAccesses : Prop :=
  (
  ∀ (e : Exe) (d b : Fin 16) (x : Syl) (s : State), Runs s e 2 → OnCore e →
    let k := s.getCore e.who
    let a := eaRd e.who b x s
    let trap := fun (v : Nat) => Host.Outcome.next (s.except e 2 v k.pc (BitVec.ofNat 32 a))
    (regionOf e.who a = .none →
      exec (.ldw e d b x 0) s = trap 7 ∧ exec (.ldbu e d b x 0) s = trap 7
      ∧ exec (.stw e d b x) s = trap 7 ∧ exec (.stb e d b x) s = trap 7)
    ∧ (regionOf e.who a = .ctx ∨ regionOf e.who a = .cache →
      exec (.stw e d b x) s = trap 7 ∧ exec (.sth e d b x) s = trap 7 ∧ exec (.stb e d b x) s = trap 7)
    ∧ (regionOf e.who a = .setup → a % 4 ≠ 0 → exec (.ldw e d b x 0) s = trap 7 ∧ exec (.stw e d b x) s = trap 7)
    ∧ (regionOf e.who a = .setup → exec (.ldh e d b x 0) s = trap 7 ∧ exec (.stb e d b x) s = trap 7)
    ∧ (regionOf e.who a = .setup → mOnly a = true → k.pl ≠ 2 → exec (.stw e d b x) s = trap 7)
    ∧ (regionOf e.who a = .setup ∨ regionOf e.who a = .nv → k.pl = 0 →
      exec (.ldw e d b x 0) s = trap 7 ∧ exec (.stw e d b x) s = trap 7)
    ∧ (a % 4 ≠ 0 → exec (.ldrsv e d b x 0) s = trap 6)
    ∧ (a % 4 = 0 → regionOf e.who a = .nv ∨ regionOf e.who a = .setup ∨ regionOf e.who a = .ctx →
      exec (.ldrsv e d b x 0) s = trap 7)
    ∧ (regionOf e.who a = .far → a / 64 ≠ (a + 3) / 64 → exec (.ldw e d b x 0) s = trap 6 ∧ exec (.stw e d b x) s = trap 6)
    ∧ (regionOf e.who a = .far → a / 64 = (a + 3) / 64 → s.farUp = false →
      exec (.ldw e d b x 0) s = trap 12 ∧ exec (.stw e d b x) s = trap 12)
  )
  ∧ (
  ∀ (e : Exe) (d b : Fin 16) (x : Syl) (s : State), Runs s e 2 →
    let a := eaRd e.who b x s
    ∀ y, regionOf e.who a = .yard y → s.handOf y = none → s.ydOwner y ≠ s.groupOf (State.yardMaster e.who) →
      ∃ u : State, exec (.stw e d b x) s = .next (u.enter e.who true 7 (s.getCore e.who).pc (BitVec.ofNat 32 a) e.tbl)
        ∧ u.fld A.YD_ACCCNT 31 0 = min (s.fld A.YD_ACCCNT 31 0 + 1) (2 ^ 32 - 1)
        ∧ (s.flag A.YD_ACCERR 31 = false → u.flag A.YD_ACCERR 31 = true ∧ u.num A.YD_ACCADDR = a)
        ∧ (s.flag A.YD_ACCERR 31 = true → u.rd A.YD_ACCERR = s.rd A.YD_ACCERR ∧ u.rd A.YD_ACCADDR = s.rd A.YD_ACCADDR)
        ∧ u.faultQ = s.faultQ ++ [⟨0x42, y, s.dtC, false⟩] ∧ ∀ z, u.byteAt z = s.byteAt z
  )

/-- R38, R39: a core's access to a register of the control die reads or writes it under that register's rule; one to the field window
travels over the link, a load waiting for its data and a store posted.

R238, R274, R275: a far load or store that may leave makes the core wait; the data of a load and the acknowledgement of a store end
the wait, and the end of the link ends it with vector 12. -/
def Obligations.SetupSpaceAndFarAccesses : Prop :=
  (
  ∀ (e : Exe) (d b : Fin 16) (x : Syl) (s : State), Runs s e 2 → OnCore e →
    let k := s.getCore e.who
    let a := eaRd e.who b x s
    let s0 := bodyState s e 2
    regionOf e.who a = .setup → a % 4 = 0 → k.pl = 2 → s.mem.held = [] →
      (watched e.who a true false s = false → inField a = false →
        ∃ t, exec (.ldw e d b x 0) s = .next t
          ∧ (t.getCore e.who).loads = [{ bank := k.bk, rd := d.val, val := some (readReg (masterOf e.who) a s0).1 }]
          ∧ (t.getCore e.who).pc = (k.pc + 2) % 2 ^ 24)
      ∧ (watched e.who a true false s = false → inField a = true → s.linkUp = true →
        exec (.ldw e d b x 0) s = .next ((s.sendF (LinkMsg.regRead (masterOf e.who) a)).retire e 2
          (fun k => { k with loads := [{ bank := k.bk, rd := d.val, val := none }] })))
      ∧ (watched e.who a false true s = false → inField a = true → s.linkUp = true → s.unhitched = true →
        exec (.stw e d b x) s = .next ((s.sendF (LinkMsg.regWrite (masterOf e.who) a (k.reg d)
            (some (s.num A.CPL_EPOCH)))).retire e 2 (fun k => k)))
      ∧ (watched e.who a false true s = false → guardClass a = true → s.unhitched = false →
        ∃ t, exec (.stw e d b x) s = .next t
          ∧ t.mem.held = [.store s.dtC a (numBytes 4 (k.reg d).toNat)] ∧ t.toField = s.toField
          ∧ (t.getCore e.who).pc = (k.pc + 2) % 2 ^ 24)
  )
  ∧ (
  (∀ (e : Exe) (d b : Fin 16) (x : Syl) (s : State), Runs s e 2 → OnCore e →
    let k := s.getCore e.who
    let a := eaRd e.who b x s
    let off := farOff a s
    regionOf e.who a = .far → a / 64 = (a + 3) / 64 → s.farUp = true → off < s.farCap →
      (watched e.who a true false s = false → exec (.ldw e d b x 0) s =
        .next (s.setCore e.who { s.issued e 2 with wait := .farLoad 0 k.bk d.val a .word, farAt := s.dtC }))
      ∧ (watched e.who a false true s = false → s.inArea off = false → exec (.stw e d b x) s =
        .next (s.setCore e.who { s.issued e 2 with wait := .farStore a (numBytes 4 (k.reg d).toNat) false, farAt := s.dtC })))
  ∧ (∀ (c : Who) (b d a : Nat) (s : State),
      let k := s.getCore c
      let off := farOff a s
      (∀ x ∈ s.toControl, ∀ a v, x.msg ≠ .readData (masterOf c) a v) → k.run = true → k.rp = false → k.loads = [] → k.hwSince = none →
      s.farUp = true →
      (k.wait = .farLoad 0 b d a .word → Sparse.get (fun _ => false) s.farPoison (off / 64) = false →
        ∃ t, exec (.loadDataArrival { who := c } false) s = .next t
          ∧ (t.getCore c).wreg b d = BitVec.ofNat 32 (farNum off 4 s) ∧ (t.getCore c).wait = .none
          ∧ (t.getCore c).pc = (k.pc + 2) % 2 ^ 24 ∧ (t.getCore c).stat = k.stat
          ∧ (∀ n, n ≠ d → (t.getCore c).wreg b n = k.wreg b n) ∧ t.farMem = s.farMem ∧ ∀ y, t.byteAt y = s.byteAt y)
      ∧ (∀ bs, k.wait = .farStore a bs false →
        ∃ t, exec (.farStoreAck { who := c }) s = .next t
          ∧ (∀ y, farByte y t = if off ≤ y ∧ y < off + bs.length then bs.getD (y - off) 0 else farByte y s)
          ∧ (t.getCore c).wait = .none ∧ (t.getCore c).pc = (k.pc + 2) % 2 ^ 24 ∧ (∀ n, (t.getCore c).reg n = k.reg n)
          ∧ (t.getCore c).stat = k.stat ∧ ∀ y, t.byteAt y = s.byteAt y)
      ∧ (∀ kind x, k.wait = .farLoad kind b d a x → k.farAt + 1000 * max 1 (s.fld A.LK_FARTO 15 0) ≤ s.dtC →
        exec (.farAccessTimeout (some { who := c })) s = .next (s.enter c true 12 k.pc (BitVec.ofNat 32 a)))
      ∧ (∀ bs cnd up, k.wait = .farStore a bs cnd →
        exec (.farStoreAck ⟨c, true, up⟩) s = .next (s.enter c true 12 k.pc (BitVec.ofNat 32 a) up)))
  ∧ (∀ s : State, (∀ b, b < 5 → ∀ st ∈ (Sparse.get (fun _ => ({} : BogHid)) s.bog b).stations, st.miss = true →
        9 * s.dtC < st.iss + 9 * (1000 * max 1 (s.fld A.LK_FARTO 15 0))) →
      ∃ t, exec (.farAccessTimeout none) s = .next t ∧ t.regs = s.regs ∧ t.maps = s.maps)
  -- no lookup waits for longer than LK_FARTO
  ∧ (∀ s : State, ∃ t, exec (.farAccessTimeout none) s = .next t ∧ ∀ b, b < 5 →
      ∀ st ∈ (Sparse.get (fun _ => ({} : BogHid)) t.bog b).stations, st.miss = true → 9 * s.dtC < st.iss + 9 * (1000 * max 1 (s.fld A.LK_FARTO 15 0)))
  ∧ ∀ s : State, s.flag A.LK_FARSTAT 31 = true → s.coreA.wait = .none → s.coreB.wait = .none →
      exec .farDlDown s = .next (farDown s) ∧ (farDown s).flag A.LK_FARSTAT 31 = false
        ∧ (farDown s).flag A.LK_FARSTAT 27 = true ∧ (farDown s).faultQ = s.faultQ ++ [⟨0x81, 0, s.dtC, false⟩]
        ∧ (farDown s).fetches = []
  )

/-! ### Felrad: control transfer, banks, special registers, traps, repeats, program memory -/

/-- R256, R278: a branch is taken when its condition holds, relative to the next instruction; jumps take their target. Nothing but
the PC changes.

R279, R300: a call pushes the address of the next instruction on the stack and, where shadow checking acts, on the shadow stack of
its bank, of which the core holds the newest 64 entries (R301), and takes its target; RET checks the word at SP against that
stack's newest entry, pops both and takes it, and takes vector 2 where they differ. A stack outside owned yards, below SFLOOR or not word-aligned takes vector 13. -/
def Obligations.BranchesCallsAndReturns : Prop :=
  (
  ∀ (e : Exe) (cond n : Fin 16) (off : BitVec 18) (tg : BitVec 22) (s : State),
    let k := s.getCore e.who
    let z := bitOf k.stat 0
    let f := bitOf k.stat 1
    let c := bitOf k.stat 2
    let v := bitOf k.stat 3
    let holds : List Bool := [z, ! z, c, ! c, f, ! f, v, ! v, c && ! z, ! c || z, f == v, f != v, ! z && f == v, z || f != v, true]
    let goes := fun (len pc : Nat) => Host.Outcome.next (s.setCore e.who { s.issued e len with pc := pc })
    let next := ((k.pc : Int) + 2 + off.toInt) % 2 ^ 24
    (Runs s e 2 →
      (cond.val ≠ 15 → exec (.bcc e cond off) s =
        goes 2 (if holds.getD cond.val false then next.toNat else (k.pc + 2) % 2 ^ 24))
      ∧ (cond.val = 15 → exec (.bcc e cond off) s = .next (s.except e 2 4 k.pc 0))
      ∧ exec (.jmpa e tg) s = goes 2 tg.toNat)
    ∧ (Runs s e 1 → exec (.jmp e n) s = goes 1 (bitsOf (k.reg n) 23 0))
  )
  ∧ (
  ∀ (e : Exe) (n : Fin 16) (off : BitVec 18) (tg : BitVec 22) (s : State), OnCore e →
    let k := s.getCore e.who
    let a := (k.sp - 4).toNat
    let x := s.ssOf e.who k.bk
    let room := a % 4 = 0 ∧ k.sfloor.toNat ≤ a ∧ YardOwned s e.who a ∧ watched e.who a false true s = false
    let pushed := fun (ret pc : Nat) (t : State) =>
      (t.getCore e.who).pc = pc ∧ (t.getCore e.who).sp = k.sp - 4 ∧ (∀ m, (t.getCore e.who).reg m = k.reg m)
      ∧ (t.getCore e.who).stat = k.stat
      ∧ (∀ i, i < 4 → Sparse.get (fun _ => 0) t.ram (a + i) = BitVec.ofNat 8 (ret / 256 ^ i))
      ∧ (s.ssOn = false ∨ (s.ssGet x).length < 64 → ∀ y, y < a ∨ a + 4 ≤ y → t.byteAt y = s.byteAt y)
      ∧ t.ssGet x = (if s.ssOn then (ret :: s.ssGet x).take 64 else s.ssGet x)
      ∧ ((s.ssGet x).length ≤ 64 → 6 ≤ s.fld A.TD_SSCFG 3 0 → s.ssDepth x ≤ 2 ^ s.fld A.TD_SSCFG 3 0 →
          t.ssDepth x = if s.ssOn then min (s.ssDepth x + 1) (2 ^ s.fld A.TD_SSCFG 3 0) else s.ssDepth x)
    (Runs s e 2 →
      (room → (∃ t, exec (.calla e tg) s = .next t ∧ pushed ((k.pc + 2) % 2 ^ 24) tg.toNat t)
        ∧ ∃ t, exec (.callr e off) s = .next t
            ∧ pushed ((k.pc + 2) % 2 ^ 24) (((k.pc : Int) + 2 + off.toInt) % 2 ^ 24).toNat t)
      ∧ (a % 4 ≠ 0 ∨ a < k.sfloor.toNat →
          exec (.calla e tg) s = .next (s.except e 2 13 k.pc (k.sp - 4))
          ∧ exec (.callr e off) s = .next (s.except e 2 13 k.pc (k.sp - 4))))
    ∧ (Runs s e 1 →
      (room → ∃ t, exec (.call e n) s = .next t ∧ pushed ((k.pc + 1) % 2 ^ 24) (bitsOf (k.reg n) 23 0) t)
      ∧ (let p := k.sp.toNat
         let v := s.bytesAt p 4
         let open_ := p % 4 = 0 ∧ k.sfloor.toNat ≤ p ∧ YardOwned s e.who p ∧ watched e.who p true false s = false ∧ Clean s p 4
         (open_ → (s.ssOn = true → (s.ssGet x).head? = some v) →
            ∃ t, exec (.ret e 0) s = .next t ∧ (t.getCore e.who).pc = v % 2 ^ 24 ∧ (t.getCore e.who).sp = k.sp + 4
              ∧ (∀ m, (t.getCore e.who).reg m = k.reg m) ∧ (t.getCore e.who).stat = k.stat
              ∧ (s.ssOn = false ∨ (s.ssOld x).2 = 0 →
                  t.ssGet x = (if s.ssOn then (s.ssGet x).tail else s.ssGet x) ∧ ∀ y, t.byteAt y = s.byteAt y))
         ∧ (open_ → s.ssOn = true → (s.ssGet x).head? ≠ some v →
            exec (.ret e 0) s = .next (s.except e 1 2 k.pc (BitVec.ofNat 32 v)))
         ∧ (p % 4 ≠ 0 ∨ p < k.sfloor.toNat → exec (.ret e 0) s = .next (s.except e 1 13 k.pc k.sp))))
  )

/-- R233–R235, R281: MFS and MTS move between work registers and the special registers under the levels of R233, MFB and MTB between
the current bank and another one; below the level they take vector 5, and BK is not written.

R282: SPILL stores w0–w15, XPC and XST of another bank below SP, and FILL loads them back; the current bank itself takes vector
4.

Bit 7 of XST is deduced, assumption 96. -/
def Obligations.SpecialRegistersAndBanks : Prop :=
  (
  ∀ (e : Exe) (d w : Fin 16) (b : Fin 8) (s : State), OnCore e →
    let k := s.getCore e.who
    let trapAt := fun (len v : Nat) => Host.Outcome.next (s.except e len v k.pc 0)
    let trap := trapAt 1
    let r : Word := k.reg w
    let half := fun (x : BitVec 64) (lo : Nat) => x.extractLsb' lo 32
    let reads : List Word := [k.stat, k.vtb, Sparse.get (fun _ => 0) k.db 0, Sparse.get (fun _ => 0) k.db 1,
      Sparse.get (fun _ => 0) k.db 2, Sparse.get (fun _ => 0) k.db 3, k.sp, half k.a0 0, half k.a0 32, half k.a1 0, half k.a1 32,
      k.sfloor, (k.bank k.bk).xpc, (k.bank k.bk).xst, BitVec.ofNat 32 k.bk, k.ls]
    let readLevel := fun (n : Nat) => if n = 1 ∨ n = 12 ∨ n = 13 then 1 else 0
    let writeLevel := fun (n : Nat) => if n = 1 then 2 else if n = 11 ∨ n = 12 ∨ n = 13 ∨ n = 15 then 1 else 0
    let writes := fun (f : CoreSt → CoreSt) => Host.Outcome.next (s.retire e 1 f)
    (Runs s e 1 →
      (readLevel w.val ≤ k.pl → exec (.mfs e d w) s = writes (fun k => k.setReg d (reads.getD w.val 0)))
      ∧ (k.pl < readLevel w.val → exec (.mfs e d w) s = trap 5)
      ∧ exec (.mts e 14 w) s = trap 4
      ∧ (d.val ≠ 14 → k.pl < writeLevel d.val → exec (.mts e d w) s = trap 5)
      ∧ (∀ i : Fin 4, exec (.mts e ⟨i.val + 2, by omega⟩ w) s =
          writes (fun k => { k with db := Sparse.set (fun _ => 0) k.db i (r &&& 0xFFFFC000) }))
      ∧ exec (.mts e 6 w) s = writes (fun k => k.setSp r)
      ∧ exec (.mts e 7 w) s = writes (fun k => { k with a0 := half k.a0 32 ++ r })
      ∧ exec (.mts e 8 w) s = writes (fun k => { k with a0 := r ++ half k.a0 0 })
      ∧ exec (.mts e 9 w) s = writes (fun k => { k with a1 := half k.a1 32 ++ r })
      ∧ exec (.mts e 10 w) s = writes (fun k => { k with a1 := r ++ half k.a1 0 })
      ∧ (k.pl = 2 → exec (.mts e 1 w) s = writes (fun k => { k with vtb := r &&& 0xFFFFFC00 }))
      ∧ (1 ≤ k.pl →
          exec (.mts e 0 w) s = writes (fun k => { k with stat := (k.stat &&& ~~~ 0x77F) ||| (r &&& 0x77F) })
          ∧ exec (.mts e 11 w) s = writes (fun k => { k with sfloor := r &&& 0xFFFFFFFC })
          ∧ exec (.mts e 12 w) s = writes (fun k => k.setBank k.bk { k.bank k.bk with xpc := r &&& 0xFFFFFF })
          ∧ exec (.mts e 13 w) s = writes (fun k => k.setBank k.bk { k.bank k.bk with xst := r &&& 0xFFFFFF7F })
          ∧ exec (.mts e 15 w) s = writes (fun k => { k with ls := r }))
      ∧ (k.pl = 0 → exec (.mts e 0 w) s = writes (fun k => { k with stat := (k.stat &&& ~~~ 0x7F) ||| (r &&& 0x7F) })))
    ∧ (Runs s e 2 →
      (4 < b.val → exec (.mfb e d w b false) s = trapAt 2 4 ∧ exec (.mtb e d w b false) s = trapAt 2 4)
      ∧ (b.val ≤ 4 → k.pl = 0 ∨ (b.val = 4 ∧ k.pl ≠ 2) →
          exec (.mfb e d w b false) s = trapAt 2 5 ∧ exec (.mtb e d w b false) s = trapAt 2 5)
      ∧ (b.val ≤ 4 → k.pl ≠ 0 → (b.val = 4 → k.pl = 2) →
          exec (.mfb e d w b false) s = .next (s.retire e 2 (fun k => k.setReg d (k.wreg b w)))
          ∧ exec (.mfb e d 0 b true) s = .next (s.retire e 2 (fun k => k.setReg d (k.bank b).sp))
          ∧ exec (.mtb e d w b false) s = .next (s.retire e 2 (fun k => k.setWreg b w (k.reg d)))
          ∧ exec (.mtb e d 0 b true) s = .next (s.retire e 2 (fun k => k.setSpOf b (k.reg d)))))
  )
  ∧ (
  ∀ (e : Exe) (b : Fin 16) (s : State), Runs s e 1 → OnCore e →
    let k := s.getCore e.who
    let a := (k.sp - 72).toNat
    let p := k.sp.toNat
    let frame := (List.range 16).map (fun i => k.wreg b i) ++ [(k.bank b).xpc, (k.bank b).xst]
    let named := b.val ≠ k.bk ∧ b.val ≤ 4 ∧ k.pl ≠ 0 ∧ (b.val = 4 → k.pl = 2)
    (b.val = k.bk → exec (.spill e b) s = .next (s.except e 1 4 k.pc 0) ∧ exec (.fill e b 0) s = .next (s.except e 1 4 k.pc 0))
    ∧ (named → a % 4 = 0 → k.sfloor.toNat ≤ a → YardOwned s e.who a → a / 0x40000 = (a + 71) / 0x40000 →
        watchedN e.who a 18 false true s = false →
        ∃ t, exec (.spill e b) s = .next t ∧ (t.getCore e.who).sp = k.sp - 72
          ∧ (∀ i j, i < 18 → j < 4 →
              Sparse.get (fun _ => 0) t.ram (a + 4 * i + j) = BitVec.ofNat 8 ((frame.getD i 0).toNat / 256 ^ j))
          ∧ (∀ y, y < a ∨ a + 72 ≤ y → t.byteAt y = s.byteAt y) ∧ (∀ m, (t.getCore e.who).reg m = k.reg m)
          ∧ (t.getCore e.who).pc = (k.pc + 1) % 2 ^ 24 ∧ (t.getCore e.who).stat = k.stat)
    ∧ (named → p % 4 = 0 → k.sfloor.toNat ≤ p → YardOwned s e.who p → p / 0x40000 = (p + 71) / 0x40000 →
        watchedN e.who p 18 true false s = false → Clean s p 72 →
        ∃ t, exec (.fill e b 0) s = .next t ∧ (t.getCore e.who).sp = k.sp + 72
          ∧ (∀ i, i < 16 → (t.getCore e.who).wreg b i = BitVec.ofNat 32 (s.bytesAt (p + 4 * i) 4))
          ∧ ((t.getCore e.who).bank b).xpc = BitVec.ofNat 32 (s.bytesAt (p + 64) 4 % 2 ^ 24)
          ∧ (∀ j, j < 32 → j ≠ 7 → bitOf ((t.getCore e.who).bank b).xst j = (s.bytesAt (p + 68) 4).testBit j)
          ∧ ((t.getCore e.who).bank b).sp = (k.bank b).sp ∧ (∀ m, (t.getCore e.who).reg m = k.reg m)
          ∧ (t.getCore e.who).pc = (k.pc + 1) % 2 ^ 24 ∧ (t.getCore e.who).stat = k.stat ∧ ∀ y, t.byteAt y = s.byteAt y)
  )

/-- R283: TRAP and BRK take their vectors, TRAP with XPC at the next instruction; EI and DI write IE, and DI leaves no interrupt point
behind it; NOP does nothing; WFI and FENCE go on at once where nothing is waited for. At U, EI, DI and WFI take vector 5.

R283: a waiting WFI goes on when an interrupt is pending, and a waiting FENCE when every earlier access has completed. -/
def Obligations.TrapsWaitsAndCoreControl : Prop :=
  (
  ∀ (e : Exe) (n : Fin 64) (s : State), Runs s e 1 →
    let k := s.getCore e.who
    let trap := fun (v : Nat) => Host.Outcome.next (s.except e 1 v k.pc 0)
    exec (.nop e) s = .next (s.retire e 1 (fun k => k))
    ∧ exec (.trap e n) s = .next (s.except e 1 (32 + n.val) ((k.pc + 1) % 2 ^ 24) 0)
    ∧ exec (.brk e) s = trap 14
    ∧ (k.pl = 0 → exec (.ei e) s = trap 5 ∧ exec (.di e) s = trap 5 ∧ exec (.wfi e) s = trap 5)
    ∧ (k.pl ≠ 0 →
      exec (.ei e) s = .next (s.retire e 1 (fun k => k.setStat 10 10 1))
      ∧ exec (.di e) s = .next (s.retire e 1 (fun k => { k.setStat 10 10 0 with noPoint := true }))
      ∧ ((nextVector s e.who).isSome → exec (.wfi e) s = .next (s.retire e 1 (fun k => k)))
      ∧ (OnCore e → nextVector s e.who = none →
          exec (.wfi e) s = .next (s.retire e 1 (fun k => { k with wait := .wfi }))))
    ∧ (fenceDone e.who s = true → exec (.fence e) s = .next (s.retire e 1 (fun k => k)))
    ∧ (fenceDone e.who s = false → ∃ t, exec (.fence e) s = .next t ∧ (t.getCore e.who).wait = .fence
        ∧ (t.getCore e.who).pc = k.pc)
  )
  ∧ (
  (∀ (c : Who) (s : State), c ≠ .lamp → (s.getCore c).wait = .wfi → (nextVector s c).isSome → s.rung = 0 →
      s.pw.entry = none → s.pw.exit = none →
      exec (.wfiWake c) s = .next (s.setCore c { s.getCore c with wait := .none }))
  ∧ (∀ s : State, s.lamp.wait = .wfi → (nextVector s .lamp).isSome →
      ∃ t, exec (.wfiWake .lamp) s = .next t ∧ t.lamp = { s.lamp with wait := .none } ∧ t.flag A.LN_STAT 28 = false)
  ∧ ∀ (c : Who) (s : State),
      let k := s.getCore c
      k.wait = .fence → fenceDone c s = true → k.run = true → k.rp = false → k.loads = [] → k.hwSince = none →
      exec (.fenceComplete c) s = .next (s.setCore c { k with wait := .none, pc := (k.pc + 1) % 2 ^ 24 })
  )

/-- R291, R292: taking an exception. From bank 0–2 the processor takes the next bank: w0 holds the entry word, w1 the fault address,
XPC the address and XST the status; RC, RP, LP, IE, OVE and DZE are cleared, DF is clear, the reservation is gone; the PC takes the
table's entry and the level is M for the vectors below 32 and for entries with bit 24, else S. From bank 3 the vector is 1 and DF
is set. In bank 4 the core stops.

R284: RETX returns from an exception: STAT takes XST, the PC takes XPC, the bank below is current again and no reservation is held;
at U it takes vector 5, in bank 0 vector 1, and to a higher level vector 3. -/
def Obligations.ExceptionEntryAndReturn : Prop :=
  (
  ∀ (c : Who) (sync : Bool) (v xpc : Nat) (fa : Word) (s : State), c ≠ .lamp →
    let k := s.getCore c
    let vec := if k.bk = 3 then 1 else v
    let a := k.vtb.toNat / 1024 * 1024 + 4 * vec
    let ent : Word := BitVec.ofNat 32 (s.bytesAt a 4)
    (k.bk ≤ 3 → v < 256 → YardOwned s c a → a % 4 = 0 → Clean s a 4 →
      let t := s.enter c sync v xpc fa
      let m := t.getCore c
      m.bk = k.bk + 1 ∧ m.pc = bitsOf ent 23 0
      ∧ m.reg 0 = BitVec.ofNat 32 (sync.toNat * 2 ^ 31 + (if k.bk = 3 then 2 ^ 30 else 0) + k.bk * 2 ^ 24 + v * 2 ^ 16 + vec)
      ∧ m.reg 1 = fa ∧ (m.bank m.bk).xpc = BitVec.ofNat 32 (xpc % 2 ^ 24) ∧ (m.bank m.bk).xst = k.stat
      ∧ m.rc = 0 ∧ m.rp = false ∧ m.lp = false ∧ m.ie = false ∧ bitOf m.stat 9 = false ∧ bitOf m.stat 8 = false
      ∧ bitOf m.stat 15 = decide (k.bk = 3)
      ∧ m.pl = (if vec < 32 ∨ k.bk = 3 ∨ bitOf ent 24 = true then 2 else 1) ∧ (∀ j, j ≤ 7 → bitOf m.stat j = bitOf k.stat j)
      ∧ m.resv = none ∧ (∀ b n, b ≠ k.bk + 1 → m.wreg b n = k.wreg b n) ∧ (∀ n, 2 ≤ n → m.reg n = k.wreg (k.bk + 1) n)
      ∧ m.a0 = k.a0 ∧ m.a1 = k.a1 ∧ m.vtb = k.vtb ∧ (∀ y, t.byteAt y = s.byteAt y) ∧ ∀ r, t.rd r = s.rd r)
    ∧ (4 ≤ k.bk → s.unhitched = true → ((s.enter c sync v xpc fa).getCore c).run = false)
  )
  ∧ (
  ∀ (e : Exe) (s : State), Runs s e 1 → OnCore e →
    let k := s.getCore e.who
    let x := k.bank k.bk
    (k.pl = 0 → exec (.retx e) s = .next (s.except e 1 5 k.pc 0))
    ∧ (k.pl ≠ 0 → k.bk = 0 → exec (.retx e) s = .next (s.except e 1 1 k.pc 0))
    ∧ (k.pl ≠ 0 → k.bk ≠ 0 → k.pl < bitsOf x.xst 12 11 → exec (.retx e) s = .next (s.except e 1 3 k.pc x.xst))
    ∧ (k.pl ≠ 0 → k.bk ≠ 0 → bitsOf x.xst 12 11 ≤ k.pl →
        exec (.retx e) s = .next (s.setCore e.who
          { s.issued e 1 with
              stat := x.xst, pc := bitsOf x.xpc 23 0, bk := k.bk - 1, resv := none,
              loopBuf := if bitOf x.xst 14 then (bodyState s e 1).loopLoad e.who (s.issued e 1) else k.loopBuf }))
  )

/-- R257, R258, R296, R297: what is no instruction of the processor takes vector 4; an interrupt that is pending at an interrupt point
with IE = 1 is entered with the lowest pending vector, whose latch clears, and XPC at the next instruction. -/
def Obligations.IllegalInstructionsAndInterrupts : Prop :=
  (∀ (e : Exe) (x y : Syl) (s : State), Runs s e (if x.getLsbD 13 then 2 else 1) → decodeFel x y = none →
      exec (.illegalInstruction e x y) s = .next (s.except e (if x.getLsbD 13 then 2 else 1) 4 (s.getCore e.who).pc 0))
  ∧ (∀ (d w : Fin 16) (len : Fin 64) (s : State), Runs s { who := .lamp } 1 →
      let trapAt := fun (len : Nat) => Host.Outcome.next (s.except { who := .lamp } len 4 s.lamp.pc 0)
      let trap := trapAt 1
      exec (.mul { who := .lamp } d w) s = trap ∧ exec (.mac0 { who := .lamp } d w) s = trap ∧ exec (.divu { who := .lamp } d w) s = trap
      ∧ exec (.spill { who := .lamp } d) s = trap ∧ exec (.pmsync { who := .lamp }) s = trap
      ∧ (Runs s { who := .lamp } 2 → exec (.loop { who := .lamp } w len) s = trapAt 2))
  ∧ ∀ (c : Who) (v : Nat) (s : State),
      let k := s.getCore c
      c ≠ .lamp → k.run = true → (c = .b → s.unhitched = true) → k.dbgHalt = false → k.ie = true → k.atPoint = true →
      k.wait = .none → s.rung < 2 → s.pw.entry = none → s.pw.exit = none →
      v < 248 → s.vecPending (c == .b) v = true → (∀ u, u < v → s.vecPending (c == .b) u = false) →
      exec (.interruptEntry { who := c }) s = .next ((takeVector s c v).enter c false v k.pc 0)
      ∧ Sparse.get (fun _ => false) (if c = .b then (takeVector s c v).vecB else (takeVector s c v).vecA) v = false

/-- R246–R252: RPT sets RC and RP at itself, or skips the repeated instruction for a count of 0; each REPEAT_ITERATION of a multiply
runs it and counts RC down; LOOP sets LP and LS, or skips the body for a count of 0; LOOP_PASS_END counts the loop register down
and begins the next pass, or clears LP after the last.

R242–R244, R312: PMWR of an unhitched core at M starts a write of four syllables, keeping the old line for fetches; in tandem it is
held; when the write completes the line holds them, and PMSYNC releases the old line. -/
def Obligations.RepeatsLoopsAndProgramWrites : Prop :=
  (
  (∀ (e : Exe) (n : Syl) (w : Fin 16) (len : Fin 64) (s : State),
    let k := s.getCore e.who
    (Runs s e 2 → s.fetchFail e.who (k.pc + 2) (s.lenAt e.who (k.pc + 2)) = none → ∀ i, s.decodeAt e.who (k.pc + 2) = some i →
        i.noRepeat = false → k.pc + 2 < 2 ^ 22 →
        (n.toNat ≠ 0 → exec (.rpt e n) s = .next (s.setCore e.who
          { ((s.issued e 2).setStat 31 16 n.toNat).setStat 13 13 1 with pc := k.pc }))
        ∧ (n.toNat = 0 → exec (.rpt e n) s = .next (s.setCore e.who
          { s.issued e 2 with pc := (k.pc + 2 + i.len) % 2 ^ 24 })))
    ∧ (Runs s e 1 → s.fetchFail e.who (k.pc + 1) (s.lenAt e.who (k.pc + 1)) = none → ∀ i, s.decodeAt e.who (k.pc + 1) = some i →
        i.noRepeat = false → k.pc + 1 < 2 ^ 22 → bitsOf (k.reg w) 15 0 ≠ 0 →
        exec (.rptWn e w) s = .next (s.setCore e.who
          { ((s.issued e 1).setStat 31 16 (bitsOf (k.reg w) 15 0)).setStat 13 13 1 with pc := k.pc }))
    ∧ (Runs s e 2 → OnCore e → s.fetchFail e.who (k.pc + 2) (len.val + 1) = none →
        let buf := some (k.pc + 2, (List.range (len.val + 1)).map (fun i => (bodyState s e 2).fetchSyl e.who (k.pc + 2 + i)))
        bodyOk (bodyState s e 2) e.who w (k.pc + 2 + (len.val + 1)) (len.val + 1) (k.pc + 2) = true →
        (k.reg w = 0 → exec (.loop e w len) s = .next (s.setCore e.who
          { s.issued e 2 with pc := (k.pc + 2 + (len.val + 1)) % 2 ^ 24 }))
        ∧ (k.reg w ≠ 0 → exec (.loop e w len) s = .next (s.retire e 2 (fun k =>
          { k.setStat 14 14 1 with ls := BitVec.ofNat 32 (w.val * 2 ^ 28 + len.val * 2 ^ 22 + (k.pc + 2)), loopBuf := buf })))))
  ∧ (∀ (c : Who) (d w : Fin 16) (s : State),
    let k := s.getCore c
    let p := k.pc + s.lenAt c k.pc
    c ≠ .lamp → felReady s c = true → k.rp = true → k.loads = [] → k.hwSince = none → s.fetchFail c p 1 = none →
    s.decodeAt c p = some (.r2 .mac0 d w) → bitOf k.stat 9 = false →
      (k.rc = 0 → exec (.repeatIteration { who := c } 0) s =
        .next (s.setCore c { k.setStat 13 13 0 with pc := (p + 1) % 2 ^ 24 }))
      ∧ (k.rc ≠ 0 → ∃ t, exec (.repeatIteration { who := c } 0) s = .next t
          ∧ (t.getCore c).a0 = (macRes k.a0 (k.reg d) (k.reg w) false (bitOf k.stat 5)).1
          ∧ (t.getCore c).rc = k.rc - 1 ∧ (t.getCore c).rp = decide (1 < k.rc)
          ∧ (t.getCore c).pc = (if 1 < k.rc then k.pc else (p + 1) % 2 ^ 24)
          ∧ (∀ n, (t.getCore c).reg n = k.reg n) ∧ ∀ y, t.byteAt y = s.byteAt y))
  ∧ ∀ (c : Who) (s : State),
    let k := s.getCore c
    let v := k.reg k.lsWc - 1
    c ≠ .lamp → k.run = true → (c = .b → s.unhitched = true) → k.wait = .none → k.lp = true → k.rp = false → k.pc = k.lsEnd →
    s.rung < 2 →
      (v ≠ 0 → exec (.loopPassEnd c) s = .next (s.setCore c { k.setReg k.lsWc v with pc := k.lsStart }))
      ∧ (v = 0 → exec (.loopPassEnd c) s = .next (s.setCore c ((k.setReg k.lsWc v).setStat 14 14 0)))
  )
  ∧ (
  (∀ (e : Exe) (d w : Fin 16) (s : State), Runs s e 1 → OnCore e →
    let k := s.getCore e.who
    let l := bitsOf (k.reg w) 23 0
    let g := fun (r : Word) (lo : Nat) => (BitVec.ofNat 14 (r.toNat / 2 ^ lo) : Syl)
    let ds := [g (k.reg d) 0, g (k.reg d) 14, g (k.reg (d.val + 1)) 0, g (k.reg (d.val + 1)) 14]
    (d.val % 2 = 0 → k.pl = 2 → l % 4 = 0 → l ≤ 0x3FFFFF → k.pmwr = none → k.oldLines = [] → s.mem.held = [] →
      ∃ t, exec (.pmwr e d w) s = .next t
        ∧ (t.getCore e.who).pmwr = some (l, ds, if s.unhitched then some s.dtC else none)
        ∧ (t.getCore e.who).oldLines = [(l, s.pmLine l)] ∧ t.pm = s.pm ∧ (t.getCore e.who).pc = (k.pc + 1) % 2 ^ 24
        ∧ t.mem.held = (if s.unhitched then [] else [.pmwr s.dtC]) ∧ (∀ n, (t.getCore e.who).reg n = k.reg n))
    ∧ (d.val % 2 = 0 → k.oldLines = [] → k.pl ≠ 2 → exec (.pmwr e d w) s = .next (s.except e 1 5 k.pc 0))
    ∧ (d.val % 2 = 1 → exec (.pmwr e d w) s = .next (s.except e 1 4 k.pc 0))
    ∧ (k.pmwr = none → ∃ t, exec (.pmsync e) s = .next t ∧ (t.getCore e.who).oldLines = []
        ∧ (t.getCore e.who).pc = (k.pc + 1) % 2 ^ 24 ∧ t.pm = s.pm))
  ∧ ∀ (c : Who) (l t0 : Nat) (a b x y : Syl) (s : State), (s.getCore c).pmwr = some (l, [a, b, x, y], some t0) →
      (s.getCore c).wait = .none →
      ∃ t, exec (.pmwrWriteDone c) s = .next t ∧ (t.getCore c).pmwr = none
        ∧ t.sylAt l = a ∧ t.sylAt (l + 1) = b ∧ t.sylAt (l + 2) = x ∧ t.sylAt (l + 3) = y
        ∧ (∀ z, z < l ∨ l + 4 ≤ z → t.sylAt z = s.sylAt z) ∧ ∀ z, t.byteAt z = s.byteAt z
  )

/-! ### The Wenam link, device time and register accesses -/

/-- R22, R23: at each multiple of 256 ns the field die queues a sync word, which carries the DT at which its transmission starts; at
arrival the control die compares its copy with it plus 10 ns and slews by at most 1 ns, or, after a rung in which it was off,
loads it; the fourth difference in a row above 1 ns raises F_CLK_DRIFT.

R19, R20: a transfer takes its place behind what has started and what waits in its class or a higher one, and ahead of the
lower classes; the others keep their order. A transfer of either direction that fails its CRC keeps its place for the replay, and
what follows stays behind it.

R21: the third replay of a transfer raises F_LINK_CRC, and so does the seventeenth error within 1 ms; after a third failed replay
the transfer is discarded and the heartbeat of that period counts as missed.

R25, R412: a lost clock of the control die raises F_CLK_LOSS instance 0 there. A lost field clock, and a lost reference that
either monitor finds, raise instance 1 or 2, hold every output off and set limp with limp-lock.

A command whose condition does not hold leaves the state as it is: the model's choice, assumption 19. -/
def Obligations.SyncReplaysAndClockLoss : Prop :=
  (
  (∀ s : State, (s.dtF % 256 = 0 → s.lk.syncTx ≠ some s.dtF → ∃ t, exec .dtSyncSend s = .next t
        ∧ t = { s with lk := { s.lk with syncTx := some s.dtF } }.sendC .dtSync ∧ exec .dtSyncSend t = .next t
        ∧ (s.linkUp = true → s.toControl = [] → ∃ x, t.toControl = [x] ∧ x.msg = .dtSync ∧ x.start = s.dtF))
      ∧ (s.dtF % 256 ≠ 0 → exec .dtSyncSend s = .next s))
  ∧ ∀ (x : Xfer) (rest : List Xfer) (s : State), s.toControl = x :: rest → x.msg = .dtSync →
      let d := x.start + 10
      (s.pw.dtLoad = false → ∃ t, exec .dtSync s = .next t ∧ t.toControl = rest ∧ t.dtF = s.dtF
        ∧ (s.dtC < d → t.dtC = s.dtC + 1) ∧ (d < s.dtC → t.dtC = s.dtC - 1) ∧ (s.dtC = d → t.dtC = s.dtC)
        ∧ (s.dtC + 1 < d ∨ d + 1 < s.dtC → t.lk.drift = min 5 (s.lk.drift + 1)
            ∧ t.faultQ = s.faultQ ++ (if s.lk.drift = 3 then [⟨0x05, 0, t.dtC, false⟩] else []))
        ∧ (¬ (s.dtC + 1 < d ∨ d + 1 < s.dtC) → t.lk.drift = 0 ∧ t.faultQ = s.faultQ)
        ∧ t.regs = s.regs ∧ t.coreA = s.coreA ∧ ∀ y, t.byteAt y = s.byteAt y)
      ∧ (s.pw.dtLoad = true → ∃ t, exec .dtSync s = .next t ∧ t.toControl = rest ∧ t.dtC = d ∧ t.pw.dtLoad = false
        ∧ t.faultQ = s.faultQ ∧ t.regs = s.regs ∧ t.coreA = s.coreA ∧ ∀ y, t.byteAt y = s.byteAt y)
  )
  ∧ (
  (∀ (now : Nat) (x : Xfer) (l : List Xfer), ∃ pre post, l = pre ++ post
      ∧ (enqueue now x l).map (·.msg) = pre.map (·.msg) ++ x.msg :: post.map (·.msg)
      ∧ (∀ y ∈ pre, y.start ≤ now ∨ y.msg.cls ≤ x.msg.cls) ∧ (∀ y, post.head? = some y → now < y.start ∧ x.msg.cls < y.msg.cls))
  ∧ ∀ (d : Fin 2) (i : BitVec 6) (k : Fin 4) (o : StartOut) (x : Xfer) (s : State),
    let q := fun (t : State) => if d.val = 0 then t.toField else t.toControl
    let now := if d.val = 0 then s.dtF else s.dtC
    let recent := (Sparse.get (fun _ => []) s.lk.errs d.val).filter (fun t => decide (now < t + 1000000))
    let n := (if recent.length = 16 then 1 else 0) + (if k.val = 2 then 1 else 0)
    s.linkUp = true → (q s)[i.toNat]? = some x → x.fails = k.val → x.start ≤ (if d.val = 0 then s.dtC else s.dtF) →
    (k.val < 3 ∨ x.msg ≠ .limp ∨ s.gd.cdPend = false → ∃ t, exec (.replayRequest d i k o) s = .next t
      ∧ (k.val < 3 → q t = (q s).set i.toNat { x with fails := k.val + 1 } ∧ t.gd = s.gd)
      ∧ (k.val = 3 → (d.val = 0 ∨ (∀ f, x.msg ≠ .fault f) → q t = (q s).eraseIdx i.toNat) ∧ t.gd.hbVoid = some (s.dtC / 1000)
          -- a fault report is sent again
          ∧ ∀ f, d.val = 1 → x.msg = .fault f → Queued (.fault f) t.toControl)
      ∧ (d.val = 1 → t.faultQ = s.faultQ ++ List.replicate n ⟨0x50, 1, s.dtC, false⟩ ∧ t.toField = s.toField)
      ∧ (d.val = 0 → t.faultQ = s.faultQ ∧ t.toControl
          = (forEach (List.replicate n ()) (fun _ u => u.sendC (.fault ⟨0x50, 0, s.dtF, true⟩)) s).toControl)
      ∧ Sparse.get (fun _ => []) t.lk.errs d.val = recent ++ [now]
      ∧ t.regs = s.regs ∧ t.coreA = s.coreA ∧ ∀ y, t.byteAt y = s.byteAt y)
    ∧ (k.val = 3 → x.msg = .limp → d.val = 0 → s.gd.cdPend = true → ∃ t, exec (.replayRequest d i k o) s = .next t
        ∧ t.gd.cdPend = false ∧ StartEnds t { o with testen := false } false)
  )
  ∧ (
  ∀ (inst : Fin 3) (fd : Bool) (s : State), s.linkUp = true → Sparse.get (fun _ => false) s.active (0x400 + inst.val) = false →
    let onF := inst.val = 1 ∨ (inst.val = 2 ∧ fd = true)
    ∃ t, exec (.clkLoss inst fd) s = .next t
      ∧ (onF → t.toControl = (s.sendC (.fault ⟨0x04, inst.val, s.dtF, true⟩)).toControl ∧ t.faultQ = s.faultQ)
      ∧ (¬ onF → t.faultQ = s.faultQ ++ [⟨0x04, inst.val, s.dtC, false⟩])
      ∧ Sparse.get (fun _ => false) t.active (0x400 + inst.val) = true
      ∧ (inst.val = 0 → t.fieldClkLost = s.fieldClkLost ∧ t.limp = s.limp ∧ t.pu = s.pu)
      ∧ (inst.val ≠ 0 → t.fieldClkLost = true ∧ t.limp = true ∧ t.limpLock = true
          ∧ ∀ (u : Fin 16) (o : Fin 6), (t.getOut u o).on = false)
      ∧ t.coreA = s.coreA ∧ ∀ y, t.byteAt y = s.byteAt y
  )

/-- R11–R13: a write to a register without a rule of its own sets its RW bits, clears the W1C bits written as 1 unless an event sets
them in the same cycle, sets the W1S bits written as 1, and leaves every other bit; no other register, memory byte, core or
queue changes. YD_IRQST stands for the registers with W1C bits, and 0x0808_FFFC for a reserved offset.

R30, R36, R365, R484: a write to PU, GP, CP/BL or FG is forwarded over the link, the host's with no epoch and a core's with that of
the control side; the host's writes elsewhere, and a debug session's to those blocks, change nothing.

R38, R39, R415: the next field-window access on the link is applied at the field die: a write of a block that needs no epoch takes
effect (after the timetable actions that are due, R58), one of PU, GP, CP/BL or FG without the granted epoch is rejected and counted, and a core's read sends its data back.

A command whose condition does not hold leaves the state as it is: the model's choice, assumption 19. -/
def Obligations.RegisterAndWindowAccesses : Prop :=
  (
  (∀ (fs : List Fld) (locked : Bool) (old v ev clr : Word) (b : Nat),
    let is_ := fun (t : Acc) => bitOf (typeMask fs [t]) b
    let only := fun (t : Acc) => is_ t = true ∧ ∀ u, u ≠ t → is_ u = false
    let r := bitOf (applyWrite fs locked old v ev clr) b
    b < 32 →
    (only .rw → r = bitOf v b) ∧ (only .ro → r = bitOf old b) ∧ (only .wo → r = bitOf old b) ∧ (only .sc → r = bitOf old b)
    ∧ (only .w1c → r = (bitOf old b && ! bitOf v b || bitOf ev b))
    ∧ (only .w1s → r = (bitOf old b && ! bitOf clr b || bitOf v b))
    ∧ (only .rwl → r = (if locked then bitOf old b else bitOf v b))
    ∧ ((∀ u, is_ u = false) → r = bitOf old b))
  ∧ (∀ (m : Master) (v ev : Word) (s : State), m = .debug ∨ (m = .coreA ∧ (s.getCore .a).pl = 2) ∨ (m = .coreB ∧ (s.getCore .b).pl = 2) →
      (∃ t, exec (.registerWrite m (BitVec.ofNat 32 A.YD_IRQST) v ev 0) s = .next t
        ∧ t.rd A.YD_IRQST = (s.rd A.YD_IRQST &&& ~~~ (v &&& 0x3F)) ||| (ev &&& 0x3F)
        ∧ (∀ a, a ≠ A.YD_IRQST → t.rd a = s.rd a) ∧ (∀ y, t.byteAt y = s.byteAt y)
        ∧ t.coreA = s.coreA ∧ t.coreB = s.coreB ∧ t.toField = s.toField ∧ t.faultQ = s.faultQ)
      ∧ (∃ t, exec (.registerWrite m 0x0808FFFC v 0 0) s = .next t ∧ (∀ a, t.rd a = s.rd a) ∧ t.faultQ = s.faultQ))
  ∧ (∀ (a : BitVec 32) (v ev : Word) (s : State), epochBlock a.toNat = false → hostWrites a.toNat = false →
      exec (.registerWrite .host a v ev 0) s = .next s)
  ∧ ∀ (a : BitVec 32) (v ev : Word) (s : State), a.toNat % 4 = 0 → epochBlock a.toNat = true → a.toNat ≠ A.FG_LLCLR →
      exec (.registerWrite .host a v ev 0) s = .next (s.sendF (.regWrite .host a.toNat v none))
      ∧ (s.coreA.pl ≠ 0 → exec (.registerWrite .coreA a v ev 0) s
          = .next (s.sendF (.regWrite .coreA a.toNat v (some (s.num A.CPL_EPOCH)))))
      ∧ exec (.registerWrite .debug a v ev 0) s = .next s
  )
  ∧ (
  ∀ (a : Nat) (m : Master) (v ev : Word) (ep : Option Nat) (rest : List Xfer) (s : State),
    let s0 : State := { s with toField := rest }
    (Oldest s.toField (.regWrite m a v ep) rest → m ≠ .debug →
      (epochBlock a = false → exec (.fieldWindowAccess ev) s = .next (writeField m a v ev s0.ttFirst))
      ∧ (∀ e, ep = some e → e ≠ 0 → s.num A.FG_EPOCH = e → exec (.fieldWindowAccess ev) s = .next (writeField m a v ev s0.ttFirst))
      ∧ (epochBlock a = true → ep = none →
        exec (.fieldWindowAccess ev) s = .next (rejectTransfer (s0.rejectKind none) s0)))
    ∧ (Oldest s.toField (.regRead .coreA a) rest →
        exec (.fieldWindowAccess ev) s = .next
          ((readReg .coreA a s0).2.sendC (.readData .coreA a (readReg .coreA a s0).1)))
    ∧ (Oldest s.toField (.regRead .host a) rest →
        exec (.fieldWindowAccess ev) s = .next ((readReg .host a s0).2.setData .host (readReg .host a s0).1))
  )

/-! ### Tracks -/

/-- R44, R46, R63, R508: a legal A/B change of an encoder, a Z edge and a change to an adjacent Hall state of the filtered levels are
time-stamped at the field-clock edge and reported; a simultaneous change of A and B, and an invalid Hall state or one that
is not adjacent, lose the tracks that use them; a sample that leaves the filtered levels as they were does nothing.

R44, R45, R47, R508: an edge report moves the angle of its tracks as of its time stamp; a track write of the channel that the track
names sets its angle, speed, direction and acceleration and ends a loss, one that is not valid loses the track, and one of
another channel is rejected.

A command whose condition does not hold leaves the state as it is: the model's choice, assumption 19. -/
def Obligations.FrontEndEdgesAndTrackUpdates : Prop :=
  (
  (∀ (q : Fin 8) (pa pb pz : PinSample) (s : State),
    let o := Sparse.get (fun _ => ({} : QeIn)) s.qe q
    -- a level holds for FILT field-clock samples before the filter follows it
    let filt := s.fld (A.IO_QE_CFG q) 7 0
    let f := fun (p : PinSample) (old : Bool) => if p.held.toNat < filt then old else p.level
    let a := f pa o.a
    let b := f pb o.b
    let z := f pz o.z
    let swap := s.flag (A.IO_QE_CFG q) 9
    -- levels in the forward order of A and B, or of B and A with SWAP
    let idx := fun (x y : Bool) => if swap then qeIndex y x else qeIndex x y
    let d := (idx a b + 4 - idx o.a o.b) % 4
    let rest := fun (t : State) => Sparse.get (fun _ => {}) t.qe q = { o with a := a, b := b }
      ∧ t.coreA = s.coreA ∧ t.toField = s.toField ∧ ∀ y, t.byteAt y = s.byteAt y
    (d = 0 → exec (.qeAbEdge q pa pb) s = .next s)
    ∧ (d = 1 ∨ d = 3 → s.linkUp = true → ∃ t, exec (.qeAbEdge q pa pb) s = .next t ∧ rest t
      ∧ t.toControl = (s.sendC (.edge (s.dtF / 4 * 4) (.ab q (decide (d = 3))))).toControl ∧ t.regs = s.regs)
    ∧ (d = 2 → ∃ t, exec (.qeAbEdge q pa pb) s = .next t ∧ rest t
      ∧ ∀ n, n ≠ 0 → n < 16 → s.trkEn n = true → s.trkSrc n = 1 → s.trkInst n = q → t.trkLost n = true)
    ∧ (z = o.z → exec (.qeZEdge q pz) s = .next s)
    ∧ (z ≠ o.z → ∃ t, exec (.qeZEdge q pz) s = .next t ∧ Sparse.get (fun _ => {}) t.qe q = { o with z := z } ∧ t.regs = s.regs
      ∧ ((z != s.flag (A.IO_QE_CFG q) 8) = true → s.linkUp = true →
          t.toControl = (s.sendC (.edge (s.dtF / 4 * 4) (.z q))).toControl)
      ∧ ((z != s.flag (A.IO_QE_CFG q) 8) = false → t.toControl = s.toControl ∧ t.trk = s.trk)))
  ∧ ∀ (h : Fin 8) (p : HallSample) (s : State),
    let o := Sparse.get (fun _ => 0) s.hl h
    let v := p.filtered (s.fld (A.IO_HL_CFG h) 7 0) o
    let place := fun (x : Nat) => hallIndex (if s.flag (A.IO_HL_CFG h) 8 then 7 - x else x)
    let lost := fun (t : State) => ∀ n, n ≠ 0 → n < 16 → s.trkEn n = true → s.trkSrc n = 2 → s.trkInst n = h → t.trkLost n = true
    (v = o → exec (.hlStateChange h p) s = .next s)
    ∧ (v ≠ o → ∃ t, exec (.hlStateChange h p) s = .next t ∧ (v < 8 → Sparse.get (fun _ => 0) t.hl h = v)
      ∧ (place v = none → lost t)
      ∧ (∀ i, place v = some i → place o = none → t.toControl = s.toControl ∧ t.trk = s.trk)
      ∧ (∀ i j, place v = some i → place o = some j →
          ((i + 6 - j) % 6 = 1 → s.linkUp = true → t.toControl = (s.sendC (.edge (s.dtF / 4 * 4) (.hall h j false))).toControl)
          ∧ ((i + 6 - j) % 6 = 5 → s.linkUp = true → t.toControl = (s.sendC (.edge (s.dtF / 4 * 4) (.hall h i true))).toControl)
          ∧ ((i + 6 - j) % 6 ≠ 1 → (i + 6 - j) % 6 ≠ 5 → lost t)))
  )
  ∧ (
  (∀ (ts q n : Nat) (rev : Bool) (rest : List Xfer) (s : State), Oldest s.toControl (.edge ts (.ab q rev)) rest →
    n ≠ 0 → n < 16 → s.trkEn n = true → s.trkSrc n = 1 → s.trkInst n = q →
    let a := (s.getTrk n).ang
    ∃ t, exec .trackEdgeReport s = .next t ∧ t.toControl = rest
      ∧ (t.getTrk n).ang = (if rev then (a + 2 ^ 64 - s.trkInc n) % 2 ^ 64 else (a + s.trkInc n) % 2 ^ 64)
      ∧ (t.getTrk n).t = ts ∧ (t.getTrk n).held = none ∧ t.flag (A.TRK_STAT n) 29 = false
      ∧ (∀ m, s.trkEn m = false → t.getTrk m = s.getTrk m) ∧ t.coreA = s.coreA ∧ ∀ y, t.byteAt y = s.byteAt y)
  ∧ (∀ s : State, s.trkWrQ = [] → exec .trackWrite s = .next s)
  ∧ ∀ (w : TrkWr) (rest : List TrkWr) (s : State), s.trkWrQ = w :: rest → w.trk < 16 →
    let named := w.ch = s.fld (A.TRK_CFG w.trk) 21 16
    let bogie := w.trk ≠ 0 ∧ s.trkEn w.trk = true ∧ s.trkSrc w.trk = 3
    ∃ t, exec .trackWrite s = .next t ∧ t.trkWrQ = rest ∧ t.coreA = s.coreA ∧ (∀ y, t.byteAt y = s.byteAt y)
      ∧ (¬ named → t.flag (A.TRK_STAT w.trk) 25 = true ∧ t.trk = s.trk)
      ∧ (named → ¬ bogie → t = { s with trkWrQ := rest })
      ∧ (named → bogie → (t.getTrk w.trk).lastWr = s.dtC
          ∧ (s.linkUp = true → s.gd.coupLost = false → (t.getTrk w.trk).fVal = w.valid ∧ (t.getTrk w.trk).fSpd = w.spd)
          ∧ (s.linkUp = false ∨ s.gd.coupLost = true → (t.getTrk w.trk).fVal = (s.getTrk w.trk).fVal
              ∧ (t.getTrk w.trk).fSpd = (s.getTrk w.trk).fSpd)
          ∧ (w.valid = true → (t.getTrk w.trk).ang = w.ang * 2 ^ 32 ∧ (t.getTrk w.trk).spd = w.spd ∧ (t.getTrk w.trk).acc = w.acc
              ∧ (t.getTrk w.trk).t = w.dt ∧ t.trkLost w.trk = false ∧ (w.spd ≠ 0 → t.flag (A.TRK_STAT w.trk) 30 = w.rev))
          ∧ (w.valid = false → t.trkLost w.trk = true))
  )

/-- R46, R48: a BOGIE track without a write for its WDOG time is lost, with LOSTEV and F_TRACK_LOST; an encoder track without an edge for
its STALL time stalls at its angle with speed 0; before that time, and on any other track, nothing happens.

R46, R50, R62: a write of TRK0_CFG changes nothing; setting EN of another track starts its front end anew; a change of SRC or INST
while enabled loses it; clearing EN leaves it LOST, with LOSTEV where an enabled entry uses it; any other write changes the
register alone. A read of ANG returns the angle of now and latches speed, acceleration and status of the same instant for
the requester; an excitation out of range stays off with CFGERR.

When an excitation is checked, and what EN = 0 leaves, are deduced, assumptions 41 and 42. A command whose condition does not hold leaves the state as it is: the model's choice, assumption 19. -/
def Obligations.TrackTimeoutsAndRegisters : Prop :=
  (
  ∀ (n : Fin 16) (s : State),
    let h := s.getTrk n
    let wdDue := n.val ≠ 0 ∧ s.trkEn n = true ∧ s.trkSrc n = 3 ∧ s.fld (A.TRK_WDOG n) 15 0 ≠ 0
      ∧ h.lastWr + s.fld (A.TRK_WDOG n) 15 0 * 16 ≤ s.dtC ∧ s.trkLost n = false ∧ s.rung < 2
    let stDue := n.val ≠ 0 ∧ s.trkEn n = true ∧ (s.trkSrc n = 1 ∨ s.trkSrc n = 2) ∧ s.fld (A.TRK_CFG n) 7 0 ≠ 0
      ∧ h.lastEdge + s.fld (A.TRK_CFG n) 7 0 * 1000 ≤ s.dtC ∧ s.flag (A.TRK_STAT n) 29 = false
    (wdDue → ∃ t, exec (.trackWdog n) s = .next t ∧ t.trkLost n = true ∧ t.flag (A.TRK_STAT n) 28 = true
        ∧ t.faultQ = s.faultQ ++ [⟨0x66, n, s.dtC, false⟩] ∧ (∀ m, m ≠ n.val → t.getTrk m = s.getTrk m)
        ∧ t.coreA = s.coreA ∧ ∀ y, t.byteAt y = s.byteAt y)
    ∧ (¬ wdDue → exec (.trackWdog n) s = .next s)
    ∧ (stDue → ∃ t, exec (.trackStall n) s = .next t ∧ t.flag (A.TRK_STAT n) 29 = true ∧ (t.getTrk n).spd = 0
        ∧ (t.getTrk n).held = some (s.trkAng64 n s.dtC) ∧ t.trkAng64 n s.dtC = s.trkAng64 n s.dtC
        ∧ t.trkLost n = s.trkLost n ∧ (∀ m, m ≠ n.val → t.getTrk m = s.getTrk m)
        ∧ (∀ r, r ≠ A.TRK_STAT n → t.rd r = s.rd r) ∧ t.faultQ = s.faultQ)
    ∧ (¬ stDue → exec (.trackStall n) s = .next s)
  )
  ∧ (
  (∀ (v : Word) (s : State), exec (.trkCfgWrite 0 v) s = .next s)
  ∧ (∀ (n : Fin 16) (v : Word) (s : State), n.val ≠ 0 →
    let old := s.rd (A.TRK_CFG n)
    let chg := bitsOf old 30 28 ≠ bitsOf v 30 28 ∨ bitsOf old 27 24 ≠ bitsOf v 27 24
    ∃ t, exec (.trkCfgWrite n v) s = .next t
      ∧ t.rd (A.TRK_CFG n) = putMask 0xFF3FF0FF old v
      ∧ (∀ m, m ≠ n.val → t.getTrk m = s.getTrk m) ∧ t.coreA = s.coreA ∧ (∀ y, t.byteAt y = s.byteAt y)
      ∧ (bitOf old 31 = false → bitOf v 31 = true →
          t.trkEn n = true ∧ (t.getTrk n).tm = {} ∧ (t.getTrk n).spd = 0 ∧ (t.getTrk n).fVal = false
          ∧ t.flag (A.TRK_STAT n) 27 = false ∧ t.flag (A.TRK_STAT n) 29 = false ∧ t.trkLost n = s.trkLost n
          ∧ (t.getTrk n).ang = s.trkAng64 n s.dtC ∧ (t.getTrk n).held = none)
      ∧ (bitOf old 31 = true → bitOf v 31 = true → chg → t.trkLost n = true ∧ (t.getTrk n).fVal = false
          ∧ (s.trkLost n = false → t.flag (A.TRK_STAT n) 28 = true))
      ∧ (bitOf old 31 = true → bitOf v 31 = true → ¬ chg → t.trk = s.trk ∧ ∀ a, a ≠ A.TRK_CFG n → t.rd a = s.rd a)
      ∧ (bitOf old 31 = true → bitOf v 31 = false → t.trkLost n = true ∧ t.trkEn n = false
          ∧ ((∃ e, e < 512 ∧ s.ttEn e = true ∧ s.ttTrk e = n) → s.trkLost n = false → t.flag (A.TRK_STAT n) 28 = true)
          ∧ ((∀ e, e < 512 → s.ttEn e = true → s.ttTrk e ≠ n) → t.trk = s.trk ∧ t.faultQ = s.faultQ))
      ∧ (bitOf old 31 = false → bitOf v 31 = false → t.trk = s.trk ∧ ∀ a, a ≠ A.TRK_CFG n → t.rd a = s.rd a))
  ∧ (∀ (m : Master) (n : Fin 16) (s : State),
      ∃ t, exec (.trkAngRead m n) s = .next t
        ∧ Sparse.get (fun _ => 0) t.rdData m.latchNo = BitVec.ofNat 32 (s.trkAng n s.dtC)
        ∧ t.getLatch m (A.TRK_SPD_I n) = BitVec.ofNat 32 (s.trkSpeed n s.dtC / 2 ^ 32)
        ∧ t.getLatch m (A.TRK_SPD_F n) = BitVec.ofNat 32 (s.trkSpeed n s.dtC)
        ∧ t.getLatch m (A.TRK_ACC n) = BitVec.ofInt 32 (s.trkAcc n)
        ∧ t.getLatch m (A.TRK_STAT n) = s.rd (A.TRK_STAT n)
        ∧ (∀ m', m'.latchNo ≠ m.latchNo → ∀ a, a < 2 ^ 32 → t.getLatch m' a = s.getLatch m' a)
        ∧ t.regs = s.regs ∧ t.trk = s.trk)
  ∧ ∀ (n : Fin 2) (v : Word) (s : State),
      let amp := bitsOf v 21 16
      let freq := bitsOf v 15 0
      let ok := 1 ≤ amp ∧ amp ≤ 32 ∧ 200 ≤ freq ∧ freq ≤ 2000
      ∃ t, exec (.excCfgWrite n v) s = .next t ∧ (t.excOn n = true ↔ bitOf v 31 = true ∧ ok)
        ∧ t.rd (A.IO_EXC_CFG n) = setBit (putMask 0x803FFFFF (s.rd (A.IO_EXC_CFG n)) v) 30 (bitOf v 31 && ! decide ok)
        ∧ (∀ r, r ≠ A.IO_EXC_CFG n → t.rd r = s.rd r) ∧ t.trk = s.trk ∧ t.toField = s.toField
  )

/-! ### The timetable -/

/-- R51, R52, R59, R62: a write of CTL reports an invalid DIR, ACT, DEST or ARG and, clearing EN at least 16 ns ahead, cancels the
committed firing, by a message where it executes on the field die; one of TGT or STRIDE restarts k, after a firing that
is committed; FIRED and its mirror clear together; a read of PRED_L latches PRED_H and PREDEU.

A command whose condition does not hold leaves the state as it is: the model's choice, assumption 19. -/
def Obligations.TimetableEntryAccesses : Prop :=
  (∀ (e : Fin 512) (v : Word) (s : State),
    let act := bitsOf v 23 20
    let dest := bitsOf v 11 4
    let bad := bitsOf v 29 28 = 3 ∨ 9 ≤ act ∨ (act = 1 ∨ act = 2) ∧ 72 ≤ dest ∨ act = 3 ∧ (48 ≤ dest ∨ 2 ≤ bitsOf v 3 0)
      ∨ act = 4 ∧ 32 ≤ dest ∨ act = 5 ∧ 64 ≤ dest ∨ act = 6 ∧ 2 ≤ dest ∨ act = 7 ∧ (64 ≤ dest ∨ 3 ≤ bitsOf v 3 0)
    ∃ t, exec (.ttEntryWrite e 0 v) s = .next t ∧ t.rd (A.TT_CTL e) = putMask 0xBFFFFFFF (s.rd (A.TT_CTL e)) v
      ∧ (t.flag (A.TT_STAT e) 24 = true ↔ bad) ∧ t.fld (A.TT_STAT e) 22 15 = 0
      ∧ (∀ f, f ≠ e.val → t.getTt f = s.getTt f)
      ∧ (∀ c, (s.getTt e).commit = some c → bitOf (s.rd (A.TT_CTL e)) 31 = true → bitOf v 31 = false →
          (c.dt < s.dtC + 16 → (t.getTt e).commit = some c ∧ t.toField = s.toField ∧ t.ttExec = s.ttExec)
          ∧ (s.dtC + 16 ≤ c.dt → c.act = 0 ∨ c.act = 5 ∨ c.act = 6 ∨ c.act = 8 →
              (t.getTt e).commit = none ∧ t.flag (A.TT_STAT e) 23 = true ∧ t.flag (A.TT_STAT e) 30 = false
              ∧ t.ttExec = s.ttExec.filter (fun x => x.entry != e.val || x.field))
          ∧ (s.dtC + 16 ≤ c.dt → c.act = 1 ∨ c.act = 2 ∨ c.act = 3 ∨ c.act = 4 ∨ c.act = 7 → s.linkUp = true →
              t.toField = (s.sendF (.ttCancel e c.tok)).toField ∧ (t.getTt e).commit = some c)))
  ∧ (∀ (e : Fin 512) (r : Fin 8) (v : Word) (s : State), r = 1 ∨ r = 2 →
      ∃ t, exec (.ttEntryWrite e r v) s = .next t ∧ t.rd (A.TT_CTL e + 4 * r.val) = v
        ∧ ((s.getTt e).commit = none → (t.getTt e).k = 0)
        ∧ (∀ c, (s.getTt e).commit = some c → (t.getTt e).commit = some c ∧ (t.getTt e).restart = true)
        ∧ ∀ f, f ≠ e.val → t.getTt f = s.getTt f)
  ∧ (∀ (e : Fin 512) (v : Word) (s : State),
      (∃ t, exec (.ttEntryWrite e 3 v) s = .next t ∧ t.rd (A.TT_FBDLY e) = v ∧ (∀ a, a ≠ A.TT_FBDLY e → t.rd a = s.rd a) ∧ t.tt = s.tt)
      ∧ (∃ t, exec (.ttEntryWrite e 4 v) s = .next t ∧ t.flag (A.TT_STAT e) 31 = (s.flag (A.TT_STAT e) 31 && ! bitOf v 31)
        ∧ t.flag (A.TT_FIRED (e / 32)) (e % 32) = (s.flag (A.TT_STAT e) 31 && ! bitOf v 31) ∧ t.tt = s.tt)
      ∧ exec (.ttEntryWrite e 5 v) s = .next s)
  ∧ (∀ (j : Fin 16) (v : Word) (s : State), ∃ t, exec (.ttFiredWrite j v) s = .next t
      ∧ (∀ b, b < 32 → t.flag (A.TT_FIRED j) b = (s.flag (A.TT_FIRED j) b && ! bitOf v b)
          ∧ t.flag (A.TT_STAT (32 * j + b)) 31 = (s.flag (A.TT_STAT (32 * j + b)) 31 && ! bitOf v b))
      ∧ t.tt = s.tt)
  ∧ ∀ (m : Master) (e : Fin 512) (s : State), ∃ t, exec (.predLRead m e) s = .next t
      ∧ Sparse.get (fun _ => 0) t.rdData m.latchNo = s.rd (A.TT_PRED_L e) ∧ t.getLatch m (A.TT_PRED_H e) = s.rd (A.TT_PRED_H e)
      ∧ t.getLatch m (A.TT_STAT e) = BitVec.ofNat 32 (s.fld (A.TT_STAT e) 4 0)
      ∧ (∀ m', m'.latchNo ≠ m.latchNo → ∀ a, a < 2 ^ 32 → t.getLatch m' a = s.getLatch m' a) ∧ t.regs = s.regs ∧ t.tt = s.tt

/-- R53: at each DT that is a multiple of 16 an entry that is open to prediction is predicted; one at most 64 ns ahead commits at no less
than 24 ns ahead and is sent to its executor; at a constant speed the instant is the distance over the speed, to the
nearest EU.

R52, R54, R55, R57–R59: a commit waits at its executor for its time, and one that comes after it fires on arrival with LATEFIRE; a
firing acts, sets FIRED and ERR, steps k in its committed direction and, for a single target, clears EN; on a lost track
it sets LOSTFIRE and the entry holds; a fallback fires without stepping k; a cancel that arrives in time removes it.

TTe_ERR is deduced, assumption 23. A command whose condition does not hold leaves the state as it is: the model's choice, assumption 19. -/
def Obligations.TimetablePredictionAndFirings : Prop :=
  (
  (∀ (e : Fin 512) (s : State), s.rung < 2 → s.dtC % 16 = 0 → s.flag A.TT_CTRL 0 = true → s.ttOpen e = true →
    let n := s.ttTrk e
    ∃ t, exec .ttPredict s = .next t
      ∧ (s.predictEu n (s.ttDir e) (s.ttTarget e (s.getTt e).k) (s.trkAng n s.dtC) s.dtC = none →
          (t.getTt e).pred = none ∧ (t.getTt e).commit = none)
      ∧ (∀ d, s.predictEu n (s.ttDir e) (s.ttTarget e (s.getTt e).k) (s.trkAng n s.dtC) s.dtC = some d →
          (64 * 20 < d → (t.getTt e).pred = some (20 * s.dtC + d) ∧ (t.getTt e).commit = none)
          ∧ (d ≤ 64 * 20 → ∃ c, (t.getTt e).commit = some c ∧ c.dt = s.dtC + max d (24 * 20) / 20
              -- the EU counts for PWM_SYNC alone
              ∧ c.eu = (if c.act = 3 then max d (24 * 20) % 20 else 0)
              ∧ c.rev = s.trkRev n ∧ c.act = s.fld (A.TT_CTL e) 23 20 ∧ c.dest = s.fld (A.TT_CTL e) 11 4
              ∧ t.flag (A.TT_STAT e) 30 = true ∧ (d < 24 * 20 → t.flag (A.TT_STAT e) 27 = true)
              ∧ (c.act = 1 ∨ c.act = 2 ∨ c.act = 3 ∨ c.act = 4 ∨ c.act = 7 → s.linkUp = true → Queued (.ttCommit e c) t.toField)
              ∧ (c.act = 0 ∨ c.act = 5 ∨ c.act = 6 ∨ c.act = 8 → ⟨e, false, c⟩ ∈ t.ttExec))))
  ∧ (∀ s : State, s.dtC % 16 ≠ 0 ∨ s.flag A.TT_CTRL 0 = false ∨ 2 ≤ s.rung → exec .ttPredict s = .next s)
  ∧ ∀ (n dir tgt ang now : Nat) (s : State), s.trkAcc n = 0 → tgt < 2 ^ 32 → ang < 2 ^ 32 →
      let spd := s.trkSpeed n now
      let d := if s.trkRev n then (ang + 2 ^ 32 - tgt) % 2 ^ 32 else (tgt + 2 ^ 32 - ang) % 2 ^ 32
      let dist := if d = 0 then 2 ^ 32 else d
      (spd = 0 ∨ (dir = 0 ∧ s.trkRev n = true) ∨ (dir = 1 ∧ s.trkRev n = false) → s.predictEu n dir tgt ang now = none)
      ∧ (spd ≠ 0 → dir = 2 → ∃ q, s.predictEu n dir tgt ang now = some q
          ∧ 2 * (q * spd) ≤ 2 * (20 * dist * 2 ^ 32) + spd ∧ 2 * (20 * dist * 2 ^ 32) ≤ 2 * (q * spd) + spd)
  )
  ∧ (
  (∀ (e : Nat) (c : TtCommit) (rest : List Xfer) (s : State), Oldest s.toField (.ttCommit e c) rest →
    (s.dtF ≤ c.dt → exec .ttCommit s = .next { s with toField := rest, ttExec := s.ttExec ++ [⟨e, true, c⟩] })
    ∧ (c.dt < s.dtF → e < 512 → c.act = 7 → (s.getTt e).commit = some c → ∃ t, exec .ttCommit s = .next t ∧ t.toField = rest
        ∧ t.flag (A.TT_STAT e) 26 = true ∧ t.flag (A.TT_STAT e) 31 = true ∧ t.gpaDrv = (s.driveGpa c.dest c.arg).gpaDrv
        ∧ t.ttExec = s.ttExec))
  ∧ (∀ (x : TtExec) (s : State), s.ttExec = [x] → x.entry < 512 → x.c.dt ≤ (if x.field then s.dtF else s.dtC) →
      (s.getTt x.entry).commit = some x.c → (s.getTt x.entry).restart = false →
      x.c.act = 0 ∨ x.c.act = 7 ∨ x.c.act = 8 →
      let e := x.entry
      ∃ t, exec .ttFire s = .next t ∧ t.ttExec = [] ∧ t.flag (A.TT_STAT e) 31 = true ∧ t.flag (A.TT_STAT e) 30 = false
        ∧ t.flag (A.TT_FIRED (e / 32)) (e % 32) = true ∧ (t.getTt e).commit = none ∧ (t.getTt e).lastFire = some (20 * x.c.dt + x.c.eu)
        ∧ t.rd (A.TT_ERR e) = BitVec.ofNat 32 (angDiff x.c.tgt (s.trkAngEu x.c.trk x.c.dt x.c.eu))
        ∧ (s.trkLost x.c.trk = true → t.flag (A.TT_STAT e) 28 = true)
        ∧ (s.trkRev x.c.trk ≠ x.c.rev ∨ (s.getTt e).revd = true → t.flag (A.TT_STAT e) 29 = true)
        ∧ (s.fld (A.TT_CTL e) 19 12 = 0 → s.num (A.TT_STRIDE e) = 0 → t.ttEn e = false
            ∧ (t.getTt e).k = (s.getTt e).k + (if x.c.rev then -1 else 1))
        ∧ (s.ttEn e = true → s.trkLost (s.ttTrk e) = true → t.flag (A.TT_STAT e) 25 = true)
        ∧ (x.c.act = 8 → s.flag A.TD_STAT 31 = false → Sparse.get (fun _ => false) t.vecA (192 + x.c.arg) = true)
        ∧ (x.c.act ≠ 8 → t.vecA = s.vecA)
        ∧ (x.c.act = 7 → t.gpaDrv = (s.driveGpa x.c.dest x.c.arg).gpaDrv) ∧ (x.c.act ≠ 7 → t.gpaDrv = s.gpaDrv)
        ∧ ∀ f, f ≠ e → t.getTt f = s.getTt f)
  ∧ (∀ (e : Fin 512) (s : State), (∀ d, (s.getTt e).fbAt = some d → s.dtC < d) → exec (.ttFallbackFire e) s = .next s)
  ∧ (∀ (e : Fin 512) (d : Nat) (s : State), (s.getTt e).fbAt = some d → d ≤ s.dtC → s.ttCfgErr e = true →
      ∃ t, exec (.ttFallbackFire e) s = .next t ∧ (t.getTt e).fbAt = none ∧ t.flag (A.TT_STAT e) 31 = s.flag (A.TT_STAT e) 31
        ∧ t.gpaDrv = s.gpaDrv ∧ t.vecA = s.vecA ∧ ∀ f, f ≠ e.val → t.getTt f = s.getTt f)
  ∧ (∀ (e : Fin 512) (d : Nat) (s : State), (s.getTt e).fbAt = some d → d ≤ s.dtC → s.ttCfgErr e = false →
      s.fld (A.TT_CTL e) 23 20 = 8 → s.ttEn e = true → s.trkLost (s.ttTrk e) = true →
      ∃ t, exec (.ttFallbackFire e) s = .next t ∧ (t.getTt e).k = (s.getTt e).k ∧ (t.getTt e).fbAt = none
        ∧ (t.getTt e).commit = (s.getTt e).commit
        ∧ t.flag (A.TT_STAT e) 31 = true ∧ t.flag (A.TT_STAT e) 28 = true
        ∧ ((s.getTt e).commit = none → t.flag (A.TT_STAT e) 25 = true)
        ∧ (s.flag A.TD_STAT 31 = false → Sparse.get (fun _ => false) t.vecA (192 + s.fld (A.TT_CTL e) 3 0) = true)
        ∧ ∀ f, f ≠ e.val → t.getTt f = s.getTt f)
  ∧ ∀ (e : Fin 512) (k : Nat) (c : TtCommit) (rest : List Xfer) (s : State), Oldest s.toField (.ttCancel e k) rest → c.tok = k →
      (⟨e.val, true, c⟩ ∈ s.ttExec → s.dtF < c.dt → (s.getTt e).commit = some c →
        ∃ t, exec .ttCancel s = .next t ∧ t.toField = rest ∧ ⟨e.val, true, c⟩ ∉ t.ttExec ∧ (t.getTt e).commit = none
          ∧ t.flag (A.TT_STAT e) 23 = true ∧ t.flag (A.TT_STAT e) 30 = false)
      ∧ ((∀ x ∈ s.ttExec, x.entry ≠ e.val) → exec .ttCancel s = .next { s with toField := rest })
  )

/-! ### The sense chain -/

/-- R68, R69, R77: enabling a channel starts its settling, which ends after 20 µs; with EN set its range and inversion cannot change, and
the attempt sets WRERR; clearing EN or WEN discards the open window; an invalid TAPER or unit field sets CFGERR.

R70, R74, R76: a start event opens a window at its sample, or discards the open one with XSTART; an end event closes it with a
result due, or with SHORT where it is too short, sets XEND on an idle channel and, with CHAIN, opens the next window at
the same sample; a window of 2^24 samples ends with LONGEV.

A command whose condition does not hold leaves the state as it is: the model's choice, assumption 19. -/
def Obligations.SenseConfigurationAndWindowEvents : Prop :=
  (
  (∀ (c : Fin 72) (v : Word) (s0 : State),
    -- timetable actions of the same cycle come first
    let s := s0.ttFirst
    ∃ t, exec (.snCfgWrite c v) s0 = .next t ∧ (∀ d, d ≠ c.val → t.getSn d = s.getSn d)
      ∧ (s.snEn c = false → bitOf v 31 = true → t.snEn c = true ∧ t.snSettling c = true ∧ (t.getSn c).enAt = s.dtF
          ∧ (t.getSn c).win = none ∧ (t.getSn c).done = [])
      ∧ (s.snEn c = true → t.fld (A.SN_CFG c) 30 27 = s.fld (A.SN_CFG c) 30 27
          ∧ (bitOf v 27 ≠ s.flag (A.SN_CFG c) 27 → t.flag (A.SN_STAT c) 20 = true))
      ∧ (s.snEn c = true → bitOf v 31 = false → t.snEn c = false ∧ (t.getSn c).win = none ∧ (t.getSn c).done = []
          ∧ t.flag (A.SN_STAT c) 31 = false ∧ t.snSettling c = false))
  ∧ (∀ (c : Fin 72) (s : State), s.snEn c = true → s.snSettling c = true →
      ((s.getSn c).enAt + 20000 ≤ s.dtF → ∃ t, exec (.settlingEnd c) s = .next t ∧ t.snSettling c = false
        ∧ (∀ a, a ≠ A.SN_STAT c → t.rd a = s.rd a) ∧ t.sn = s.sn)
      ∧ (s.dtF < (s.getSn c).enAt + 20000 → exec (.settlingEnd c) s = .next s))
  ∧ ∀ (c : Fin 72) (v : Word) (s0 : State),
      let s := s0.ttFirst
      let bad := 5 ≤ bitsOf v 29 27 ∨ (48 ≤ bitsOf v 19 14 ∧ bitsOf v 19 14 ≤ 62) ∨ (48 ≤ bitsOf v 11 6 ∧ bitsOf v 11 6 ≤ 62)
      ∃ t, exec (.wcfgWrite c v) s0 = .next t ∧ t.rd (A.SN_WCFG c) = putMask 0xFFFFFFF0 (s.rd (A.SN_WCFG c)) v
        ∧ (bad → t.flag (A.SN_STAT c) 27 = true)
        ∧ (¬ bad → 400 ≤ s.fld (A.SN_PCFG c) 15 0 → s.fld (A.SN_PCFG c) 15 0 ≤ 40000 → s.fld (A.SN_DIAG c) 3 0 ≠ 0 →
            t.flag (A.SN_STAT c) 27 = false)
        ∧ (bitOf v 31 = false → (t.getSn c).win = none ∧ t.flag (A.SN_STAT c) 31 = false ∧ (t.getSn c).done = (s.getSn c).done)
        ∧ (bitOf v 31 = true → t.sn = s.sn) ∧ ∀ d, d ≠ c.val → t.getSn d = s.getSn d
  )
  ∧ (
  (∀ (c : Fin 72) (s0 : State),
    -- timetable actions of the same nanosecond come first
    let s := s0.ttFirst
    let h := s.getSn c
    -- the first sample at or after this nanosecond: an MCLK edge each 12.5 ns for SN, the nth selected edge for SX
    let i := s.snIndex c (20 * s.dtF)
    (c.val < 48 → i = (20 * s.dtF + 249) / 250)
    ∧ (s.winHears c = false ∨ h.lastSt = some s.dtF → exec (.wctlStart c) s0 = .next s)
    ∧ (s.winHears c = false ∨ h.lastEn = some s.dtF → exec (.wctlEnd c) s0 = .next s)
    ∧ (s.winHears c = true → h.lastSt ≠ some s.dtF → ∃ t, exec (.wctlStart c) s0 = .next t
      ∧ (s.snWinBad c = false → t.flag (A.SN_STAT c) 31 = true
          ∧ ∃ w, (t.getSn c).win = some w ∧ w.s = i ∧ w.chain = s.flag (A.SN_WCFG c) 30 ∧ w.stUnit = s.fld (A.SN_WCFG c) 19 14
            ∧ w.stLine = s.fld (A.SN_WCFG c) 13 12 ∧ w.enUnit = s.fld (A.SN_WCFG c) 11 6 ∧ w.enLine = s.fld (A.SN_WCFG c) 5 4
            ∧ w.settle = s.snSettling c)
      ∧ (s.snWinBad c = true → (t.getSn c).win = none ∧ t.flag (A.SN_STAT c) 31 = false)
      ∧ (t.getSn c).done = h.done
      ∧ (h.win.isSome = true → t.flag (A.SN_STAT c) 26 = true)
      ∧ (h.win = none → t.flag (A.SN_STAT c) 26 = s.flag (A.SN_STAT c) 26)
      ∧ ∀ d, d ≠ c.val → t.getSn d = s.getSn d)
    ∧ (s.winHears c = true → h.lastEn ≠ some s.dtF → ∃ t, exec (.wctlEnd c) s0 = .next t ∧ (∀ d, d ≠ c.val → t.getSn d = s.getSn d)
      ∧ (h.win = none → t.flag (A.SN_STAT c) 25 = true ∧ (t.getSn c).done = h.done)
      ∧ (∀ w, h.win = some w →
          (max w.taper 1 ≤ i - w.s → (t.getSn c).done = h.done ++ [⟨w, i, s.dtF, false⟩])
          ∧ (i - w.s < max w.taper 1 → (t.getSn c).done = h.done ∧ t.flag (A.SN_STAT c) 24 = true)
          ∧ (w.chain = false → (t.getSn c).win = none ∧ t.flag (A.SN_STAT c) 31 = false)
          ∧ (w.chain = true → s.snWinBad c = false → (t.getSn c).win.map (·.s) = some i ∧ t.flag (A.SN_STAT c) 31 = true))))
  ∧ ∀ (c : Fin 72) (s : State),
    let h := s.getSn c
    -- the newest sample
    let now := s.snLast c (20 * (s.dtF + 1))
    (c.val < 48 → now = (20 * s.dtF + 19) / 250)
    ∧ (h.win = none → exec (.windowLong c) s = .next s)
    ∧ (∀ w, h.win = some w → now < w.s + 2 ^ 24 → exec (.windowLong c) s = .next s)
    ∧ (∀ w, h.win = some w → w.taper ≤ 64 → w.s + 2 ^ 24 ≤ now → ∃ t, exec (.windowLong c) s = .next t
      ∧ (∃ ts, (t.getSn c).done = h.done ++ [⟨w, w.s + 2 ^ 24, ts, true⟩] ∧ (c.val < 48 → ts = (w.s + 2 ^ 24) * 250 / 20))
      ∧ t.flag (A.SN_STAT c) 23 = true ∧ (∀ d, d ≠ c.val → t.getSn d = s.getSn d)
      ∧ (w.chain = true → s.snWinBad c = false → (t.getSn c).win.map (·.s) = some (w.s + 2 ^ 24))
      ∧ (w.chain = false → (t.getSn c).win = none))
  )

/-- R67, R71–R73, R75, R87, R144: a window's result is the trimmed mean of its weighted samples, stored with its flags, length, sequence
and end DT and, with DLVEN, sent to its loop channel; there it becomes the channel's newest result; a read of WRES
latches the rest.

A command whose condition does not hold leaves the state as it is: the model's choice, assumption 19. -/
def Obligations.WindowResults : Prop :=
  (∀ (c : Fin 72) (xs : List Bool) (s : State), (s.getSn c).done = [] → exec (.windowResult c xs) s = .next s)
  ∧ (∀ (c : Fin 72) (xs : List Bool) (d : Closed) (rest : List Closed) (s : State), (s.getSn c).done = d :: rest →
    let len := d.e - d.w.s
    let hT := d.w.taper / 2
    max d.w.taper 1 ≤ len →
    let r := s.snCode c (weightedSum hT len 0 xs) ((if hT = 0 then 1 else hT * hT) * len)
    let seq := (s.fld (A.SN_WFLG c) 15 0 + 1) % 65536
    ∃ t, exec (.windowResult c xs) s = .next t ∧ (t.getSn c).done = rest ∧ t.rd (A.SN_WRES c) = BitVec.ofInt 32 r.1
      ∧ t.flag (A.SN_WFLG c) 31 = true ∧ t.flag (A.SN_WFLG c) 30 = r.2 ∧ t.flag (A.SN_WFLG c) 29 = d.long
      ∧ t.flag (A.SN_WFLG c) 28 = d.w.settle ∧ t.flag (A.SN_WFLG c) 27 = d.w.stall ∧ t.fld (A.SN_WFLG c) 15 0 = seq
      ∧ t.rd (A.SN_WLEN c) = BitVec.ofNat 32 len ∧ t.rd (A.SN_WTS_L c) = BitVec.ofNat 32 d.endDt
      ∧ t.rd (A.SN_WTS_H c) = BitVec.ofNat 32 (d.endDt / 2 ^ 32)
      ∧ (s.flag (A.SN_WCFG c) 26 = false → t.toControl = s.toControl)
      ∧ (s.flag (A.SN_WCFG c) 26 = true → s.linkUp = true → ∃ q, t.toControl = (s.sendC (.result (s.fld (A.SN_WCFG c) 25 20) c q)).toControl
          ∧ q.valid = true ∧ q.code = t.rd (A.SN_WRES c) ∧ q.flags = t.rd (A.SN_WFLG c) ∧ q.len = len ∧ q.seq = seq ∧ q.ts = d.endDt)
      ∧ ∀ e, e ≠ c.val → t.getSn e = s.getSn e)
  ∧ (∀ (lc sn : Nat) (q : Slot) (rest : List Xfer) (s : State), Oldest s.toControl (.result lc sn q) rest →
      ∃ t, exec .resultDelivery s = .next t ∧ t.toControl = rest ∧ t.getRes lc sn = q)
  ∧ ∀ (m : Master) (c : Fin 72) (s : State), ∃ t, exec (.wresRead m c) s = .next t
      ∧ Sparse.get (fun _ => 0) t.rdData m.latchNo = s.rd (A.SN_WRES c)
      ∧ (∀ a, a = A.SN_WFLG c ∨ a = A.SN_WLEN c ∨ a = A.SN_WTS_L c ∨ a = A.SN_WTS_H c → t.getLatch m a = s.rd a)
      ∧ (∀ m', m'.latchNo ≠ m.latchNo → ∀ a, a < 2 ^ 32 → t.getLatch m' a = s.getLatch m' a) ∧ t.regs = s.regs ∧ t.sn = s.sn

/-- R78–R82: the precise and the fast path write their codes with their valid marks; PSYNC restarts every precise decimator; a stall, or
a missing SX clock, sets STALL, STALLEV and F_MOD_STALL of an enabled channel and marks its open window, and its end
clears them; a code at either end for RNGN samples is out of range.

R83–R88: an urgent conversion is accepted with EN where none is pending and its input and K exist, else refused with URGREF; it
starts before the next slot of the scan; a conversion ends 62.5 µs × 2^K after its start with its code, time stamp and
sequence; a read of its result latches these.

A P sample carries its code as an operand, assumption 9. A command whose condition does not hold leaves the state as it is: the model's choice, assumption 19. -/
def Obligations.SensePathsAndHousekeeping : Prop :=
  (
  (∀ (c : Fin 72) (xs : List Bool) (s : State),
    s.snEn c = false ∨ s.flag (A.SN_PCFG c) 31 = false ∨ s.snPdecBad c = true ∨ pDue s c = none →
      exec (.pSample c xs) s = .next s)
  -- the P samples of an SN channel end each 2 × PDEC samples after the restart
  ∧ (∀ (c : Fin 48) (l : Nat) (s : State), pDue s c = some l → 250 * l ≤ 20 * s.dtF + 19
      ∧ ∃ k, 1 ≤ k ∧ l + 1 = (20 * s.psyncAt + 249) / 250 + 2 * s.fld (A.SN_PCFG c) 15 0 * k)
  ∧ (∀ (c : Fin 72) (xs : List Bool) (l : Nat) (s : State), s.snEn c = true → s.flag (A.SN_PCFG c) 31 = true →
    s.snPdecBad c = false → pDue s c = some l → s.linkUp = true → (∀ n, n < 16 → s.flag (A.SN_PC_CFG n) 31 = false) →
    let d := s.fld (A.SN_PCFG c) 15 0
    ∃ t, exec (.pSample c xs) s = .next t ∧ t.rd (A.SN_PRES c) = BitVec.ofInt 32 (s.snCode c (pSum d 0 xs) (pScale d)).1
      ∧ (t.getSn c).pValid = (! s.snSettling c) ∧ (t.getSn c).pLast = some l ∧ (∀ a, a ≠ A.SN_PRES c → t.rd a = s.rd a)
      ∧ t.toControl = (s.sendC (.psample c (t.rd (A.SN_PRES c)) (! s.snSettling c) s.dtF)).toControl)
  ∧ (∀ (c : Nat) (code : Word) (v : Bool) (ts : Nat) (rest : List Xfer) (s : State), Oldest s.toControl (.psample c code v ts) rest →
      (∀ k, k < 4 → s.getCap k = none) →
      ∃ t, exec .pSampleTransfer s = .next t ∧ t.toControl = rest
        ∧ Sparse.get (fun _ => {}) t.pcd c = ⟨true, code, if v then 2 ^ 31 else 0, 0, 0, ts⟩
        ∧ (∀ d, d ≠ c → Sparse.get (fun _ => {}) t.pcd d = Sparse.get (fun _ => {}) s.pcd d) ∧ t.regs = s.regs)
  ∧ (∀ (c : Fin 72) (x : BitVec 31) (dup : BitVec 48) (s : State), s.snEn c = true → (∀ n, n < 48 → s.flag (A.DW_CFG n) 31 = false) →
      let code := clampI (-512) 511 ((s.snCode c (fSum x) 256).1 / 2 ^ 14)
      ∃ t, exec (.fSample c x dup) s = .next t ∧ t.flag (A.SN_FRES c) 31 = (! s.snSettling c)
        ∧ t.fld (A.SN_FRES c) 15 0 = toBits 16 code
        ∧ (code ≠ 511 → code ≠ -512 → s.snSettling c = false →
            (t.getSn c).rngCnt = 0 ∧ t.flag (A.SN_STAT c) 28 = false ∧ t.faultQ = s.faultQ)
        ∧ (code = 511 ∨ code = -512 → s.snSettling c = false → s.flag (A.SN_DIAG c) 30 = true → s.flag (A.SN_STAT c) 28 = false →
            s.fld (A.SN_DIAG c) 3 0 ≠ 0 → s.fld (A.SN_DIAG c) 3 0 ≤ (s.getSn c).rngCnt + 1 → s.linkUp = true →
            t.flag (A.SN_STAT c) 28 = true ∧ t.flag (A.SN_STAT c) 21 = true ∧ t.toControl = (s.sendC (.fault ⟨0x63, c, s.dtF, true⟩)).toControl))
  ∧ (∀ s : State, ∃ t, exec .snPsync s = .next t ∧ t.psyncAt = s.dtF ∧ t.flag A.SN_CTRL 0 = false
      ∧ (∀ c, c < 72 → (t.getSn c).pValid = false ∧ (t.getSn c).pLast = none ∧ (t.getSn c).win = (s.getSn c).win) ∧ ∀ a, a ≠ A.SN_CTRL → t.rd a = s.rd a)
  ∧ (∀ (c : Fin 72) (s : State), s.snEn c = true → s.flag (A.SN_DIAG c) 31 = true → s.flag (A.SN_STAT c) 29 = false → s.linkUp = true →
      ∀ cmd : Instr, cmd = .modStall c ∨ (∃ n : Fin 24, c.val = 48 + n.val ∧ cmd = .sxClockMissing n) →
        ∃ t, exec cmd s = .next t ∧ t.flag (A.SN_STAT c) 29 = true ∧ t.flag (A.SN_STAT c) 22 = true
          ∧ t.toControl = (s.sendC (.fault ⟨0x65, c, s.dtF, true⟩)).toControl ∧ (∀ w, (t.getSn c).win = some w → w.stall = true)
          ∧ ∀ d, d ≠ c.val → t.getSn d = s.getSn d)
  ∧ ∀ (c : Fin 72) (s : State), ∃ t, exec (.stallClear c) s = .next t ∧ t.flag (A.SN_STAT c) 29 = false
      ∧ (t.getSn c).stallNow = false ∧ (t.getSn c).win = (s.getSn c).win ∧ t.faultQ = s.faultQ
  )
  ∧ (
  (∀ (v : Word) (s : State), bitOf v 31 = true →
    let ok := bitsOf v 5 0 ≤ 39 ∧ bitsOf v 8 6 ≠ 7 ∧ s.hk.urg = none ∧ s.flag A.HK_CTRL 31 = true
    ∃ t, exec (.hkUrg v) s = .next t
      ∧ (ok → t.hk.urg = some (bitsOf v 5 0, bitsOf v 8 6) ∧ t.flag A.HK_STAT 30 = true ∧ t.flag A.HK_STAT 29 = s.flag A.HK_STAT 29)
      ∧ (¬ ok → t.hk = s.hk ∧ t.flag A.HK_STAT 29 = true) ∧ (∀ a, a ≠ A.HK_STAT → t.rd a = s.rd a))
  ∧ (∀ (v : Word) (s : State), ∃ t, exec (.hkCtrlWrite v) s = .next t ∧ t.rd A.HK_CTRL = putMask 0xE000001F (s.rd A.HK_CTRL) v
      ∧ (bitOf v 31 = false → s.hk.urg.isSome = true → t.hk.urg = none ∧ t.flag A.HK_STAT 30 = false ∧ t.flag A.HK_STAT 29 = true)
      ∧ (bitsOf v 4 0 = 0 ∨ 16 < bitsOf v 4 0 → t.flag A.HK_STAT 28 = true) ∧ t.hk.run = s.hk.run)
  ∧ (∀ s : State, s.flag A.HK_CTRL 31 = true → s.hk.run = none →
      (∀ i k, s.hk.urg = some (i, k) → ∃ t, exec .hkConversionStart s = .next t ∧ t.hk.run = some ⟨i, k, true, s.dtF⟩
        ∧ t.hk.urg = none ∧ t.flag A.HK_STAT 30 = false ∧ t.flag A.HK_STAT 31 = true ∧ t.hk.slot = s.hk.slot)
      ∧ (∀ n j, s.hk.urg = none → s.flag A.HK_CTRL 30 = true → s.fld A.HK_CTRL 4 0 = n → n ≤ 16 → j < n → s.hk.slot = j →
          s.fld (A.HK_SLOT j) 5 0 ≤ 39 → s.fld (A.HK_SLOT j) 8 6 ≠ 7 → ∃ t, exec .hkConversionStart s = .next t
          ∧ t.hk.run = some ⟨s.fld (A.HK_SLOT j) 5 0, s.fld (A.HK_SLOT j) 8 6, false, s.dtF⟩ ∧ t.hk.slot = j + 1
          ∧ t.flag A.HK_STAT 31 = true))
  ∧ (∀ (code : BitVec 24) (r : HkRun) (s : State), s.hk.run = some r → r.input < 40 → r.k < 7 → r.start + 62500 * 2 ^ r.k ≤ s.dtF →
      (∀ n, n < 16 → s.flag (A.SN_PC_CFG n) 31 = false) → (∀ k, k < 4 → s.getCap k = none) →
      ∃ t, exec (.hkConversionEnd code) s = .next t ∧ t.hk.run = none ∧ t.hk.urg = s.hk.urg
        ∧ t.rd (A.HK_RES r.input) = BitVec.ofNat 32 (2 ^ 31 + code.toNat)
        ∧ t.num64 (A.HK_TS_L r.input) (A.HK_TS_H r.input) = (r.start + 62500 * 2 ^ r.k) % 2 ^ 64
        ∧ t.flag (A.HK_INF r.input) 31 = r.urg ∧ t.fld (A.HK_INF r.input) 18 16 = r.k
        ∧ t.fld (A.HK_INF r.input) 15 0 = (s.fld (A.HK_INF r.input) 15 0 + 1) % 65536
        ∧ t.flag A.HK_STAT 31 = false ∧ t.flag A.HK_STAT 27 = true)
  ∧ ∀ (m : Master) (i : Fin 40) (s : State), ∃ t, exec (.hkResRead m i) s = .next t
      ∧ Sparse.get (fun _ => 0) t.rdData m.latchNo = s.rd (A.HK_RES i)
      ∧ (∀ a, a = A.HK_TS_L i ∨ a = A.HK_TS_H i ∨ a = A.HK_INF i → t.getLatch m a = s.rd a) ∧ t.regs = s.regs ∧ t.hk = s.hk
  )

/-! ### PWM units and general outputs -/

/-- R89, R92, R95, R100, R101: EN starts a unit at the first PWMCLK edge 20 ns later, with EN set its mode fields stay, and clearing EN
stops it with every output off; a start and each period boundary begin a period of the active PER; a sealed set transfers
at its update point if it was sealed 20 ns before, and a later one is late; in angle mode a period holds for its firing,
and one that does not come sets SYNCMISS. -/
def Obligations.UnitPeriods : Prop :=
  (∀ (u : Fin 48) (v : Word) (s0 : State),
    -- timetable actions of the same cycle come first
    let s := s0.ttFirst
    Authorised s0 → s.sharers u = [u.val] → (s.getPu u).safe = 0 → (s.getPu u).leaving = false →
    u.val < 16 ∨ bitOf v 16 = false →
    ∃ t, exec (.puCtlWrite u v) s0 = .next t
      ∧ (s.flag (uCtl u) 31 = true → t.fld (uCtl u) 29 23 = s.fld (uCtl u) 29 23
          ∧ (bitsOf v 29 23 ≠ s.fld (uCtl u) 29 23 → t.flag (uStat u) 18 = true))
      ∧ (s.flag (uCtl u) 31 = false → bitOf v 31 = true → bitOf v 30 = false →
          (t.getPu u).startAt = some ((s.dtF + 20 + 1) / 2 * 2 * 20))
      ∧ (s.flag (uCtl u) 31 = true → bitOf v 31 = false → t.uRun u = false ∧ ∀ o, o < uOuts u → (t.getOut u o).on = false))
  ∧ (∀ (u : Fin 48) (t0 : Nat) (s : State), (s.getPu u).startAt = some t0 → t0 ≤ 20 * s.dtF + 19 → PlainUnit s u →
      (s.getPu u).sealQ = [] →
      ∃ t, exec (.puStart u) s = .next t ∧ (t.getPu u).startAt = none
        ∧ (ValidSet s u (fun b => s.rd (uAct u b)) → s.uMode u ≠ 3 → t.uRun u = true ∧ (t.getPu u).t0 = t0
            ∧ (t.getPu u).per = s.activePer u ∧ t.rd (uPerEff u) = BitVec.ofNat 32 (s.activePer u))
        ∧ (¬ ValidSet s u (fun b => s.rd (uAct u b)) → t.uRun u = s.uRun u ∧ (t.getPu u).badStart = true ∧ t.flag (uStat u) 17 = true))
  ∧ (∀ (u : Fin 48) (s : State), PlainUnit s u → s.uRun u = true → (s.getPu u).per ≠ 0 →
      let h := s.getPu u
      let fin := h.t0 + h.per * uTick u
      fin ≤ 20 * s.dtF + 19 →
      (s.flag (uCtl u) 27 = false → ∃ t, exec (.periodBoundary u) s = .next t ∧ (t.getPu u).t0 = fin ∧ (t.getPu u).midDone = false
        ∧ (h.sealQ = [] → (t.getPu u).per = s.activePer u)
        ∧ (∀ x, h.sealQ = [x] → x.upd = 0 ∨ x.upd = 2 →
            (x.at_ + 400 ≤ fin → (∀ b, b < uSetLen u → t.rd (uAct u b) = x.words.getD b 0) ∧ (t.getPu u).sealQ = []
              ∧ t.fld (uStat u) 7 0 = x.seq % 256)
            ∧ (x.at_ < fin → fin < x.at_ + 400 → t.flag (uStat u) 27 = true ∧ (t.getPu u).sealQ = [x]
              ∧ ∀ b, b < uSetLen u → t.rd (uAct u b) = s.rd (uAct u b))))
      ∧ (s.flag (uCtl u) 27 = true → h.missed = false → exec (.periodBoundary u) s = .next (s.setPu u { h with hold := true }))
      ∧ (s.flag (uCtl u) 27 = true → fin + h.per / 8 * uTick u ≤ 20 * s.dtF + 19 → ∃ t, exec (.syncMiss u) s = .next t
          ∧ t.flag (uStat u) 24 = true ∧ (t.getPu u).missed = true ∧ (t.getPu u).per = h.per
          ∧ (t.getPu u).t0 = fin + h.per / 8 * uTick u))
  ∧ ∀ (u : Fin 48) (s : State), PlainUnit s u → s.uRun u = true → (s.getPu u).per ≠ 0 → (s.getPu u).midDone = false →
      let h := s.getPu u
      let mid := h.t0 + (if s.uMode u = 2 then h.eMid else h.per / 2) * uTick u
      mid ≤ 20 * s.dtF + 19 → ∃ t, exec (.periodMiddle u) s = .next t
        ∧ (s.uMode u = 2 → t.flag (uStat u) 30 = true)
        -- a shorter PER that transfers here can end the period (R104)
        ∧ (h.sealQ = [] ∨ s.uMode u = 2 ∨ s.uAngle u = true → (t.getPu u).midDone = true)
        ∧ (h.sealQ = [] → (t.getPu u).per = h.per ∧ (t.getPu u).t0 = h.t0)
        ∧ (∀ x, h.sealQ = [x] → x.upd = 1 ∨ x.upd = 2 → x.at_ + 400 ≤ mid →
            (∀ b, b < uSetLen u → t.rd (uAct u b) = x.words.getD b 0) ∧ (t.getPu u).sealQ = [])

/-- R90, R105, R109, R111, R114: when the commanded signal of a pair changes, the output that ends turns off at once and the other one
becomes due after its dead time, turning on then; a general output follows its signal at once; an extended pulse ends at
its instant; a trigger compare counts on the line that selects it. -/
def Obligations.UnitSignalsAndOutputs : Prop :=
  (∀ (u : Fin 16) (eu : Fin 20) (x : Fin 3) (s : State), PlainUnit s u → s.uRun u = true → s.fld (uAct u 15) 19 0 = 0 →
    s.uOvr u (2 * x) = 0 → s.uOvr u (2 * x + 1) = 0 →
    let now := 20 * s.dtF + eu
    let sig := s.uSigAt u x (s.uPos u now)
    let inc := if sig then 2 * x.val else 2 * x.val + 1
    let out := if sig then 2 * x.val + 1 else 2 * x.val
    -- no pulse of the outgoing output is to be extended (R109)
    (s.getOut u out).minUntil = none →
    sig ≠ s.uSig u x → (s.getOut u inc).on = false → s.uDead u inc ≠ 0 →
      ∃ t, exec (.signalEdge ⟨u.val, by omega⟩ eu) s = .next t ∧ t.uSig u x = sig ∧ (t.getOut u out).on = false
        ∧ ((s.getOut u out).on = true → (t.getOut u out).offAt = now)
        ∧ (t.getOut u inc).due = some (now + s.uDead u inc) ∧ (t.getOut u inc).on = false)
  ∧ (∀ (u : Fin 48) (eu : Fin 20) (s : State), 16 ≤ u.val → PlainUnit s u → s.uRun u = true → s.fld (uAct u 5) 19 0 = 0 →
      s.uOvr u 0 = 0 → (s.getOut u 0).minUntil = none →
      let sig := s.uSigAt u 0 (s.uPos u (20 * s.dtF + eu))
      sig ≠ s.uSig u 0 → ∃ t, exec (.signalEdge u eu) s = .next t ∧ t.uSig u 0 = sig ∧ (t.getOut u 0).on = sig)
  ∧ (∀ (u : Fin 48) (o : Fin 6) (d : Nat) (s : State), (s.getOut u o).due = some d → d ≤ 20 * s.dtF + 19 → (s.getPu u).safe ≠ 1 →
      s.fld (uAct u (uMinpIx u)) 19 0 = 0 → ∃ t, exec (.deadTimeEnd u o) s = .next t ∧ (t.getOut u o).on = true
        ∧ (t.getOut u o).onAt = d ∧ (t.getOut u o).due = none ∧ (∀ p, p ≠ o.val → t.getOut u p = s.getOut u p)
        ∧ (s.fld A.PW_STAT 31 29 ≠ 4 → t.pinHigh u o = ! (s.uPol u).testBit o))
  ∧ (∀ (u : Fin 48) (o : Fin 6) (e : Nat) (s : State), (s.getOut u o).minpEnd = some e → e ≤ 20 * s.dtF + 19 → (s.getOut u o).on = true →
      ∃ t, exec (.minpEnd u o) s = .next t ∧ (t.getOut u o).on = false ∧ (t.getOut u o).offAt = e
        ∧ (t.getOut u o).minpEnd = none ∧ (∀ p, p ≠ o.val → t.getOut u p = s.getOut u p)
        ∧ (s.fld A.PW_STAT 31 29 ≠ 4 → t.pinHigh u o = (s.uPol u).testBit o))
  ∧ ∀ (u : Fin 48) (k : Fin 2) (eu : Fin 20) (s0 : State),
      let s := s0.ttFirst
      s.owner u = u.val → s.uRun u = true → s.uMode u = 0 → s.uAngle u = false →
      let v := s.num (uAct u (uTrgIx u + k))
      let h := s.getPu u
      let c := Sparse.get (fun _ => 0) h.evCnt 0
      0 < v → v < h.per → h.t0 + v * uTick u = 20 * s.dtF + eu → (∀ j, 0 < j → j < 4 → s.flag (uEvCfg u j) 31 = false) →
      s.flag (uEvCfg u 0) 31 = true → s.fld (uEvCfg u 0) 3 0 = 9 + k.val → s.fld (uEvCfg u 0) 30 29 = 0 →
      c + 1 ≤ s.fld (uEvCfg u 0) 11 8 →
      ∃ t, exec (.triggerCrossing u k eu) s0 = .next t ∧ Sparse.get (fun _ => 0) (t.getPu u).evCnt 0 = c + 1
        ∧ t.regs = s.regs ∧ ∀ w, w ≠ u.val → t.getPu w = s.getPu w

/-- R97–R100, R102, R106, R107, R116, R149, R415: a set register write marks the register; a seal of a valid set with its required
marks queues it and clears the marks, any other sets SEAL_REFUSED and leaves the queue; a group seal seals all four
outputs or none; a commit of the granted epoch writes, seals and acknowledges its unit's set, any other is rejected; an
IMMEDIATE set transfers 20 ns after its seal; a feedback edge sets LEVEL, and a disagreement that outlasts SFWIN is
F_SWITCH_FB. -/
def Obligations.SetsSealsAndFeedback : Prop :=
  -- a write that is not made under the epoch of the field die is rejected and counted
  (∀ (cmd : Instr) (s : State), ¬ Authorised s →
    (∃ u v, cmd = .puCtlWrite u v) ∨ (∃ (u : Fin 48) (b : Fin 17) (v : Word), b.val < uSetLen u ∧ cmd = .puSetWrite u b v)
      ∨ (∃ u q, cmd = .seal u q) ∨ (∃ g q, cmd = .gpGseal g q) ∨ (∃ v, cmd = .blClr v) ∨ (∃ su v, cmd = .blSsCfgWrite su v)
      ∨ (∃ i thr v, cmd = .cwCfgWrite i thr v) →
    ∃ t, exec cmd s = .next t ∧ t.pu = s.pu ∧ t.cw = s.cw ∧ t.num A.FG_REJCNT = min (s.num A.FG_REJCNT + 1) (2 ^ 32 - 1)
      -- LN_STAT.FQOVF: F_FG_REJECT finds the link down and the field die's fault queue full (R443)
      ∧ ∀ a, a ≠ A.FG_REJCNT → a ≠ A.LN_STAT → t.rd a = s.rd a)
  ∧ (∀ (u : Fin 48) (b : Fin 17) (v : Word) (s0 : State),
    let s := s0.ttFirst
    (b.val < uSetLen u → Authorised s0 → ∃ t, exec (.puSetWrite u b v) s0 = .next t ∧ t.rd (uSet u b) = putMask (setBits u b) (s.rd (uSet u b)) v
      ∧ t.flag (uWmark u) b = true ∧ (∀ a, a ≠ uSet u b → a ≠ uWmark u → t.rd a = s.rd a) ∧ t.pu = s.pu)
    ∧ (uSetLen u ≤ b.val → exec (.puSetWrite u b v) s0 = .next s0))
  ∧ (∀ (u : Fin 48) (seq : BitVec 8) (s0 : State),
      -- timetable actions of the same cycle come first
      let s := s0.ttFirst
      Authorised s0 → (s.getPu u).sealQ = [] →
      let valid := ValidSet s u (fun b => s.rd (uSet u b))
      let marks := s.rd (uSetReq u) &&& ~~~ s.rd (uWmark u) = 0
      ∃ t, exec (.seal u seq) s0 = .next t
        ∧ (valid → marks → (t.getPu u).sealQ = [⟨seq.toNat, 20 * s.dtF, s.fld (uCtl (s.owner u)) 22 21, s.pendingSet u⟩] ∧ t.rd (uWmark u) = 0
            ∧ t.fld (uStat u) 15 8 = seq.toNat ∧ t.flag (uStat u) 29 = true ∧ t.flag (uStat u) 28 = s.flag (uStat u) 28)
        ∧ (¬ (valid ∧ marks) → t.pu = s.pu ∧ t.flag (uStat u) 28 = true ∧ t.rd (uWmark u) = s.rd (uWmark u)
            ∧ (¬ valid → t.flag (uStat u) 25 = true))
        ∧ ∀ b, b < uSetLen u → t.rd (uAct u b) = s.rd (uAct u b))
  ∧ (∀ (g : Fin 8) (seq : BitVec 8) (s0 : State),
      let s := s0.ttFirst
      Authorised s0 → (∀ i, i < 4 → (s.getPu (16 + 4 * g + i)).sealQ = []) →
      let ok := fun (u : Nat) => ValidSet s u (fun b => s.rd (uSet u b)) ∧ s.rd (uSetReq u) &&& ~~~ s.rd (uWmark u) = 0
      ∃ t, exec (.gpGseal g seq) s0 = .next t
        ∧ ((∀ i, i < 4 → ok (16 + 4 * g + i)) → ∀ i, i < 4 → ∃ x, (t.getPu (16 + 4 * g + i)).sealQ = [x] ∧ x.seq = seq.toNat
            ∧ x.words = s.pendingSet (16 + 4 * g + i))
        ∧ (∀ i, i < 4 → ¬ ok (16 + 4 * g + i) → t.pu = s.pu ∧ t.flag (uStat (16 + 4 * g + i)) 28 = true))
  ∧ (∀ (c : Commit) (rest : List Xfer) (s : State), Oldest s.toField (.commit c) rest → s.linkUp = true →
      (s.num A.FG_EPOCH = c.epoch.toNat → c.epoch ≠ 0 → c.unit < 16 → (s.getPu c.unit).sealQ = [] → c.words.length = 17 →
        (∀ b, b < 17 → c.words.getD b 0 &&& ~~~ setBits c.unit b = 0 ∧ s.rd (uSet c.unit b) &&& ~~~ setBits c.unit b = 0) →
        ValidSet s c.unit (fun b => c.words.getD b 0) →
        ∃ t, exec .bogieCommit s = .next t ∧ t.toField = rest ∧ t.toControl = (s.sendC (.sealAck c.ch true 0 c.seq s.dtF)).toControl
          ∧ (∃ x, (t.getPu c.unit).sealQ = [x] ∧ x.seq = c.seq ∧ x.words = c.words) ∧ t.faultQ = s.faultQ)
      ∧ (s.num A.FG_EPOCH ≠ c.epoch.toNat → ∃ t, exec .bogieCommit s = .next t ∧ t.toField = rest ∧ t.pu = s.pu
          ∧ t.num A.FG_REJCNT = min (s.num A.FG_REJCNT + 1) (2 ^ 32 - 1) ∧ Queued (.sealAck c.ch false 1 c.seq s.dtF) t.toControl))
  ∧ (∀ (u : Fin 48) (x : SealedSet) (s : State), PlainUnit s u → s.uRun u = true → (s.getPu u).sealQ = [x] → x.upd = 3 →
      x.at_ + 400 ≤ 20 * s.dtF + 19 → ∃ t, exec (.immediateTransfer u) s = .next t ∧ (t.getPu u).sealQ = []
        ∧ (∀ b, b < uSetLen u → t.rd (uAct u b) = x.words.getD b 0) ∧ t.fld (uStat u) 7 0 = x.seq % 256)
  ∧ ∀ (u : Fin 16) (o : Fin 6) (eu : Fin 20) (s : State),
      (∀ lvl,
        let on := lvl != s.flag (A.PU_SFCFG u) (6 + o)
        ∃ t, exec (.swFeedbackEdge u o lvl eu) s = .next t ∧ t.flag (A.PU_SFSTAT u) o = on
          ∧ ∀ p, p < 6 → p ≠ o.val → t.flag (A.PU_SFSTAT u) p = s.flag (A.PU_SFSTAT u) p)
      ∧ (∀ t0, (s.getOut u o).disSince = some t0 → (s.getOut u o).disRep = false → s.flag (A.PU_SFCFG u) o = true → s.linkUp = true →
          s.fld (A.PU_SFCFG u) 27 16 ≠ 0 → t0 + s.fld (A.PU_SFCFG u) 27 16 * 40 < 20 * s.dtF + eu →
          ∃ t, exec (.swFeedbackDisag u o eu) s = .next t ∧ t.flag (A.PU_SFSTAT u) (8 + o) = true ∧ t.flag (uStat u) 21 = true
            ∧ t.toControl = (s.sendC (.fault ⟨0x61, u, s.dtF, true⟩)).toControl ∧ (t.getOut u o).disRep = true)

/-! ### Comparators, brake lines and safe states -/

/-- R123, R124, R126, R127, R128, R132, R135: a comparator's raw condition follows its input and starts its filter; a condition true for FILT
samples latches the lines of its source with their first source and F_BRAKE, and every unit that subscribes to one of them
is safe at once, under OFF with every output off; a line clears only when no source holds it; a status shows the lines
at the control die.

A command whose condition does not hold leaves the state as it is: the model's choice, assumption 19. -/
def Obligations.BrakeLinesMakeUnitsSafe : Prop :=
  (∀ (n : Fin 64) (v : Int) (s : State), 64 ≤ s.fld (A.CW_CFG n) 22 16 → exec (.cwCondition n v) s = .next s)
  ∧ (∀ (n : Fin 64) (v : Int) (s : State), s.fld (A.CW_CFG n) 22 16 < 64 → s.fld A.PW_STAT 31 29 ≠ 4 → (s.getCw n).testEnd = none →
    let h := s.getCw n
    let filt := s.fld (A.CW_CFG n) 15 8
    let raw := s.cwRaw n v (s.flag (A.CW_STAT n) 31)
    ∃ t, exec (.cwCondition n v) s = .next t ∧ t.flag (A.CW_STAT n) 31 = raw
      -- enabled, ABOVE without hysteresis at an SN tap: the input lies above UPPER/512 of the full scale of RANGE
      ∧ (s.flag (A.CW_CFG n) 31 = true → s.fld (A.CW_CFG n) 30 29 = 0 → s.fld (A.CW_CFG n) 26 25 = 0 → s.fld (A.CW_CFG n) 22 16 < 48 →
          raw = decide (sxInt 10 (s.fld (A.CW_THR n) 25 16) * (100000000 * 4 ^ s.fld (A.CW_CFG n) 28 27) < v * 512))
      ∧ (h.fell = none → raw = true → (t.getCw n).since = some (h.since.getD ((s.dtF + 4) / 5 * 5))
          ∧ (filt = 0 → t.flag (A.CW_STAT n) 30 = true))
      ∧ (h.fell = none → raw = false → filt = 0 ∨ s.dtF % 5 = 0 → (t.getCw n).since = none ∧ t.flag (A.CW_STAT n) 30 = false)
      ∧ (h.fell = none → raw = false → filt ≠ 0 → s.dtF % 5 ≠ 0 → h.since.isSome = true → (t.getCw n).since = h.since
          ∧ (t.getCw n).fell = some s.dtF ∧ t.flag (A.CW_STAT n) 30 = s.flag (A.CW_STAT n) 30)
      ∧ ∀ m, m < 64 → s.fld (A.CW_CFG m) 22 16 ≠ s.fld (A.CW_CFG n) 22 16 → t.getCw m = s.getCw m)
  ∧ (∀ (i : Fin 112) (k : Nat) (since : Nat) (s : State), (s.getCmp i).since = some since → (s.getCmp i).fell = none → s.flag (State.srcCfg i) 31 = true →
      since + 5 * (s.fld (State.srcCfg i) 15 8 - 1) ≤ s.dtF → s.flag (State.srcStat i) 30 = false → k < 8 →
      s.flag (State.srcCfg i) k = true → s.flag A.BL_STAT k = false → s.linkUp = true →
      ∃ t, exec (.brakeFilter i) s = .next t ∧ t.flag (State.srcStat i) 30 = true ∧ t.flag A.BL_STAT k = true
        ∧ t.flag A.BL_STAT (8 + k) = true ∧ Queued (.fault ⟨0x60, k, s.dtF, true⟩) t.toControl
        ∧ (s.flag (A.BL_SRC k) 31 = false → t.rd (A.BL_SRC k) = BitVec.ofNat 32 (2 ^ 31 + i))
        ∧ ∀ su, su < 16 → s.flag (A.BL_SS_CFG su) (8 + k) = true → s.flag (A.BL_SS_STAT su) 31 = false →
            t.flag (A.BL_SS_STAT su) 31 = true
            ∧ (s.ssCode su = 0 → t.fld (A.BL_SS_STAT su) 30 28 = 0 ∧ ∀ o, o < 6 → (t.getOut su o).on = false))
  ∧ (∀ (i : Fin 112) (c f : Nat) (s : State), (s.getCmp i).since = some c → (s.getCmp i).fell = some f → (f + 4) / 5 * 5 ≤ s.dtF →
      ∃ t, exec (.brakeFilter i) s = .next t ∧ t.flag (State.srcStat i) 30 = false ∧ (t.getCmp i).since = none)
  ∧ (∀ (v : Word) (k : Nat) (s0 : State),
      -- timetable actions of the same cycle come first
      let s := s0.ttFirst
      Authorised s0 → k < 8 → bitOf v k = true → s.flag A.BL_STAT k = true →
      ∃ t, exec (.blClr v) s0 = .next t
        ∧ (s.lineActive k = true → t.flag A.BL_STAT k = true ∧ t.flag A.BL_STAT (16 + k) = true)
        ∧ (s.lineActive k = false → t.flag A.BL_STAT k = false ∧ t.flag (A.BL_SRC k) 31 = false)
        ∧ ∀ j, j < 8 → bitOf v j = false → t.flag A.BL_STAT j = s.flag A.BL_STAT j)
  ∧ ∀ (l : Nat) (rest : List Xfer) (s : State), Oldest s.toControl (.brakeLine l) rest →
      exec .brakeLineStatus s = .next { s with toControl := rest, brakeCd := l }

/-- R128, R131, R132, R136–R138: a unit that a line or GSAFE holds safe refuses its configuration; SPEEDSEL is taken anew every
microsecond; an output that a safe state turns on waits for its dead time and its partner's feedback; a write of a
comparator restarts its filter; the self-tests report.

The outcomes of tests are operands, assumption 18. A command whose condition does not hold leaves the state as it is: the model's choice, assumption 19. -/
def Obligations.SafeStatesAndComparatorTests : Prop :=
  (∀ (su : Fin 24) (v : Word) (s0 : State),
    let s := s0.ttFirst
    Authorised s0 → ∃ t, exec (.blSsCfgWrite su v) s0 = .next t
    ∧ (s.flag (A.BL_SS_STAT su) 31 = true → s.lineSafe su = true ∨ s.flag A.FG_STAT su = true →
        t.rd (A.BL_SS_CFG su) = s.rd (A.BL_SS_CFG su) ∧ t.flag (A.BL_SS_STAT su) 27 = true ∧ t.pu = s.pu)
    -- safe by limp alone: applied, and the same SS is not entered anew
    ∧ (s.flag (A.BL_SS_STAT su) 31 = true → s.lineSafe su = false → s.flag A.FG_STAT su = false → s.limp = true →
        t.rd (A.BL_SS_CFG su) = putMask 0x1FF7F (s.rd (A.BL_SS_CFG su)) v ∧ (bitsOf v 6 4 = s.ssCode su → t.ss = s.ss))
    ∧ (s.flag (A.BL_SS_STAT su) 31 = false → t.rd (A.BL_SS_CFG su) = putMask 0x1FF7F (s.rd (A.BL_SS_CFG su)) v
        ∧ (5 ≤ bitsOf v 6 4 ∨ 16 ≤ su.val ∧ (bitsOf v 6 4 = 1 ∨ bitsOf v 6 4 = 2 ∨ bitsOf v 6 4 = 4) → t.flag (A.BL_SS_STAT su) 26 = true)))
  ∧ (∀ (su : Fin 16) (s : State), let su' : Fin 24 := ⟨su.val, by omega⟩
      s.flag (A.BL_SS_STAT su) 31 = true → s.ssCode su = 4 → (s.getSs su).evalAt + 1000 ≤ s.dtF → s.fieldClkLost = false →
      s.fld A.PW_STAT 31 29 < 4 →
      let est := s.trkEstimate (s.fld (A.BL_SS_CFG su) 3 0)
      ∃ t, exec (.speedselEval su') s = .next t ∧ (t.getSs su).evalAt = (s.getSs su).evalAt + 1000
        ∧ t.fld (A.BL_SS_STAT su) 30 28 = (if (t.getSs su).low then 1 else 0)
        ∧ (est = none → (t.getSs su).low = ! s.flag (A.BL_SS_CFG su) 16 ∧ t.flag (A.BL_SS_STAT su) 24 = true)
        ∧ (∀ v, est = some v → t.flag (A.BL_SS_STAT su) 24 = false
            ∧ (s.num (A.BL_SS_ASC su) * 2 ^ 16 < v → (t.getSs su).low = true)
            ∧ (v ≤ (s.num (A.BL_SS_ASC su) - s.num (A.BL_SS_HYS su)) * 2 ^ 16 → (t.getSs su).low = false)))
  ∧ (∀ (u : Fin 16) (o : Fin 6) (eu : Fin 20) (d : Nat) (s : State), (s.getOut u o).due = some d → (s.getPu u).safe = 1 →
      d ≤ 20 * s.dtF + eu → (s.getOut u (State.partner o)).on = false →
      ∃ t, exec (.safeTurnOn u o eu) s = .next t
        ∧ (s.fbPartnerOff u o = true → (t.getOut u o).on = true ∧ (t.getOut u o).onAt = 20 * s.dtF + eu ∧ (t.getOut u o).due = none)
        ∧ (s.fbPartnerOff u o = false → t.pu = s.pu ∧ ((s.getOut u o).on = false → t.flag (A.BL_SS_STAT u) 25 = true))
        ∧ ∀ p, p ≠ o.val → t.getOut u p = s.getOut u p)
  ∧ (∀ (i : Fin 112) (thr : Bool) (v : Word) (s0 : State),
      let s := s0.ttFirst
      Authorised s0 → ∃ t, exec (.cwCfgWrite i thr v) s0 = .next t
      ∧ (let a := if thr then State.srcThr i else State.srcCfg i
         t.rd a = putMask (if thr then 0x3FF03FF else if i.val < 64 then 0xFE7FFFFF else 0xE07FFFFF) (s.rd a) v)
      ∧ (t.flag (State.srcStat i) 30 = true → t.fld (State.srcCfg i) 15 8 = 0)
      ∧ (thr = false → bitsOf v 30 29 = 3 ∨ (if i.val < 64 then 64 else 72) ≤ bitsOf v 22 16 → t.flag (State.srcStat i) 27 = true)
      ∧ ∀ j, j < 112 → j ≠ i.val → t.getCmp j = s.getCmp j)
  ∧ (∀ (r : Option (Fin 128)) (s : State), s.selfTested = true → exec (.compSelftestDone r) s = .next s)
  ∧ (∀ s : State, s.selfTested = false →
      (∃ t, exec (.compSelftestDone none) s = .next t ∧ t.flag A.CP_STSTAT 31 = true ∧ t.faultQ = s.faultQ)
      ∧ ∀ f : Fin 128, f.val < 64 ∨ (112 ≤ f.val ∧ f.val < 120) → s.linkUp = true → ∃ t, exec (.compSelftestDone (some f)) s = .next t
        ∧ t.flag A.CP_STSTAT 30 = true ∧ t.fld A.CP_STSTAT 6 0 = f.val ∧ (f.val < 64 → t.flag (A.CW_STAT f) 28 = true)
        ∧ t.toControl = (s.sendC (.fault ⟨0x67, f, s.dtF, true⟩)).toControl)
  ∧ (∀ (n : Fin 64) (s : State),
      let slot := s.dtF + s.fld A.CP_STCTL 6 0 * 1000000 / 64
      1 ≤ s.fld A.CP_STCTL 6 0 → s.fld A.CP_STCTL 6 0 ≤ 100 → s.flag A.CP_STCTL 31 = true → s.flag (A.CW_CFG n) 31 = true →
      s.bg.next ≤ s.dtF → s.bg.swept.testBit n = false → (∀ m, m < 64 → (s.getCw m).testEnd = none) →
      (s.flag (A.CW_STAT n) 31 = false → (s.getCw n).since = none → ∃ t, exec (.cwBgTest n) s = .next t
        ∧ (t.getCw n).testEnd = some (s.dtF + 400) ∧ t.bg.next = slot ∧ t.regs = s.regs ∧ ∀ m, m ≠ n.val → t.getCw m = s.getCw m)
      ∧ (s.flag (A.CW_STAT n) 31 = true ∨ (s.getCw n).since.isSome = true →
        exec (.cwBgTest n) s = .next { s with bg := { s.bg with next := slot } }))
  ∧ ∀ (n : Fin 64) (ok : Bool) (e : Nat) (s : State), (s.getCw n).testEnd = some e → e ≤ s.dtF →
      ∃ t, exec (.cwBgTestDone n ok) s = .next t ∧ (t.getCw n).testEnd = none
        ∧ (ok = true → t.rd A.CP_STSTAT = s.rd A.CP_STSTAT)
        ∧ (ok = false → t.flag (A.CW_STAT n) 28 = true ∧ t.flag A.CP_STSTAT 29 = true
            ∧ (s.flag A.CP_STSTAT 29 = false → s.flag A.CP_STSTAT 30 = false → t.fld A.CP_STSTAT 6 0 = n.val)
            ∧ (s.linkUp = true → Queued (.fault ⟨0x67, n, s.dtF, true⟩) t.toControl))

/-! ### The bogies -/

/-- R145, R154, R155, R157, R163, R164: a gather that waits GATHERTO releases its task with PARTIAL; an idle bogie starts its head task
8 ns on and restores a preempted one 12 ns on; a trap-ok point gives way to an earlier deadline, with the task saved; a
task longer than OVRB is F_BOGIE_OVERRUN and poisons its channel; utilisation counts a millisecond's busy time.

The deadline before a first notice is deduced, assumption 10. -/
def Obligations.BogieTasks : Prop :=
  (∀ (ch : Fin 64) (g : Gather) (s : State), s.getGather ch = some g → s.chMode ch = 1 ∨ s.chMode ch = 2 ∨ s.chMode ch = 4 →
    let gto := bitsOf (s.ctx ch 6) 31 16
    gto ≠ 0 → g.opened + gto ≤ s.dtC → s.pport = [] → (s.getCh ch).rdNext = none →
    ∃ t, exec (.gatherTimeout ch) s = .next t ∧ t.getGather ch = none
      ∧ ∃ k ∈ t.tasks, k.ch = ch.val ∧ k.st = .queued ∧ k.rel = g.opened + gto ∧ k.cause = 2 ∧ k.part = true)
  ∧ (∀ (b : Fin 5) (k : Task) (s : State), (s.getBog b).run = none → (s.getBog b).freeAt ≤ s.dtC → s.fld (A.BGn_STAT b) 31 30 ≠ 2 →
      headTask s b = some k → s.pport = [] → (s.getCh k.ch).rdNext = none → b.val ≠ 4 ∨ s.fld A.BG_RELIEF 31 29 ≠ 1 →
      ∃ t, exec (.taskDispatch b) s = .next t ∧ (t.getBog b).run = some k.ch
        ∧ (t.getBog b).nextAt = (s.dtC + (if k.st = .preempted then 12 else 8)) * 9
        ∧ (∃ j ∈ t.tasks, j.ch = k.ch ∧ j.st = .running ∧ j.since = s.dtC)
        ∧ (k.st = .preempted → ∀ h ws, (s.getCh k.ch).save = some (h, ws) → (t.getBog b).task = { h with trapok := false }
          ∧ (t.getBog b).restAt = s.dtC + 12 ∧ (t.getCh k.ch).save = none))
  ∧ (∀ (b : Fin 5) (e : MEnv) (k : Task) (s : State), running b s = some e → headTask s b = some k → e.h.trapok = true →
      k.dl < e.task.dl →
      ∃ t, exec (.microTrap b) s = .next t ∧ (t.getBog b).run = none ∧ (t.getCh e.ch).save.isSome = true
        ∧ (t.getBog b).freeAt = s.dtC + 12 ∧ (t.getBog b).saving = some e.ch ∧ (∃ j ∈ t.tasks, j.ch = e.ch ∧ j.st = .preempted)
        ∧ t.num (A.BGn_CNT_TRAP b) = min (s.num (A.BGn_CNT_TRAP b) + 1) (2 ^ 32 - 1))
  ∧ (∀ (b : Fin 5) (ch : Nat) (k : Task) (s : State), (s.getBog b).run = some ch →
      s.tasks.find? (fun t => t.ch == ch && t.st == TaskSt.running) = some k →
      let o := s.fld (A.BGn_OVRB b) 10 0
      (if 200 ≤ o ∧ o ≤ 2000 then o else 2000) < k.ran + (s.dtC - k.since) →
      ∃ t, exec (.bogieOverrun b) s = .next t ∧ t.flag (A.BGn_STAT b) 28 = true ∧ ⟨0x22, b, s.dtC, false⟩ ∈ t.faultQ
        ∧ (t.getBog b).run = none ∧ (ch < 64 → t.flag (ctxA ch 0) 21 = true))
  ∧ (∀ (b : Fin 5) (s : State), let g := s.getBog b
      let w := s.dtC / 1000000 * 1000000
      let busy := if g.run.isSome then g.busyNs + (w - g.busyFrom) else g.busyNs
      let util := min (min busy 1000000 * 1024 / 1000000) 1023
      g.utilEnd < w → ∃ t, exec (.utilWindow b) s = .next t ∧ t.fld (A.BGn_UTIL b) 9 0 = util
        ∧ t.fld (A.BGn_UTIL b) 25 16 = max util (s.fld (A.BGn_UTIL b) 25 16) ∧ (t.getBog b).busyNs = 0
        ∧ (716 < util → t.flag (A.BGn_IRQST b) 4 = true) ∧ (util ≤ 716 → t.rd (A.BGn_IRQST b) = s.rd (A.BGn_IRQST b)))
  ∧ ∀ (b : Fin 5) (s : State),
      (∃ t, exec (.bgClrCnt b) s = .next t ∧ (∀ a, A.BGn_CNT_LATE b ≤ a → a ≤ A.BGn_CNT_STNW b → a % 4 = 0 → t.rd a = 0)
        ∧ (∀ a, a < A.BGn_CNT_LATE b ∨ A.BGn_CNT_STNW b < a → t.rd a = s.rd a) ∧ t.bog = s.bog)
      ∧ (∃ t, exec (.bgClrTgap b) s = .next t ∧ t.rd (A.BGn_TGAP b) = 0 ∧ (∀ a, a ≠ A.BGn_TGAP b → t.rd a = s.rd a) ∧ t.bog = s.bog)
      ∧ (∃ t, exec (.bgClrPeak b) s = .next t ∧ t.fld (A.BGn_UTIL b) 25 16 = 0 ∧ t.fld (A.BGn_UTIL b) 9 0 = s.fld (A.BGn_UTIL b) 9 0
        ∧ (∀ a, a ≠ A.BGn_UTIL b → t.rd a = s.rd a) ∧ t.bog = s.bog)

/-- R147, R148, R151, R152, R160, R164: a parameter write is held until an iteration boundary of its channel, where one of word 0 or 9–13
is refused with WERR and one of word 8 changes LATELIM alone; an acknowledgement shows whether the set was accepted; a notice is
the unit's newest; relief adopts the failed bogie's channels with a catch-up task each, ends when these have ended, and
fails after 9.8 µs.

A command whose condition does not hold leaves the state as it is: the model's choice, assumption 19. -/
def Obligations.ParameterPortAndRelief : Prop :=
  (∀ (m : Master) (v : Word) (s : State), m = .coreA ∨ m = .coreB →
    let a := s.getLatch m A.BG_PPORT_ADDR
    let ch := bitsOf a 13 8
    let n := (s.pport.filter (fun p => p.ch / 16 == ch / 16)).length
    (n < 64 → exec (.pportData m v) s = .next { s with pport := s.pport ++ [⟨ch, bitsOf a 7 0, v, 0xFFFFFFFF, s.dtC, none, s.dtC⟩] })
    ∧ (64 ≤ n → ∃ t, exec (.pportData m v) s = .next t ∧ t.flag A.BG_PPORT_STAT 31 = true ∧ t.pport = s.pport))
  ∧ (∀ (v : Word) (s : State), exec (.pportData .host v) s = .next s ∧ exec (.pportData .lamp v) s = .next s)
  ∧ (∀ (ch : Fin 64) (s : State), (s.chBusy ch = true → exec (.iterationBoundary ch) s = .next s)
      ∧ ∀ p, s.chBusy ch = false → (s.getCh ch).rdNext = none → s.pport = [p] → p.ch = ch.val → p.wb = none → s.chMode ch = 0 →
          p.at_ ≤ s.dtC → p.arr < s.dtC → p.word < 256 →
          ∃ t, exec (.iterationBoundary ch) s = .next t ∧ t.pport = []
            ∧ (32 ≤ p.word → t.ctx ch p.word = (s.ctx ch p.word &&& ~~~ p.mask) ||| (p.val &&& p.mask)
                ∧ ∀ a, a ≠ ctxA ch p.word → t.rd a = s.rd a)
            ∧ (p.word = 0 ∨ 9 ≤ p.word ∧ p.word ≤ 13 → t.flag A.BG_PPORT_STAT 30 = true ∧ ∀ a, a ≠ A.BG_PPORT_STAT → t.rd a = s.rd a)
            ∧ (p.word = 8 → p.mask = 0xFFFFFFFF → t.flag A.BG_PPORT_STAT 30 = true ∧ bitsOf (t.ctx ch 8) 7 0 = bitsOf p.val 7 0
                ∧ bitsOf (t.ctx ch 8) 15 8 = bitsOf (s.ctx ch 8) 15 8))
  ∧ (∀ (ch cause seq dt : Nat) (ok : Bool) (rest : List Xfer) (s : State), Oldest s.toControl (.sealAck ch ok cause seq dt) rest → ch < 64 →
      let b := s.bogieOf ch
      ∃ t, exec .sealAck s = .next t ∧ t.toControl = rest ∧ t.flag (ctxA ch 0) 24 = ! ok
        ∧ (ok = true → t.ctx ch 11 = BitVec.ofNat 32 dt)
        ∧ (ok = false → t.num (A.BGn_CNT_SETREF b) = min (s.num (A.BGn_CNT_SETREF b) + 1) (2 ^ 32 - 1) ∧ t.flag (A.BGn_IRQST b) 2 = true))
  ∧ (∀ (u : Nat) (n : Notice) (rest : List Xfer) (s : State), Oldest s.toControl (.notice u n) rest →
      ∃ t, exec .unitNotice s = .next t ∧ t.toControl = rest ∧ t.getNotice u = n ∧ (∀ v, v ≠ u → t.getNotice v = s.getNotice v)
        ∧ t.regs = s.regs)
  ∧ (∀ (m : MirrorErr) (s : State), s.fld A.BG_RELIEF 31 29 = 1 → s.pport = [] → (∀ c, (s.getCh c).rdNext = none) →
      let b := s.fld A.BG_RELIEF 28 27
      ∃ t, exec (.reliefAdopted m) s = .next t ∧ t.fld A.BG_RELIEF 31 29 = 2
        ∧ (m.two = true → ⟨0x25, b, s.dtC, false⟩ ∈ t.faultQ) ∧ (m.two = false → t.faultQ = s.faultQ)
        ∧ t.num (A.BGn_CNT_ECC1 4) = min (s.num (A.BGn_CNT_ECC1 4) + m.one) (2 ^ 32 - 1)
        ∧ ∀ i, i < 16 → s.chMode (16 * b + i) = 1 ∨ s.chMode (16 * b + i) = 2 ∨ s.chMode (16 * b + i) = 4 →
            t.bogieOf (16 * b + i) = 4 ∧ ∃ k ∈ t.tasks, k.ch = 16 * b + i ∧ k.catchup = true ∧ k.st = .queued ∧ k.rel = s.dtC)
  ∧ ∀ s : State,
      (s.fld A.BG_RELIEF 31 29 = 2 → (∀ k ∈ s.tasks, k.catchup = false) → ∃ t, exec .reliefCatchupDone s = .next t
        ∧ t.fld A.BG_RELIEF 31 29 = 3 ∧ t.fld (A.BGn_STAT 4) 31 30 = 3 ∧ t.tasks = s.tasks)
      ∧ (s.fld A.BG_RELIEF 31 29 = 2 → (∃ k ∈ s.tasks, k.catchup = true) → exec .reliefCatchupDone s = .next s)
      ∧ (s.fld A.BG_RELIEF 31 29 = 1 → s.reliefFailed = false → s.num64 A.BG_RELDT_L A.BG_RELDT_H + 9800 ≤ s.dtC →
          ∃ t, exec .reliefTimeout s = .next t ∧ t.reliefFailed = true
            ∧ t.faultQ = s.faultQ ++ [⟨0x25, s.fld A.BG_RELIEF 28 27, s.dtC, false⟩] ∧ t.tasks = s.tasks)

/-- R141, R142, R157, R168–R170, R176, R177, R180, R182, R186: a microword issues when its bogie is due: an ALU operation writes its
destination and the micro-PC moves on, a word that waits is held, one that fails R168 or R169 is F_BOGIE_UPARITY, and a
held WAIT word leaves through its deadline; the operations in flight, and the lookups, deliver their results.

That a faulty task ends at the detection is deduced, assumption 49. -/
def Obligations.MicrocodeExecution : Prop :=
  (∀ (b : Fin 5) (up : Upset) (e : MEnv) (s0 : State),
    -- what has completed is in the temporaries
    let s := landDue b s0
    running b s = some e → (s0.getBog b).nextAt ≤ s0.dtC * 9 → e.h.rom = none → romStub s e.h.pc = none →
    let g := s.getBog b
    let w := fetchMicro s e.h.pc
    let good := parityOk w && legalWord w e.h.ret.isSome
    (up = .parity ∨ good = false → ∃ t, exec (.microwordIssue b up) s0 = .next t ∧ t.flag (A.BGn_STAT b) 27 = true
      ∧ ⟨0x21, b, s.dtC, false⟩ ∈ t.faultQ ∧ (t.getBog b).run = none)
    ∧ (up = .none → good = true → (interlock e g w).1 = false → e.waitOk g (mw w 119 115) = false →
        ∃ t, exec (.microwordIssue b up) s0 = .next t ∧ (t.getBog b).task.held = true ∧ (t.getBog b).task.pc = e.h.pc
          ∧ (t.getBog b).task.t = e.h.t ∧ t.regs = s.regs)
    -- an addition by ALU0 into a register t, alone in its word
    ∧ (up = .none → good = true → (interlock e g w).1 = false → e.waitOk g (mw w 119 115) = true → mw w 113 108 = 1 → mw w 45 40 < 16 →
        mw w 95 90 = 0 → mw w 77 74 = 0 → mw w 61 60 = 0 → mw w 53 52 = 0 → mw w 19 16 = 0 → mw w 129 126 ≤ 1 →
        ∃ t, exec (.microwordIssue b up) s0 = .next t
          ∧ Sparse.get (fun _ => 0) (t.getBog b).task.t (mw w 45 40) = e.read s w (mw w 107 102) + e.read s w (mw w 101 96)
          ∧ (t.getBog b).task.pc = (if mw w 129 126 = 0 then (e.h.pc + 1) % 0x4000 else mw w 143 130)
          ∧ (t.getBog b).inflight = (landUpTo (issueAt s g + bogieCycle s) g).inflight ∧ (t.getBog b).run = g.run ∧ t.tasks = s.tasks)
    ∧ (good = true → mw w 129 126 = 6 → (interlock e g w).1 = false → e.waitOk g (mw w 119 115) = false → e.task.dl ≤ s.dtC →
        mw w 53 52 = 0 → mw w 95 90 ≤ 0x14 → mw w 19 16 = 0 →
        ∃ t, exec (.waitDeadline b) s0 = .next t ∧ (t.getBog b).task.pc = mw w 143 130))
  -- what completes first lands: an operation of the unit, or a lookup
  ∧ (∀ (b : Fin 5) (fu : Fu) (c : Instr) (o : InFlight) (post : List InFlight) (n : Nat) (v : Word) (s : State),
      (fu, c) ∈ [(.fma, .fmaResult b), (.rot, .rotResult b), (.div, .divResult b), (.svu, .svuResult b)] →
      (s.getBog b).inflight = o :: post → o.fu = fu → o.due ≤ s.dtC * 9 → (∀ p ∈ post, o.due ≤ p.due) →
      (∀ x ∈ (s.getBog b).stations, o.due < x.due) →
      (o.dsts = [(true, n, v)] → ∃ t, exec c s = .next t ∧ (t.getBog b).inflight = post
        ∧ Sparse.get (fun _ => 0) (t.getBog b).task.f n = v ∧ t.regs = s.regs)
      ∧ (o.dsts = [(false, n, v)] → ∃ t, exec c s = .next t ∧ (t.getBog b).inflight = post
        ∧ Sparse.get (fun _ => 0) (t.getBog b).task.t n = v ∧ t.regs = s.regs))
  ∧ (∀ (b : Fin 5) (o : InFlight) (n : Nat) (v : Word) (s : State), (s.getBog b).inflight = [o] → (s.getBog b).stations = [] →
      o.fu = .yld → o.due ≤ s.dtC * 9 → o.dsts = [(false, n, v)] → ∃ t, exec (.yldResult b) s = .next t
        ∧ (t.getBog b).inflight = [] ∧ Sparse.get (fun _ => 0) (t.getBog b).task.t n = v ∧ t.regs = s.regs)
  ∧ ∀ (b : Fin 5) (ch : Nat) (x : Station) (r : Word) (fb : Bool) (post : List Station) (s : State), (s.getBog b).run = some ch →
      (s.getBog b).stations = x :: post → x.ch = ch → x.taken = false → x.res = some (r, fb) → x.due ≤ s.dtC * 9 →
      (∀ y ∈ post, x.due ≤ y.due) → (∀ o ∈ (s.getBog b).inflight, x.due < o.due) →
      ∃ t, exec (.mapResult b) s = .next t ∧ Sparse.get (fun _ => 0) (t.getBog b).task.f x.tag = r
        ∧ (t.getBog b).task.mapFlags.testBit x.tag = fb ∧ (t.getBog b).stations.head? = some { x with taken := true } ∧ t.regs = s.regs

/-- R214, R219, R223, R224, R227: a load whose writes are acknowledged enters STAGED; a line that returns is installed, or reported as
poison; clearing EN empties every map; READY follows EN and the area, CFGERR the area; CLR.CNT clears the five counters. -/
def Obligations.MapStore : Prop :=
  (∀ (n : Fin 256) (l : MapLoadSt) (s : State), (s.getMap n).load = some l → l.started = true → s.farUp = true → l.wb = none →
    ∃ t, exec (.mapLoadDone n) s = .next t ∧ (t.getMap n).load = none ∧ t.mapState n = 2 ∧ t.flag A.MP_IRQST 0 = true
      ∧ (∀ m, m ≠ n.val → t.getMap m = s.getMap m))
  ∧ (∀ (poison : Bool) (l : Nat) (rest : List Nat) (s : State), s.fetches = l :: rest → s.bog = [] →
      (poison = false → Sparse.get (fun _ => false) s.farPoison l = false → s.linePinned l = false →
        (∃ w, w < 16 ∧ s.getLine (l % 2048 * 16 + w) = none) →
        ∃ t, exec (.cacheLineFill poison) s = .next t ∧ t.fetches = rest ∧ (∃ k, t.findLine l = some k
          ∧ (t.getLine k).map (·.data) = some (s.farLine l)) ∧ t.regs = s.regs)
      ∧ (poison = true → ∃ t, exec (.cacheLineFill poison) s = .next t ∧ t.fetches = rest ∧ t.cache = s.cache
          ∧ t.num A.MP_CNT_POISON = min (s.num A.MP_CNT_POISON + 1) (2 ^ 32 - 1)))
  ∧ (∀ (v : Word) (s : State), ∃ t, exec (.mpCtrlWrite v) s = .next t ∧ t.flag A.MP_CTRL 31 = bitOf v 31
      ∧ t.flag A.MP_STAT 31 = (bitOf v 31 && ! t.areaBad) ∧ t.flag A.MP_STAT 29 = t.areaBad
      ∧ (s.flag A.MP_CTRL 31 = true → bitOf v 31 = false → (∀ n, t.getMap n = {}) ∧ ∀ k, t.getLine k = none)
      ∧ (bitOf v 31 = true → t.maps = s.maps ∧ t.cache = s.cache))
  ∧ ∀ s : State, ∃ t, exec .mpClrCnt s = .next t ∧ t.rd A.MP_CNT_HIT = 0 ∧ t.rd A.MP_CNT_MISS = 0 ∧ t.rd A.MP_CNT_FB = 0
      ∧ t.rd A.MP_CNT_ECC1 = 0 ∧ t.rd A.MP_CNT_POISON = 0 ∧ (∀ a, a < A.MP_CNT_HIT ∨ A.MP_CNT_POISON < a → t.rd a = s.rd a)
      ∧ t.maps = s.maps ∧ t.cache = s.cache

/-! ### General counters -/

/-- R346–R352, R354, R355: a count edge adds one and matches its compares; at RELOAD it wraps with OVF and carries into the counter above;
in ONE-SHOT the count END ends it with DONE; every (PRESC + 1)th clock, or each selected edge of a pin, is a count edge;
ARM, RESTART and CAPTURE act as a command and as a hardware trigger; a late compare matches without an edge.

A command whose condition does not hold leaves the state as it is: the model's choice, assumption 19. -/
def Obligations.CountersCount : Prop :=
  (∀ (n : Fin 32) (s : State), s.tcSrc n = 0 → s.flag (A.TC_LINK n) 31 = false → s.tcRunning n = true →
    -- an edge of the field clock that the counter has not taken yet
    s.dtF % 4 = 0 → s.fieldClkLost = false → (s.getTc n).clkAt ≠ some s.dtF →
    let c := s.tcCnt n
    let plain := n.val % 4 = 3 ∨ s.tcSrc (n.val + 1) ≠ 2
    let full := (s.getTc n).presc = s.fld (A.TC_CTL n) 23 16
    ((s.getTc n).presc < s.fld (A.TC_CTL n) 23 16 → ∃ t, exec (.countEdge n) s = .next t ∧ (t.getTc n).presc = (s.getTc n).presc + 1
      ∧ t.regs = s.regs)
    ∧ (full → s.tcOneShot n = false → c ≠ s.num (A.TC_RELOAD n) → c ≠ 2 ^ 32 - 1 → ∃ t, exec (.countEdge n) s = .next t
      ∧ t.num (A.TC_CNT n) = c + 1 ∧ t.num (A.TC_LIVE n) = c + 1 ∧ (t.getTc n).presc = 0
      ∧ (s.num (A.TC_CMP0 n) = c + 1 → t.flag (A.TC_STAT n) 26 = true)
      ∧ (s.num (A.TC_CMP0 n) ≠ c + 1 → t.flag (A.TC_STAT n) 26 = s.flag (A.TC_STAT n) 26)
      ∧ (s.num (A.TC_CMP1 n) = c + 1 → t.flag (A.TC_STAT n) 25 = true)
      ∧ ∀ m, m < 32 → m ≠ n.val → t.num (A.TC_CNT m) = s.num (A.TC_CNT m))
    ∧ (full → s.tcOneShot n = false → c = s.num (A.TC_RELOAD n) → plain → ∃ t, exec (.countEdge n) s = .next t
      ∧ t.num (A.TC_CNT n) = 0 ∧ t.flag (A.TC_STAT n) 27 = true ∧ ∀ m, m < 32 → m ≠ n.val → t.num (A.TC_CNT m) = s.num (A.TC_CNT m))
    ∧ (full → s.tcOneShot n = false → c = s.num (A.TC_RELOAD n) → n.val % 4 ≠ 3 → s.tcSrc (n.val + 1) = 2 → s.flag (A.TC_LINK (n.val + 1)) 31 = false →
      s.tcRunning (n.val + 1) = true →
      s.tcOneShot (n.val + 1) = false → s.flag (A.TC_GATE (n.val + 1)) 31 = false → s.tcCnt (n.val + 1) ≠ s.num (A.TC_RELOAD (n.val + 1)) →
      s.tcCnt (n.val + 1) ≠ 2 ^ 32 - 1 → ∃ t, exec (.countEdge n) s = .next t
      ∧ t.num (A.TC_CNT n) = 0 ∧ t.num (A.TC_CNT (n.val + 1)) = s.tcCnt (n.val + 1) + 1)
    ∧ (full → s.tcOneShot n = true → c + 1 = s.num (A.TC_END n) → ∃ t, exec (.countEdge n) s = .next t
      ∧ t.num (A.TC_CNT n) = c + 1 ∧ t.flag (A.TC_STAT n) 28 = true ∧ t.flag (A.TC_STAT n) 30 = false ∧ t.flag (A.TC_STAT n) 31 = false))
  ∧ (∀ (n : Fin 32) (p : Fin 64) (s : State), s.tcSrc n = 1 → s.fld (A.TC_CTL n) 26 25 = 0 → s.fld (A.TC_CTL n) 13 8 = p.val →
      s.flag (A.TC_LINK n) 31 = false → s.flag (A.TC_TRG n) 31 = false → s.flag (A.TC_GATE n) 31 = false → s.tcRunning n = true →
      s.tcOneShot n = false → s.tcCnt n ≠ s.num (A.TC_RELOAD n) → s.tcCnt n ≠ 2 ^ 32 - 1 →
      s.dtF % 4 = 0 → s.fieldClkLost = false → ∀ (lvl : Bool) (held : BitVec 8),
      -- a level held for FILT samples changes the filtered level, a shorter one does not
      (s.fld (A.TC_CTL n) 7 0 ≤ held.toNat → (s.getTc n).pins.getLsbD p = ! lvl → ∃ t, exec (.tcPinEdge n p ⟨lvl, held⟩) s = .next t
          ∧ t.num (A.TC_CNT n) = s.tcCnt n + lvl.toNat ∧ (t.getTc n).pins.getLsbD p = lvl
          ∧ ∀ q : Fin 64, q ≠ p → (t.getTc n).pins.getLsbD q = (s.getTc n).pins.getLsbD q)
      ∧ (held.toNat < s.fld (A.TC_CTL n) 7 0 → exec (.tcPinEdge n p ⟨lvl, held⟩) s = .next s))
  ∧ (∀ (n : Fin 32) (s0 : State),
      -- timetable actions of the same cycle come first
      let s := s0.ttFirst
      (∃ t, exec (.tcArm n) s0 = .next t ∧ t.rd (A.TC_CNT n) = 0 ∧ (t.getTc n).presc = 0
        ∧ (s.tcOneShot n = true → t.flag (A.TC_STAT n) 30 = decide (s.num (A.TC_END n) ≠ 0)
            ∧ t.flag (A.TC_STAT n) 28 = decide (s.num (A.TC_END n) = 0)))
      ∧ (∃ t, exec (.tcRestart n) s0 = .next t ∧ t.rd (A.TC_CNT n) = 0 ∧ t.rd (A.TC_LIVE n) = 0 ∧ (t.getTc n).presc = 0
        ∧ ∀ a, a ≠ A.TC_CNT n → a ≠ A.TC_LIVE n → t.rd a = s.rd a)
      ∧ (∃ t, exec (.tcCapture n) s0 = .next t ∧ t.rd (A.TC_CAP n) = s.rd (A.TC_CNT n) ∧ t.flag (A.TC_STAT n) 23 = true
        ∧ ∀ m, m < 32 → t.rd (A.TC_CNT m) = s.rd (A.TC_CNT m))
      ∧ ((s.getTc n).trig = 0 → exec (.tcTrigger n) s0 = .next s)
      ∧ ((s.getTc n).trig ≠ 0 → s.dtF % 4 = 0 → s.fieldClkLost = false → ∃ t, exec (.tcTrigger n) s0 = .next t ∧ (t.getTc n).trig = 0
        ∧ (s.fld (A.TC_TRG n) 27 26 ≤ 1 → t.rd (A.TC_CNT n) = 0)
        ∧ (s.fld (A.TC_TRG n) 27 26 = 2 → t.rd (A.TC_CAP n) = s.rd (A.TC_CNT n) ∧ t.rd (A.TC_CNT n) = s.rd (A.TC_CNT n))
        ∧ (s.fld (A.TC_TRG n) 27 26 = 3 → t.tcEn n = false ∧ t.rd (A.TC_CNT n) = s.rd (A.TC_CNT n))))
  ∧ ∀ (n : Fin 32) (k : Fin 2) (s : State),
      ((s.getTc n).late.testBit k = true → (s.getTc n).lateAt / 4 < s.dtF / 4 → ∃ t, exec (.lateMatch n k) s = .next t ∧ t.flag (A.TC_STAT n) 24 = true
        ∧ t.flag (A.TC_STAT n) (26 - k.val) = true ∧ (t.getTc n).late.testBit k = false ∧ t.rd (A.TC_CNT n) = s.rd (A.TC_CNT n))
      ∧ ∀ v : Word, ∃ t, exec (.tcCmpWrite n k v) s = .next t ∧ t.rd (A.TC_CMP0 n + 4 * k.val) = v
        ∧ (s.flag (A.TC_CTL n) 24 = true → v.toNat ≤ s.tcCnt n → (t.getTc n).late.testBit k = true ∧ (t.getTc n).lateAt = s.dtF)
        ∧ (s.tcCnt n < v.toNat → t.tc = s.tc) ∧ ∀ a, a ≠ A.TC_CMP0 n + 4 * k.val → t.rd a = s.rd a

/-- R353, R357–R360: EN holds MODE and SRC; a link acts on its slave but in service; GO chooses the first field-clock edge 20 ns later, at
which the selected waiting counters start and the start is time-stamped; a read of a chain's low word latches the words above.

That WRERR needs a change is deduced, assumption 43. A command whose condition does not hold leaves the state as it is: the model's choice, assumption 19. -/
def Obligations.CounterControl : Prop :=
  (∀ (n : Fin 32) (v : Word) (s0 : State),
    let s := s0.ttFirst
    ∃ t, exec (.tcCtlWrite n v) s0 = .next t ∧ t.tcEn n = bitOf v 31
    ∧ (s.tcEn n = true → t.fld (A.TC_CTL n) 29 27 = s.fld (A.TC_CTL n) 29 27
        ∧ (bitsOf v 29 27 ≠ s.fld (A.TC_CTL n) 29 27 → t.flag (A.TC_STAT n) 21 = true))
    ∧ (s.tcEn n = false → t.rd (A.TC_CTL n) = putMask 0xFFFF3FFF (s.rd (A.TC_CTL n)) v ∧ (bitOf v 31 = true → (t.getTc n).presc = 0))
    ∧ t.rd (A.TC_CNT n) = s.rd (A.TC_CNT n) ∧ ∀ m, m ≠ n.val → t.getTc m = s.getTc m)
  ∧ (∀ (n : Fin 32) (s : State), (s.getTc n).ev ≠ 0 → (s.getTc n).evAt / 4 < s.dtF / 4 →
      (s.tcService = true → ∃ t, exec (.linkAction n) s = .next t ∧ t.flag (A.TC_STAT n) 20 = true ∧ (t.getTc n).ev = 0
        ∧ t.rd (A.TC_CNT n) = s.rd (A.TC_CNT n))
      ∧ (s.tcService = false → (s.getTc n).ev = 1 → s.fld (A.TC_LINK n) 30 29 = 0 → ∃ t, exec (.linkAction n) s = .next t
        ∧ t.rd (A.TC_CNT n) = 0 ∧ (t.getTc n).ev = 0)
      ∧ (s.tcService = false → (s.getTc n).ev = 2 → s.fld (A.TC_TRG n) 27 26 = 3 → ∃ t, exec (.linkAction n) s = .next t
        ∧ t.tcEn n = false ∧ (t.getTc n).ev = 0))
  ∧ (∀ (v : Word) (s : State), (bitOf v 0 = true → exec (.tcGstart v) s = .next { s with gstart := some ((s.dtF + 20 + 3) / 4 * 4) })
      ∧ (bitOf v 0 = false → exec (.tcGstart v) s = .next s))
  ∧ (∀ (e : Nat) (s : State), s.gstart = some e → e ≤ s.dtF → s.rd A.TC_GSTART_PU = 0 → s.rd A.TC_GSTART_GP = 0 →
      ∃ t, exec .globalStart s = .next t ∧ t.gstart = none ∧ t.flag A.TC_GSTAT 31 = true ∧ t.num64 A.TC_GSTS_L A.TC_GSTS_H = e % 2 ^ 64
        ∧ ∀ n, n < 32 → s.flag A.TC_GSTART_TC n = true →
            (s.tcWaiting n = true → t.rd (A.TC_CNT n) = 0 ∧ (t.getTc n).started = true ∧ t.flag (A.TC_STAT n) 29 = false)
            ∧ (s.tcWaiting n = false → t.flag A.TC_GSTAT 30 = true ∧ t.rd (A.TC_CNT n) = s.rd (A.TC_CNT n)))
  ∧ ∀ (m : Master) (n : Fin 32) (cap : Bool) (s : State), let a := fun (k : Nat) => if cap then A.TC_CAP k else A.TC_CNT k
      ∃ t, exec (.tcCntRead m n cap) s = .next t ∧ t.regs = s.regs
        ∧ (s.tcLow n = n.val → Sparse.get (fun _ => 0) t.rdData m.latchNo = s.rd (a n)
            ∧ ∀ k, k ∈ s.tcUpper n → t.getLatch m (a k) = s.rd (a k))
        ∧ (s.tcLow n ≠ n.val → Sparse.get (fun _ => 0) t.rdData m.latchNo = s.getLatch m (a n) ∧ t.latch = s.latch)

/-! ### Tandem -/

/-- R300–R303, R306, R311–R313, R316, R320–R322: equal signatures release the writes held in the window, different ones discard them with
F_TANDEM_MISMATCH; a watchdog that is not kicked within TIME, or is kicked with a wrong key, is F_TANDEM_WDOG; a
tandem-only reset stops the cores, empties shadow contexts, latches and held writes, and ends at SYS_ENTRY unless the
injection test fails; a context in use is neither selected nor emptied.

The signatures are operands, and the watchdog restarts at an expiry: the model's choice and deduced, assumptions 71 and 83. A command whose condition does not hold leaves the state as it is: the model's choice, assumption 19. -/
def Obligations.TandemWindowsWatchdogAndReset : Prop :=
  (∀ (sigA sigB : BitVec 64) (ok : Bool) (s : State), s.unhitched = false → s.started = true → s.mem.tdReset = none → s.rung = 0 →
    let e := s.mem.winStart + s.tdWindow
    let now := s.mem.held.filter (fun h => decide (h.entered < e))
    let rest := s.mem.held.filter (fun h => ! decide (h.entered < e))
    let bist := fun (u : State) => if u.flag A.TD_CFG 31 && ! ok then [(⟨0x10, 1, u.dtC, false⟩ : FaultMsg)] else []
    let s1 := (s.wr64 A.TD_SIGA_L A.TD_SIGA_H sigA.toNat).wr64 A.TD_SIGB_L A.TD_SIGB_H sigB.toNat
    let s2 := { s1 with mem := { s1.mem with held := rest, winStart := e } }
    let shown := fun (t : State) => t.num64 A.TD_SIGA_L A.TD_SIGA_H = sigA.toNat ∧ t.num64 A.TD_SIGB_L A.TD_SIGB_H = sigB.toNat
      ∧ t.mem.winStart = e ∧ t.mem.held = rest ∧ t.toField = s.toField ∧ ∀ y, t.byteAt y = s.byteAt y
    (s.dtC < e → exec (.tandemWindowCompare sigA sigB ok) s = .next s)
    ∧ (e ≤ s.dtC → ∃ t, exec (.tandemWindowCompare sigA sigB ok) s = .next t
      ∧ (sigA = sigB → now = [] → shown t ∧ t.faultQ = s.faultQ ++ bist s)
      ∧ (sigA = sigB → ∀ t0 a bs, now = [.store t0 a bs] → let u := issueStore .a a bs s2
          t.ram = u.ram ∧ t.toField = u.toField ∧ t.mem.nvQ = u.mem.nvQ ∧ t.mem.held = u.mem.held ∧ t.faultQ = u.faultQ ++ bist u)
      ∧ (sigA = sigB → ∀ t0 l ds, now = [.pmwr t0] → s.coreA.pmwr = some (l, ds, none) →
          t.coreA.pmwr = some (l, ds, some s.dtC) ∧ shown t)
      ∧ (sigA ≠ sigB → shown t ∧ t.flag A.TD_STAT 27 = true ∧ t.faultQ = s.faultQ ++ [⟨0x10, 0, s.dtC, false⟩] ++ bist s
          ∧ (s.coreA.wait ≠ .pmsync → (∀ n, t.coreA.reg n = s.coreA.reg n) ∧ t.coreA.pc = s.coreA.pc)
          ∧ ((∃ t0, HeldWr.pmwr t0 ∈ now) → t.coreA.pmwr = none))))
  ∧ (∀ (m : Master) (v : Word) (s : State), let c := s.coreOf m
      (bitsOf v 15 0 = 0xC0DE → exec (.wdkick m v) s = .next (s.setCore c { s.getCore c with kickAt := s.dtC }))
      ∧ (bitsOf v 15 0 ≠ 0xC0DE → ∃ t, exec (.wdkick m v) s = .next t ∧ t.faultQ = s.faultQ ++ [⟨0x12, if c = .b then 1 else 0, s.dtC, false⟩]
          ∧ t.coreA = s.coreA ∧ t.coreB = s.coreB))
  ∧ (∀ (b : Bool) (s : State), let c : Who := if b then .b else .a
      (b = true → s.unhitched = true) → s.started = true → s.mem.tdReset = none → (s.getCore c).dbgHalt = false →
      let at_ := (s.getCore c).kickAt + 1000 * s.fld A.TD_WDOG 15 0
      (s.wdOn = true → at_ ≤ s.dtC → ∃ t, exec (.watchdogExpire b) s = .next t
        ∧ t.faultQ = s.faultQ ++ [⟨0x12, b.toNat, s.dtC, false⟩] ∧ t.getCore c = { s.getCore c with kickAt := s.dtC } ∧ t.regs = s.regs)
      ∧ (s.wdOn = false ∨ s.dtC < at_ → exec (.watchdogExpire b) s = .next s))
  ∧ (∀ s : State,
      (s.started = false → exec .tdSrst s = .next (s.setFlag A.SYS_RSTCAUSE 27 true))
      ∧ (s.started = true → s.mem.tdReset = none → ∃ t, exec .tdSrst s = .next t ∧ t.flag A.SYS_RSTCAUSE 27 = true
          ∧ t.mem.tdReset = some s.dtC ∧ t.coreA.run = false ∧ t.coreB.run = false ∧ t.coreA.icache = [] ∧ t.coreB.icache = []
          ∧ t.vecA = [] ∧ t.vecB = [] ∧ t.mem.held = [] ∧ (∀ x, t.ssDepth x = 0) ∧ (∀ y, t.byteAt y = s.byteAt y)
          ∧ ∀ (l t0 : Nat) (a b x y : Syl), s.coreA.pmwr = some (l, [a, b, x, y], some t0) → s.coreB.pmwr = none →
              t.sylAt l = a ∧ t.sylAt (l + 1) = b ∧ t.sylAt (l + 2) = x ∧ t.sylAt (l + 3) = y))
  ∧ (∀ (ok : Bool) (s : State),
      (s.mem.tdReset = none → exec (.tandemResetDone ok) s = .next s)
      ∧ ∀ t0, s.mem.tdReset = some t0 → ∃ t, exec (.tandemResetDone ok) s = .next t ∧ t.mem.tdReset = none
        ∧ (ok = true ∨ s.unhitched = true → t.coreA = { s.coreA with run := true, pc := s.fld A.SYS_ENTRY 23 0, kickAt := s.dtC }
            ∧ t.coreB = { s.coreB with run := true, pc := s.fld A.SYS_ENTRY 23 0, kickAt := s.dtC }
            ∧ t.mem.winStart = s.dtC ∧ t.flag A.TD_STAT 30 = (! s.unhitched || s.flag A.TD_STAT 30) ∧ t.faultQ = s.faultQ)
        ∧ (ok = false → s.unhitched = false → t.coreA = s.coreA ∧ t.flag A.TD_STAT 29 = true ∧ t.flag A.TD_STAT 30 = s.flag A.TD_STAT 30
            ∧ t.faultQ = s.faultQ ++ [⟨0x13, 0, s.dtC, false⟩]))
  ∧ (∀ (v : Word) (s : State), let x := bitsOf v 5 0
      let inUse := x = s.ssOf .a s.coreA.bk ∨ (s.unhitched = true ∧ x = s.ssOf .b s.coreB.bk)
      (∃ t, exec (.tdSsctxWrite v) s = .next t ∧ t.mem = s.mem
        ∧ (s.bkOf .a = 0 → t.fld A.TD_SSCTX 3 0 = s.fld A.TD_SSCTX 3 0 ∧ t.flag A.TD_SSSTAT 31 = true)
        ∧ (s.bkOf .a ≠ 0 → t.fld A.TD_SSCTX 3 0 = bitsOf v 3 0)
        ∧ (s.bkOf .b = 0 → t.fld A.TD_SSCTX 19 16 = s.fld A.TD_SSCTX 19 16 ∧ t.flag A.TD_SSSTAT 31 = true)
        ∧ (s.bkOf .b ≠ 0 → t.fld A.TD_SSCTX 19 16 = bitsOf v 19 16))
      ∧ (bitOf v 31 = false ∨ 40 ≤ x → exec (.tdSsclr v) s = .next s)
      ∧ (bitOf v 31 = true → x < 40 → ∃ t, exec (.tdSsclr v) s = .next t
        ∧ (inUse → t.mem = s.mem ∧ t.flag A.TD_SSSTAT 31 = true)
        ∧ (¬ inUse → t.ssDepth x = 0 ∧ t.regs = s.regs ∧ ∀ z, z ≠ x → t.ssGet z = s.ssGet z ∧ t.ssDepth z = s.ssDepth z)))
  ∧ (∀ (b : Bool) (a : BitVec 22) (k : Fin 8) (up : Fin 3) (s : State), let line := a.toNat / 32
      let c : Who := if b then .b else .a
      let tags := Sparse.get (fun _ => []) (s.getCore c).icache (line % 256)
      let miss := if b then A.TD_CNT_ICMISSB else A.TD_CNT_ICMISSA
      let filled := fun (t : State) =>
        Sparse.get (fun _ => []) (t.getCore c).icache (line % 256) = (line :: tags.erase line).take 4 ∧ t.pm = s.pm
        ∧ (∀ n, (t.getCore c).reg n = (s.getCore c).reg n)
        ∧ (up.val = 2 → t.faultQ = s.faultQ ++ [⟨0x43, 0, s.dtC, false⟩] ∧ t.flag A.PM_STAT 31 = true)
        ∧ (up.val ≠ 2 → t.faultQ = s.faultQ)
      (s.rung = 0 → tags.contains line = false → ∃ t, exec (.icacheFill b a k up false) s = .next t ∧ filled t
        ∧ t.num miss = min (s.num miss + 1) (2 ^ 32 - 1))
      ∧ (tags.contains line = true ∨ s.rung ≠ 0 → exec (.icacheFill b a k up false) s = .next s)
      ∧ (s.rung = 0 → ∃ t, exec (.icacheFill b a k up true) s = .next t ∧ filled t ∧ t.num miss = s.num miss
          ∧ t.num A.TD_CNT_ICPAR = min (s.num A.TD_CNT_ICPAR + 1) (2 ^ 32 - 1)))
  ∧ ∀ s : State, ∃ t, exec .tdClrCnt s = .next t ∧ t.rd A.TD_CNT_HWSTALL = 0 ∧ t.rd A.TD_CNT_ICMISSA = 0 ∧ t.rd A.TD_CNT_ICMISSB = 0
      ∧ t.rd A.TD_CNT_ICPAR = 0 ∧ (∀ a, a < A.TD_CNT_HWSTALL ∨ A.TD_CNT_ICPAR < a → t.rd a = s.rd a) ∧ t.coreA = s.coreA

/-! ### Yards and non-volatile memory -/

/-- R325, R327–R329, R343: HAND by the owner group's core and FORCE hand a yard over to a valid ID, else DENIED; the end of a
handover enters the new owner, zeroes the yard where asked, and clears its reservations. -/
def Obligations.YardHandovers : Prop :=
  (∀ (m : Master) (n : Fin 16) (v : Word) (s : State),
      let may := coreGroup m s = some (s.ydOwner n) ∧ s.ownerValid (bitsOf v 3 0) = true
        ∧ s.flag (A.YD_OWN n) 31 = false;
      (may → ∃ t, exec (.yardHand m n v) s = .next t ∧ t.handOf n = some ⟨bitsOf v 3 0, bitOf v 4, false, s.dtC⟩ ∧ t.flag (A.YD_OWN n) 31 = true
        ∧ t.ydOwner n = s.ydOwner n ∧ (∀ y, y ≠ n.val → t.handOf y = s.handOf y) ∧ ∀ a, t.byteAt a = s.byteAt a)
      ∧ (¬ may → ∃ t, exec (.yardHand m n v) s = .next t ∧ t.flag (A.YD_OWN n) 29 = true ∧ t.ydOwner n = s.ydOwner n ∧ t.mem = s.mem ∧ t.ram = s.ram))
  ∧ (∀ (n : Fin 16) (v : Word) (s : State),
      -- a HAND of the same cycle gives way, and is refused (R329)
      let hand := ∃ h, s.handOf n = some h ∧ h.forced = false ∧ h.at_ = s.dtC
      let may := (s.ydOwner n = 10 → s.locked = false) ∧ s.ownerValid (bitsOf v 3 0) = true
        ∧ (hand ∨ s.flag (A.YD_OWN n) 31 = false);
      (may → hand → ∃ t, exec (.yardForce n v) s = .next t ∧ t.flag (A.YD_OWN n) 29 = true) ∧
      (may → ∃ t, exec (.yardForce n v) s = .next t ∧ t.handOf n = some ⟨bitsOf v 3 0, bitOf v 4, true, s.dtC⟩ ∧ t.flag (A.YD_OWN n) 31 = true
        ∧ t.ydOwner n = s.ydOwner n ∧ (∀ y, y ≠ n.val → t.handOf y = s.handOf y) ∧ ∀ a, t.byteAt a = s.byteAt a)
      ∧ (¬ may → ∃ t, exec (.yardForce n v) s = .next t ∧ t.flag (A.YD_OWN n) 29 = true ∧ t.ydOwner n = s.ydOwner n ∧ t.mem = s.mem ∧ t.ram = s.ram))
  ∧ ∀ (n : Fin 16) (h : Handover) (s : State), s.handOf n = some h → h.new < 16 →
      let inYard := fun (a : Nat) => n * 0x40000 ≤ a ∧ a < (n + 1) * 0x40000
      ∃ t, exec (.handoverDone n) s = .next t ∧ t.handOf n = none ∧ t.ydOwner n = h.new ∧ t.flag (A.YD_OWN n) 31 = false
        ∧ t.flag (A.YD_OWN n) 30 = h.forced ∧ t.flag A.YD_IRQST 5 = true
        ∧ (h.zero = true → (∀ a, inYard a → Sparse.get (fun _ => 0) t.ram a = 0)
            ∧ ∀ a, ¬ inYard a → Sparse.get (fun _ => 0) t.ram a = Sparse.get (fun _ => 0) s.ram a)
        ∧ (h.zero = false → t.ram = s.ram ∧ t.poison = s.poison)
        ∧ (∀ g, t.coreA.resv = some g → ¬ inYard (g * 64)) ∧ ∀ y, y < 16 → y ≠ n.val → t.ydOwner y = s.ydOwner y ∧ t.handOf y = s.handOf y

/-- R332–R334, R336–R338, R340, R341, R345: a window's march saves its words under R332 and leaves the yard's bytes, a failing one is recorded; a line write
starts, the guard's first, and reaches the array 400 ns later, counted as wear; the scrubber rewrites a line with one upset
and reports one with two.

A command whose condition does not hold leaves the state as it is: the model's choice, assumption 19. -/
def Obligations.WindowTestsAndLineWrites : Prop :=
  (∀ (up : Option (Fin 16)) (s : State), s.flag A.YD_TESTCFG 31 = true → ydSweepOk s = true → s.mem.ydWin = none → s.mem.ydNext ≤ s.dtC →
      s.rung = 0 →
      let y := s.fld A.YD_TESTSTAT 19 16
      let a := fun (i : Nat) => y * 0x40000 + s.fld A.YD_TESTSTAT 11 0 * 64 + 8 * i
      let clean := ∀ i, i < 8 → s.isPoison (a i / 4) = false ∧ s.isPoison (a i / 4 + 1) = false
      ∃ t, exec (.yardWindowTest up) s = .next t ∧ t.mem.ydWin = some s.dtC ∧ t.mem.ydNext = s.dtC + ydInterval s
        ∧ t.flag A.YD_TESTSTAT 31 = true ∧ (∀ x, t.byteAt x = s.byteAt x)
        ∧ (up = none → clean → t.faultQ = s.faultQ ∧ t.poison = s.poison ∧ t.num (A.YD_ECC y) = s.num (A.YD_ECC y))
        ∧ (∀ i, up = some i → i.val < 8 → t.isPoison (a i / 4) = true ∧ t.isPoison (a i / 4 + 1) = true
            ∧ ⟨0x40, y, s.dtC, false⟩ ∈ t.faultQ ∧ (clean → t.faultQ = s.faultQ ++ [⟨0x40, y, s.dtC, false⟩]))
        ∧ (∀ i, up = some i → 8 ≤ i.val → clean → t.faultQ = s.faultQ ∧ t.poison = s.poison
            ∧ t.fld (A.YD_ECC y) 15 0 = min (s.fld (A.YD_ECC y) 15 0 + 1) 65535)
        ∧ (∀ i, i < 8 → s.isPoison (a i / 4) = true ∨ s.isPoison (a i / 4 + 1) = true → ⟨0x40, y, s.dtC, false⟩ ∈ t.faultQ
            ∧ t.isPoison (a i / 4) = true ∧ t.isPoison (a i / 4 + 1) = true))
  ∧ (∀ (ok : Bool) (t0 : Nat) (s : State), s.mem.ydWin = some t0 →
      let y := s.fld A.YD_TESTSTAT 19 16
      let w := s.fld A.YD_TESTSTAT 11 0;
      (s.dtC < t0 + 400 → exec (.yardWindowTestDone ok) s = .next s)
      ∧ (t0 + 400 ≤ s.dtC → ∃ t, exec (.yardWindowTestDone ok) s = .next t ∧ t.mem.ydWin = none ∧ (∀ x, t.byteAt x = s.byteAt x)
          ∧ t.fld A.YD_TESTSTAT 19 16 * 4096 + t.fld A.YD_TESTSTAT 11 0 = (y * 4096 + w + 1) % 65536
          ∧ (ok = true → t.faultQ = s.faultQ ∧ t.mem.ydSpared = s.mem.ydSpared)
          ∧ (ok = false → t.faultQ = s.faultQ ++ [⟨0x41, y, s.dtC, false⟩] ∧ t.flag A.YD_TESTSTAT 30 = true
              ∧ (Sparse.get (fun _ => 0) s.mem.ydSpared y = 0 → Sparse.get (fun _ => 0) t.mem.ydSpared y = w + 1)
              ∧ (Sparse.get (fun _ => 0) s.mem.ydSpared y ≠ 0 → t.mem.ydSpared = s.mem.ydSpared)
              ∧ (s.flag A.YD_TESTERR 31 = false → t.flag A.YD_TESTERR 31 = true ∧ t.fld A.YD_TESTERR 21 18 = y
                  ∧ t.fld A.YD_TESTERR 17 6 = w ∧ t.flag A.YD_TESTERR 30 = decide (Sparse.get (fun _ => 0) s.mem.ydSpared y = 0))
              ∧ (s.flag A.YD_TESTERR 31 = true → t.rd A.YD_TESTERR = s.rd A.YD_TESTERR))))
  ∧ (∀ s : State, s.mem.nvRun = none →
      (∀ e, s.mem.nvQ.find? (fun e => e.guard) = some e → ∃ t, exec .nvLineWriteStart s = .next t ∧ t.mem.nvRun = some (e, s.dtC)
        ∧ t.mem.nvQ = s.mem.nvQ.erase e ∧ t.ram = s.ram ∧ t.flag A.YD_NVSTAT 31 = true)
      ∧ (∀ e r, s.mem.nvQ = e :: r → s.mem.nvQ.find? (fun e => e.guard) = none → ∃ t, exec .nvLineWriteStart s = .next t
        ∧ t.mem.nvRun = some (e, s.dtC) ∧ t.mem.nvQ = r ∧ t.ram = s.ram ∧ (∀ x, t.byteAt x = s.byteAt x) ∧ t.flag A.YD_NVSTAT 31 = true))
  ∧ (∀ (e : NvEntry) (t0 : Nat) (s : State), s.mem.nvRun = some (e, t0) →
      let blk := (e.line - 0x200000) / 64
      let c := min (Sparse.get (fun _ => 0) s.mem.nvWear blk + 1) (2 ^ 32 - 1);
      (s.dtC < t0 + 400 → exec .nvLineWriteDone s = .next s)
      ∧ (t0 + 400 ≤ s.dtC → ∃ t, exec .nvLineWriteDone s = .next t ∧ t.mem.nvRun = none ∧ t.mem.nvQ = s.mem.nvQ
          ∧ (∀ x, t.byteAt x = s.byteAt x)
          ∧ (∀ x, (∀ b ∈ e.bytes, b.1 ≠ x) → Sparse.get (fun _ => 0) t.ram x = Sparse.get (fun _ => 0) s.ram x)
          ∧ (∀ pre x v, e.bytes = pre ++ [(x, v)] → Sparse.get (fun _ => 0) t.ram x = v)
          ∧ Sparse.get (fun _ => 0) t.mem.nvWear blk = c
          ∧ (Sparse.get (fun _ => 0) s.mem.nvWear blk < c → c = s.num A.YD_NVWEARTH → t.faultQ = s.faultQ ++ [⟨0x45, 0, s.dtC, false⟩] ∧ t.flag A.YD_NVSTAT 30 = true)
          ∧ (c ≤ Sparse.get (fun _ => 0) s.mem.nvWear blk ∨ c ≠ s.num A.YD_NVWEARTH → t.faultQ = s.faultQ)))
  ∧ (∀ (up : Fin 3) (s : State), s.rung = 0 →
      let l := s.mem.scrub
      ∃ t, exec (.pmScrub up) s = .next t ∧ t.mem.scrub = (l + 4) % 0x400000 ∧ (∀ x, t.sylAt x = s.sylAt x) ∧ t.coreA = s.coreA
        ∧ (up.val = 2 ∨ Sparse.get (fun _ => false) s.pmBad (l / 4) = true → t.faultQ = s.faultQ ++ [⟨0x43, 0, s.dtC, false⟩]
            ∧ Sparse.get (fun _ => false) t.pmBad (l / 4) = true ∧ t.flag A.PM_STAT 31 = true ∧ t.num A.PM_ECC2ADDR = l % 2 ^ 32)
        ∧ (up.val = 1 → Sparse.get (fun _ => false) s.pmBad (l / 4) = false → t.num A.PM_ECC1 = min (s.num A.PM_ECC1 + 1) (2 ^ 32 - 1)
            ∧ Sparse.get (fun _ => 0) t.mem.pmWear (l / 256) = min (Sparse.get (fun _ => 0) s.mem.pmWear (l / 256) + 1) (2 ^ 32 - 1))
        ∧ (up.val = 0 → Sparse.get (fun _ => false) s.pmBad (l / 4) = false → t = { s with mem := { s.mem with scrub := (l + 4) % 0x400000 } }))
  ∧ ∀ s : State,
      (∃ t, exec .ydClrEcc s = .next t ∧ (∀ n, n < 16 → t.rd (A.YD_ECC n) = 0) ∧ t.rd A.YD_NVECC = 0
        ∧ ∀ a, (∀ n, n < 16 → a ≠ A.YD_ECC n) → a ≠ A.YD_NVECC → t.rd a = s.rd a)
      ∧ (∃ t, exec .ydClrColl s = .next t ∧ (∀ n, n < 16 → t.rd (A.YD_COLL n) = 0) ∧ ∀ a, (∀ n, n < 16 → a ≠ A.YD_COLL n) → t.rd a = s.rd a)
      ∧ (∃ t, exec .ydClrConf s = .next t ∧ (∀ n, n < 13 → t.rd (A.YD_CONF n) = 0) ∧ ∀ a, (∀ n, n < 13 → a ≠ A.YD_CONF n) → t.rd a = s.rd a)
      ∧ ∃ t, exec .pmClrEcc1 s = .next t ∧ t.rd A.PM_ECC1 = 0 ∧ ∀ a, a ≠ A.PM_ECC1 → t.rd a = s.rd a

/-! ### Start-up and resets -/

/-- R345, R458–R460, R462, R463, R465: a start-up runs its checks in order; a failing one halts it with its stage, else the cores start
at SYS_ENTRY; PORST_N and a loss of power return everything but non-volatile contents to reset.

R121, R363, R403, R405, R464, R466: a control-die warm reset keeps yards and restarts, a field-die reset leaves the control die and ends in
limp, a function-level reset resets the host blocks alone.

What POR shows after PORST_N, and which transfers a warm reset loses, are deduced, assumptions 33 and 37. A command whose condition does not hold leaves the state as it is: the model's choice, assumption 19. -/
def Obligations.StartUpAndResetKinds : Prop :=
  (
  (∀ (o : StartOut) (vsup podl : Bool) (s : State),
      (s.booted = true ∨ (vsup = false ∧ podl = false) ∨ s.selfTested = false → exec (.coldStart o vsup podl) s = .next s)
      ∧ (s.booted = false → s.selfTested = true → vsup = true ∨ podl = true → s.coreA.run = false → o.testen = false →
          ∃ t, exec (.coldStart o vsup podl) s = .next t ∧ t.flag A.LN_STAT 30 = vsup ∧ t.flag A.LN_STAT 31 = podl
            ∧ t.pw.vsel = o.vsel ∧ StartEnds t o true))
  ∧ (∀ s : State, ∃ t, exec .porst s = .next t ∧ t.pending = s.pending ∧ t.coreA.run = false ∧ t.coreB.run = false
      ∧ (∀ a, a ≠ A.YD_NVWEARMAX → a ≠ A.PM_WEARMAX → t.rd a = regReset a)
      ∧ (∀ a, a < 0x01000000 → t.byteAt a = 0) ∧ (∀ a, t.sylAt a = s.sylAt a)
      ∧ (s.mem.nvRun = none → t.mem.nvWear = s.mem.nvWear ∧ t.num A.YD_NVWEARMAX = s.num A.YD_NVWEARMAX
          ∧ ∀ a, 0x01000000 ≤ a → Sparse.get (fun _ => 0) t.ram a = Sparse.get (fun _ => 0) s.ram a))
  ∧ ∀ s : State, (s.flag A.LN_STAT 31 = true → exec .powerLoss s = .next s)
      ∧ (s.flag A.LN_STAT 31 = false → exec .powerLoss s = exec .porst s)
  )
  ∧ (
  (∀ (o : StartOut) (s : State), s.coreA.pmwr = none → s.coreB.pmwr = none →
      ∃ t, exec (.sysCdrst o) s = .next t ∧ t.flag A.SYS_RSTCAUSE 28 = true ∧ StartEnds t o false ∧ t.ram = s.ram ∧ (o.nvUp = none → (∀ h, s.isPoison h = true → t.isPoison h = true) ∧ ∀ h, h < 0x400000 → t.isPoison h = s.isPoison h)
        ∧ t.mem.held = [] ∧ t.mem.hand = [] ∧ t.tt = [] ∧ t.num A.CPL_EPOCH = s.num A.CPL_EPOCH
        ∧ (∀ n, n < 32 → t.num (A.TC_CNT n) = s.num (A.TC_CNT n)))
  ∧ (∀ s : State, ∃ t, exec .sysFdrst s = .next t ∧ t.flag A.SYS_RSTCAUSE 25 = true ∧ t.limp = true ∧ t.gd.fdReset = true ∧ t.toField = []
      ∧ (∀ n, n < 32 → t.num (A.TC_CNT n) = 0 ∧ t.tcEn n = false) ∧ t.coreA = s.coreA ∧ t.ram = s.ram ∧ t.dtF = s.dtF)
  ∧ (∀ (vsel : BitVec 12) (s : State),
      (s.gd.fdReset = false ∨ s.selfTested = false → exec (.fieldDieReady vsel) s = .next s)
      ∧ (s.gd.fdReset = true → s.selfTested = true → s.linkUp = true → ∃ t, exec (.fieldDieReady vsel) s = .next t ∧ t.gd.fdReset = false ∧ t.pw.vsel = vsel
          ∧ t.toControl = (s.sendC (.fault ⟨0x53, 0, s.dtF, true⟩)).toControl
          ∧ ∀ c r, c < 48 → r < 4 → t.rd (A.SN_TRIM0_OFS c + 8 * r) = s.trimWord s.calOk c r false
              ∧ t.rd (A.SN_TRIM0_OFS c + 8 * r + 4) = s.trimWord s.calOk c r true))
  ∧ (∀ (o : StartOut) (rest : List Xfer) (s : State), Oldest s.toField .limp rest →
      ∃ t, exec (.limp o) s = .next t ∧ t.limp = true ∧ (s.limp = false → t.errout = false)
        ∧ (s.gd.cdPend = false → t.toField = rest ∧ t.coreA = s.coreA ∧ t.ram = s.ram)
        ∧ (s.gd.cdPend = true → s.pw.cdAfter = false → t.gd.cdPend = false ∧ StartEnds t { o with testen := false } false))
  ∧ ∀ s : State, let host := fun (a : Nat) => (0x080D0000 ≤ a ∧ a < 0x080F0000) ∨ (0x08131000 ≤ a ∧ a < 0x08132000) ∨ a = A.LK_HIRQ
      ∃ t, exec .functionLevelReset s = .next t ∧ t.flag A.SYS_RSTCAUSE 26 = true ∧ (∀ a, host a → t.rd a = regReset a)
        ∧ (∀ a, ¬ host a → a ≠ A.LK_UPSTAT → a ≠ A.SYS_RSTCAUSE → t.rd a = s.rd a) ∧ t.coreA = s.coreA ∧ t.ram = s.ram
        ∧ t.host.wbs = [] ∧ t.flag A.LK_UPSTAT 31 = s.flag A.LK_UPSTAT 31
        ∧ exec .hotReset s = .next (t.setFlag A.LK_UPSTAT 31 false) ∧ exec .linkDisable s = .next (t.setFlag A.LK_UPSTAT 31 false)
  )

/-! ### Host, far-memory and service links -/

/-- R366–R369: the upstream link comes up and goes down, posted writes wait for it, an unmasked vector that is pending is sent, and a PTM
dialogue gives the host time t3 + delay at t4, or is discarded.

A command whose condition does not hold leaves the state as it is: the model's choice, assumption 19. -/
def Obligations.HostLinkAndPtm : Prop :=
  (∀ (speed : Fin 6) (lanes : Fin 3) (cxl : Bool) (s : State),
      (s.flag A.LK_CTRL 31 = false ∨ 2 < s.rung → exec (.hostDlUp speed lanes cxl) s = .next s)
      ∧ (s.flag A.LK_CTRL 31 = true → s.rung ≤ 2 → ∃ t, exec (.hostDlUp speed lanes cxl) s = .next t ∧ t.hostUp = true
          ∧ t.flag A.LK_UPSTAT 30 = cxl ∧ t.fld A.LK_UPSTAT 5 3 = speed.val ∧ t.fld A.LK_UPSTAT 2 0 = 2 ^ lanes.val
          ∧ t.fld A.LK_UPSTAT 7 6 = 0 ∧ t.host.postQ = [] ∧ (s.host.postQ = [] → t.hostMem = s.hostMem)
          ∧ ∀ a bs, s.host.postQ = [(a, bs)] → t.hostMem = storeBytes s.hostMem a bs))
  ∧ (∀ s : State, (s.hostUp = false → exec .hostDlDown s = .next s ∧ exec .hostLinkRetrain s = .next s)
      ∧ (s.hostUp = true → (∃ t, exec .hostDlDown s = .next t ∧ t.hostUp = false ∧ t.flag A.LK_UPSTAT 27 = true
            ∧ t.faultQ = s.faultQ ++ [⟨0x80, 0, s.dtC, false⟩] ∧ t.hostMem = s.hostMem ∧ t.host = s.host)
          ∧ ∃ t, exec .hostLinkRetrain s = .next t ∧ t.fld A.LK_UPSTAT 7 6 = 0 ∧ t.hostUp = true ∧ t.host.postQ = [])
      ∧ exec .d3hot s = .next { s with host := { s.host with d3hot := true } }
      ∧ exec .snoop s = .next { s with host := { s.host with out := s.host.out ++ [.rspIHitI] } })
  ∧ (∀ (v : Fin 64) (s : State), let pend := s.flag (A.MSIX_PBA (v.val / 32)) (v.val % 32)
      ∃ t, exec (.msixUnmask v) s = .next t ∧ t.flag (A.MSIX_CTRL v) 0 = false
        ∧ (pend = true → s.host.msixEn = true → s.hostUp = true → t.flag (A.MSIX_PBA (v.val / 32)) (v.val % 32) = false
            ∧ t.host.out = s.host.out ++ [.msi v (s.num64 (A.MSIX_ADDR_L v) (A.MSIX_ADDR_H v)) (s.rd (A.MSIX_DATA v))])
        ∧ (pend = false ∨ s.host.msixEn = false ∨ s.hostUp = false → t.host.out = s.host.out ∧ t.flag (A.MSIX_PBA (v.val / 32)) (v.val % 32) = pend))
  ∧ (∀ s : State, let due := s.flag A.LK_PTMCFG 31 = true ∧ s.hostUp = true ∧ s.host.ptmAt + 1000000 * max 1 (s.fld A.LK_PTMCFG 7 0) ≤ s.dtC;
      (¬ due → exec .ptmDialogue s = .next s)
      ∧ (due → ∃ t, exec .ptmDialogue s = .next t ∧ t.host.ptmT1 = some s.dtC ∧ t.host.ptmAt = s.dtC
          ∧ t.host.out = s.host.out ++ [.ptmReq s.dtC] ∧ t.regs = s.regs)
      ∧ ∃ t, exec .ptmGo s = .next t ∧ t.host.ptmT1 = some s.dtC ∧ t.flag A.LK_PTMCTL 0 = true
          ∧ t.host.out = s.host.out ++ [.ptmReq s.dtC])
  ∧ (∀ (m : Master) (s : State), ∃ t, exec (.ptmDtRead m) s = .next t ∧ t.regs = s.regs
      ∧ Sparse.get (fun _ => 0) t.rdData m.latchNo = s.rd A.LK_PTM_DT_L ∧ t.getLatch m A.LK_PTM_DT_H = s.rd A.LK_PTM_DT_H
      ∧ t.getLatch m A.LK_PTM_HT_L = s.rd A.LK_PTM_HT_L ∧ t.getLatch m A.LK_PTM_HT_H = s.rd A.LK_PTM_HT_H)
  ∧ ∀ (t2 t3 : BitVec 64) (t1 : Nat) (s : State), s.host.ptmT1 = some t1 → (∀ w ∈ s.host.wbs, wbOp w.ws ≠ 0x0C) →
      let trip : Int := ((s.dtC : Int) - (t1 : Int)) - ((t3.toNat : Int) - (t2.toNat : Int))
      (∀ d : Nat, trip = 2 * (d : Int) → d ≤ 10000 → ∃ t, exec (.ptmResponse t2 t3) s = .next t ∧ t.host.ptmT1 = none
          ∧ t.num64 A.LK_PTM_DT_L A.LK_PTM_DT_H = s.dtC % 2 ^ 64 ∧ t.num64 A.LK_PTM_HT_L A.LK_PTM_HT_H = (t3.toNat + d) % 2 ^ 64
          ∧ t.flag A.LK_PTMSTAT 31 = true ∧ t.fld A.LK_PTMSTAT 29 16 = d ∧ t.flag A.LK_PTMCTL 0 = false
          ∧ t.fld A.LK_PTMSTAT 15 0 = (s.fld A.LK_PTMSTAT 15 0 + 1) % 65536)
      ∧ (trip ≤ -2 ∨ 20002 ≤ trip → ∃ t, exec (.ptmResponse t2 t3) s = .next t ∧ t.host.ptmT1 = none ∧ t.flag A.LK_PTMSTAT 30 = true
          ∧ t.rd A.LK_PTM_DT_L = s.rd A.LK_PTM_DT_L ∧ t.rd A.LK_PTM_HT_L = s.rd A.LK_PTM_HT_L
          ∧ t.fld A.LK_PTMSTAT 15 0 = s.fld A.LK_PTMSTAT 15 0)

/-- R365, R366, R370–R374: far memory comes up with at most 256 units or is refused, the service port drops every frame but its own, and
BAR0 takes 32-bit accesses, its writes in the host's blocks alone.

What sets LK_SVCSTAT.LINK is deduced, assumption 59. A command whose condition does not hold leaves the state as it is: the model's choice, assumption 19. -/
def Obligations.FarAndServiceLinksAndBar0 : Prop :=
  (∀ s : State, let may := s.flag A.LK_CTRL 30 = true ∧ s.farUp = false ∧ s.host.farUpAt = none;
      (may → exec .farBringup s = .next { s with host := { s.host with farUpAt := some s.dtC } }
          ∧ exec .farLinkReturn s = .next { s with host := { s.host with farUpAt := some s.dtC } })
      ∧ (¬ may → exec .farBringup s = .next s ∧ exec .farLinkReturn s = .next s))
  ∧ (∀ (bad : Bool) (cap : BitVec 16) (speed : Fin 6) (lanes : Fin 3) (s : State), s.host.farUpAt ≠ none →
      (bad = true ∨ cap = 0 → ∃ t, exec (.farBringupDone bad cap speed lanes) s = .next t ∧ t.flag A.LK_FARSTAT 29 = true
        ∧ t.farUp = s.farUp ∧ t.flag A.LK_FARSTAT 31 = true ∧ t.host.farUpAt = none)
      ∧ (bad = false → cap ≠ 0 → ∃ t, exec (.farBringupDone bad cap speed lanes) s = .next t ∧ t.farUp = true
        ∧ t.flag A.LK_FARSTAT 31 = true ∧ t.flag A.LK_FARSTAT 28 = decide (256 < cap.toNat) ∧ t.fld A.LK_FARCAP 8 0 = min 256 cap.toNat
        ∧ t.fld A.LK_FARSTAT 5 3 = speed.val ∧ t.fld A.LK_FARSTAT 2 0 = 2 ^ lanes.val ∧ t.host.farUpAt = none))
  ∧ (∀ (t0 : Nat) (s : State), s.host.farUpAt = some t0 →
      (s.dtC < t0 + 1000000000 → exec .memoryActiveTimeout s = .next s)
      ∧ (t0 + 1000000000 ≤ s.dtC → ∃ t, exec .memoryActiveTimeout s = .next t ∧ t.flag A.LK_FARSTAT 29 = true ∧ t.farUp = s.farUp
          ∧ t.flag A.LK_FARSTAT 31 = true ∧ t.host.farUpAt = none))
  ∧ (∀ (ether : BitVec 16) (ty : BitVec 8) (s : State), (2 < s.rung → exec (.svcFrameRx ether ty) s = .next s)
      ∧ (s.rung ≤ 2 → ∃ t, exec (.svcFrameRx ether ty) s = .next t ∧ t.flag A.LK_SVCSTAT 31 = true
      ∧ (ether = 0x88B5 → ty = 2 → t.fld A.LK_SVCSTAT 15 0 = s.fld A.LK_SVCSTAT 15 0)
      ∧ (ether ≠ 0x88B5 ∨ ty ≠ 2 → t.fld A.LK_SVCSTAT 15 0 = min (s.fld A.LK_SVCSTAT 15 0 + 1) 65535)
      ∧ ∀ a, a ≠ A.LK_SVCSTAT → t.rd a = s.rd a))
  ∧ (∀ s : State, s.flag A.LK_SVCCFG 31 = true → s.flag A.LK_SVCSTAT 31 = true → s.rung ≤ 2 →
      (s.dtF < s.host.svcAt + 1000000 * max 1 (s.fld A.LK_SVCCFG 7 0) → exec .svcStatusFrame s = .next s)
      ∧ (s.host.svcAt + 1000000 * max 1 (s.fld A.LK_SVCCFG 7 0) ≤ s.dtF → ∃ t body, exec .svcStatusFrame s = .next t ∧ t.regs = s.regs
          ∧ t.host.out = s.host.out ++ [.frame (svcDst s) (body ++ wordBytes (crc32 body))] ∧ body.length = 24
          ∧ body.take 12 = numBytes 1 1 ++ numBytes 1 1 ++ numBytes 2 s.host.svcSeq ++ numBytes 8 s.dtF
          ∧ t.host.svcAt = s.dtF ∧ t.host.svcSeq = (s.host.svcSeq + 1) % 65536))
  ∧ (∀ (off : BitVec 24) (size : BitVec 4) (w : Option Word) (s : State), let a := 0x08000000 + off.toNat;
      (s.hostUp = false → exec (.hostBar0Access off size w) s = .next s)
      ∧ (s.hostUp = true → s.host.d3hot = true →
          exec (.hostBar0Access off size w) s = .next { s with host := { s.host with out := s.host.out ++ [.hostErr 1] } })
      ∧ (s.hostUp = true → s.host.d3hot = false → size ≠ 4 ∨ off.toNat % 4 ≠ 0 →
          exec (.hostBar0Access off size w) s = .next { s with host := { s.host with out := s.host.out ++ [.hostErr 2] } })
      ∧ (s.hostUp = true → s.host.d3hot = false → size = 4 → off.toNat % 4 = 0 →
          (∀ v, w = some v → epochBlock a = true → s.linkUp = true → ∃ t, exec (.hostBar0Access off size w) s = .next t
            ∧ t.toField = (s.sendF (.regWrite .host a v none)).toField ∧ t.regs = s.regs)
          ∧ (∀ v, w = some v → epochBlock a = false → hostWrites a = false → exec (.hostBar0Access off size w) s = .next s)
          ∧ (∀ v, w = some v → a = A.LK_HIRQ → ∃ t, exec (.hostBar0Access off size w) s = .next t ∧ t.fld a 31 30 = bitsOf v 31 30
              ∧ t.fld a 5 0 = bitsOf v 5 0)
          ∧ (w = none → inField a = true → s.linkUp = true → ∃ t, exec (.hostBar0Access off size w) s = .next t
            ∧ t.toField = (s.sendF (.regRead .host a)).toField ∧ t.regs = s.regs)
          ∧ (w = none → inField a = false → ∃ t, exec (.hostBar0Access off size w) s = .next t
            ∧ Sparse.get (fun _ => 0) t.rdData Master.host.latchNo = (readReg .host a s).1)))
  ∧ ∀ (cacheEn bme msixEn d3 : Bool) (s : State), ∃ t, exec (.hostConfigWrite cacheEn bme msixEn d3) s = .next t
      ∧ t.flag A.LK_UPSTAT 29 = cacheEn ∧ t.flag A.LK_UPSTAT 28 = bme ∧ t.host.msixEn = msixEn ∧ t.host.d3hot = d3
      ∧ (msixEn = false ∨ s.host.msixEn = true → t.host.out = s.host.out)
      ∧ (msixEn = true → s.host.msixEn = false → s.hostUp = true → ∀ v, v < 64 → s.flag (A.MSIX_CTRL v) 0 = false →
          t.flag (A.MSIX_PBA (v / 32)) (v % 32) = false)

/-! ### Host queues and consists -/

/-- R377–R379, R382, R386, R389, R399, R401: ring indices, the fetch of a waybill and its format check, fences and the inbox.

A command whose condition does not hold leaves the state as it is: the model's choice, assumption 19. -/
def Obligations.RingsAndFetches : Prop :=
  (∀ (v : Word) (s : State), (s.hostUp = false ∨ s.host.d3hot = true → exec (.posthorn v) s = .next s)
      ∧ (s.hostUp = true → s.host.d3hot = false → ∀ q, q < 8 → bitsOf v 31 24 = q →
          (s.ringOn (A.SQ_CFG q) = true → bitsOf v 11 0 < s.ringLen (A.SQ_CFG q) → bitsOf v 23 12 = 0 →
            exec (.posthorn v) s = .next (s.setFld (A.SQ_TAIL q) 11 0 (bitsOf v 11 0)))
          ∧ (s.ringOn (A.SQ_CFG q) = false ∨ s.ringLen (A.SQ_CFG q) ≤ bitsOf v 11 0 ∨ bitsOf v 23 12 ≠ 0 →
            exec (.posthorn v) s = .next (s.setFlag A.HQ_STAT 29 true)))
      ∧ (s.hostUp = true → s.host.d3hot = false → 0x24 ≤ bitsOf v 31 24 → exec (.posthorn v) s = .next (s.setFlag A.HQ_STAT 29 true)))
  ∧ (∀ (r : Fin 20) (v : Word) (s : State), s.host.cmpls = [] →
      let base := if r.val < 8 then 0x080D0100 + 0x20 * r.val else if r.val < 16 then 0x080D0200 + 0x20 * (r.val - 8)
        else 0x080D0300 + 0x20 * (r.val - 16)
      ∃ t, exec (.ringEnable r v) s = .next t ∧ t.flag (base + 8) 31 = bitOf v 31
        ∧ (s.flag (base + 8) 31 = true → t.fld (base + 8) 11 8 = s.fld (base + 8) 11 8 ∧ t.rd (base + 0xC) = s.rd (base + 0xC)
            ∧ t.rd (base + 0x10) = s.rd (base + 0x10))
        ∧ (s.flag (base + 8) 31 = false → t.fld (base + 8) 11 8 = bitsOf v 11 8)
        ∧ (s.flag (base + 8) 31 = false → bitOf v 31 = true → t.fld (base + 0xC) 11 0 = 0 ∧ t.fld (base + 0x10) 11 0 = 0
            ∧ (8 ≤ r.val → r.val < 16 → t.flag (base + 0x10) 31 = true)))
  ∧ (∀ (q : Fin 8) (s : State), exec (.sqStopClear q) s = .next (s.setFlag (A.SQ_CFG q) 30 false))
  ∧ (∀ (q : Fin 8) (v : BitVec 512) (ok : FetchIn) (s : State), let first := (List.range 8).find? (fun n => s.canFetch n)
      let ws := wbWords v
      (first ≠ some q.val → exec (.waybillFetch q v ok) s = .next s)
      ∧ (first = some q.val → ok.ok = false → ∃ t, exec (.waybillFetch q v ok) s = .next t ∧ t.flag (A.SQ_CFG q) 30 = true
          ∧ t.flag A.HQ_IRQST 1 = true ∧ t.host = s.host ∧ t.fld (A.SQ_HEAD q) 11 0 = s.fld (A.SQ_HEAD q) 11 0)
      ∧ (first = some q.val → ok.ok = true → ∃ t, exec (.waybillFetch q v ok) s = .next t ∧ t.host.ord = s.host.ord + 1
          ∧ t.fld (A.SQ_HEAD q) 11 0 = (s.fld (A.SQ_HEAD q) 11 0 + 1) % s.ringLen (A.SQ_CFG q) % 4096
          ∧ (wbFormat ws = false → t.flag A.HQ_STAT 28 = true ∧ t.faultQ = s.faultQ ++ [⟨0x83, q, s.dtC, false⟩]
              ∧ t.num A.HQ_CNT_FMT = min (s.num A.HQ_CNT_FMT + 1) (2 ^ 32 - 1))
          ∧ (wbFormat ws = true → wbEffOf ws = 0 → wbOp ws ≠ 0x0A → wbOp ws ≠ 0x0B → wbOp ws ≠ 0x0D → t.faultQ = s.faultQ
              ∧ t.host.wbs = s.host.wbs ++ [fetchedWb s q ws none])
          ∧ (wbFormat ws = true → wbEffOf ws = 2 → wbOp ws ≠ 0x0A → wbNum ws 1 1 / 8 % 2 = 0 →
              (wbNum ws 8 8 < s.dtC + 1000 → t.num A.HQ_CNT_REF = min (s.num A.HQ_CNT_REF + 1) (2 ^ 32 - 1))
              ∧ (s.dtC + 1000 ≤ wbNum ws 8 8 → t.host.wbs = s.host.wbs ++ [fetchedWb s q ws (some (wbNum ws 8 8))]))))
  ∧ (∀ (w : WbPend) (q : Nat) (s : State), s.host.fences = [(w.ord, q)] → s.host.wbs.find? (fun x => x.ord == w.ord) = some w →
      let holds := ∃ x ∈ s.host.wbs, x.ord < w.ord ∧ (wbNum w.ws 16 1 = 1 ∨ x.sq = w.sq) ∧ (x.group = none ∨ x.commit ≠ none)
      let queued := ∃ x ∈ s.host.cmpls, x.ord < w.ord ∧ (wbNum w.ws 16 1 = 1 ∨ x.sq = w.sq)
      (holds ∨ queued → exec .wbFenceDone s = .next s)
      ∧ (¬ holds → ¬ queued → ∃ t, exec .wbFenceDone s = .next t ∧ t.host.fences = [] ∧ (∀ x ∈ t.host.wbs, x.ord ≠ w.ord)
          ∧ t.num A.HQ_CNT_WB = min (s.num A.HQ_CNT_WB + 1) (2 ^ 32 - 1)))
  ∧ (∀ (v : Word) (s : State), (bitOf v 31 = false ∨ s.host.inbox = [] → exec (.hqCcmpl v) s = .next s)
      ∧ ∀ w rest, bitOf v 31 = true → s.host.inbox = w :: rest → (∀ i ∈ rest, i.ord ≠ w.ord) →
          (∀ x ∈ s.host.wbs, wbOp x.ws = 0x0D → ∃ i ∈ s.host.inbox, i.ord = x.ord) →
          ∃ t, exec (.hqCcmpl v) s = .next t ∧ t.host.inbox = rest ∧ t.fld A.HQ_INSTAT 3 0 = (s.fld A.HQ_INSTAT 3 0 + 1) % 16
            ∧ t.fld A.HQ_INSTAT 20 16 = rest.length % 32 ∧ t.num A.HQ_CNT_WB = min (s.num A.HQ_CNT_WB + 1) (2 ^ 32 - 1)
            ∧ (bitsOf v 7 0 ≠ 0 → t.num A.HQ_CNT_REF = min (s.num A.HQ_CNT_REF + 1) (2 ^ 32 - 1)))
  ∧ ∀ s : State, ∃ t, exec .hqClrCnt s = .next t ∧ t.rd A.HQ_CNT_WB = 0 ∧ t.rd A.HQ_CNT_REF = 0 ∧ t.rd A.HQ_CNT_FMT = 0
      ∧ ∀ a, a ≠ A.HQ_CNT_WB → a ≠ A.HQ_CNT_REF → a ≠ A.HQ_CNT_FMT → t.rd a = s.rd a

/-- R383–R385, R391–R394, R397, R402: instants of waybills, the effects of those that act at once, and consists: a trigger takes the next
generation or is dropped, and its publication writes GEN.

Generations and counts in completions are deduced, assumption 52. A command whose condition does not hold leaves the state as it is: the model's choice, assumption 19. -/
def Obligations.WaybillEffectsAndConsists : Prop :=
  (∀ (w : WbPend) (s : State),
      s.host.wbs.find? (fun x => State.wbEff x == 1 && x.t.isNone && ! x.acted && decide (x.fetched + 1000 ≤ s.dtC)) = some w →
      wbOp w.ws ≠ 0x0A →
      (∀ u x, s.chUnit (wbTarget w.ws) = some u → u < 16 → s.uRun u = true → boundaryAfter (s.noticeNow u) (w.fetched + 1000) = some x →
        exec .nextUpdateResolve s = .next (s.setWb w.ord (fun y => { y with t := some x })))
      ∧ (s.chUnit (wbTarget w.ws) = none → ∃ t, exec .nextUpdateResolve s = .next t ∧ (∀ x ∈ t.host.wbs, x.ord ≠ w.ord)
        ∧ t.num A.HQ_CNT_REF = min (s.num A.HQ_CNT_REF + 1) (2 ^ 32 - 1)))
  ∧ (∀ s : State, (∀ x ∈ s.host.wbs, State.wbEff x = 3 → ∀ a, x.angAt = some a → s.dtC < a + 1000000000) →
      exec .atAngleTimeout s = .next s)
  ∧ (∀ (w : WbPend) (a : Nat) (s : State), s.host.wbs = [w] → State.wbEff w = 3 → w.t = none → w.commit = none → w.angAt = some a → a + 1000000000 ≤ s.dtC →
      ∃ t, exec .atAngleTimeout s = .next t ∧ t.host.wbs = [] ∧ t.num A.HQ_CNT_REF = min (s.num A.HQ_CNT_REF + 1) (2 ^ 32 - 1))
  ∧ (∀ (ok : Bool) (img : Option (List Byte)) (s : State), (s.nextWb = none → exec (.waybillEffect ok img) s = .next s)
      ∧ ∀ t0 w, s.nextWb = some (t0, w) → s.engineWaits = false →
          let done := fun (t : State) => (∀ x ∈ t.host.wbs, x.ord ≠ w.ord) ∧ t.num A.HQ_CNT_WB = min (s.num A.HQ_CNT_WB + 1) (2 ^ 32 - 1)
          (wbOp w.ws = 0 → ∃ t, exec (.waybillEffect ok img) s = .next t ∧ done t ∧ t.num A.HQ_CNT_REF = s.num A.HQ_CNT_REF
            ∧ t.pport = s.pport ∧ t.maps = s.maps)
          ∧ (wbOp w.ws = 1 ∨ wbOp w.ws = 2 → s.chMode (wbTarget w.ws) = 5 → ∃ t, exec (.waybillEffect ok img) s = .next t ∧ done t
            ∧ t.num A.HQ_CNT_REF = min (s.num A.HQ_CNT_REF + 1) (2 ^ 32 - 1) ∧ t.pport = s.pport)
          ∧ (wbOp w.ws = 8 → wbTarget w.ws < 4 → ∃ t, exec (.waybillEffect ok img) s = .next t ∧ done t
            ∧ t.getCap (wbTarget w.ws) = none ∧ t.flag (A.KQ_CFG (wbTarget w.ws)) 29 = false)
          ∧ (wbOp w.ws = 7 → wbTarget w.ws < 4 → s.getCap (wbTarget w.ws) = none → ∃ t, exec (.waybillEffect ok img) s = .next t ∧ done t
            ∧ t.flag (A.KQ_CFG (wbTarget w.ws)) 29 = true
            ∧ ∃ c, t.getCap (wbTarget w.ws) = some c ∧ c.kind = wbNum w.ws 16 1 ∧ c.n = wbNum w.ws 28 4
              ∧ c.srcs = (List.range (wbNum w.ws 17 1)).map (fun i => wbNum w.ws (18 + i) 1))
          ∧ (wbOp w.ws = 0x10 → ok = false → ∃ t, exec (.waybillEffect ok img) s = .next t ∧ done t
            ∧ t.num A.HQ_CNT_REF = s.num A.HQ_CNT_REF))
  ∧ (∀ (c : Fin 2) (s : State), let p := s.num (A.CS_PERIOD c)
      (p = 0 ∨ s.dtC % max p 10000 ≠ 0 ∨ 2 ≤ s.rung → exec (.consistPeriod c) s = .next s)
      ∧ (s.rung < 2 → p ≠ 0 → s.dtC % max p 10000 = 0 → s.csLastOf c = none → s.flag (A.CS_CFG c) 31 = true →
          (s.hostUp = false → ∃ t, exec (.consistPeriod c) s = .next t ∧ t.num (A.CS_DROP c) = min (s.num (A.CS_DROP c) + 1) (2 ^ 32 - 1)
            ∧ t.host = s.host)
          ∧ (s.hostUp = true → s.flag A.LK_UPSTAT 29 = true → s.flag A.LK_UPSTAT 28 = true → s.stagingOk = true →
            s.host.csPub = [] → s.num (A.CS_GEN c) ≠ 0xFFFFFFFF → ∃ t, exec (.consistPeriod c) s = .next t
            ∧ t.host.csPub = [(c.val, s.num (A.CS_GEN c) + 1, s.dtC)]
            ∧ (s.host.csHist = [] → ∀ d, t.consistGen c d % 2 ^ 32 = (if d < s.dtC then s.num (A.CS_GEN c) + 1
                else if s.num (A.CS_GEN c) + 1 = 0xFFFFFFFF then 1 else s.num (A.CS_GEN c) + 2))
            ∧ t.csLastOf c = some s.dtC
            ∧ t.num (A.CS_DROP c) = s.num (A.CS_DROP c) ∧ t.num (A.CS_GEN c) = s.num (A.CS_GEN c))))
  ∧ ∀ (c : Fin 2) (g d : Nat) (rest : List (Nat × Nat × Nat)) (s : State), s.host.csPub = (c.val, g, d) :: rest →
      (s.hostUp = false → exec (.consistPublish c) s = .next s)
      ∧ (s.hostUp = true → ∃ t, exec (.consistPublish c) s = .next t ∧ t.host.csPub = rest ∧ t.num (A.CS_GEN c) = g % 2 ^ 32
          ∧ t.num64 (A.CS_DT_L c) (A.CS_DT_H c) = d % 2 ^ 64 ∧ t.flag A.HQ_IRQST 3 = true
          ∧ t.hostMem = storeBytes s.hostMem (s.csSlot c g % 2 ^ 64) (numBytes 4 g))

/-! ### The guard -/

/-- R404, R405, R411, R421, R426: the guard takes a fault: its sticky bit, GD_LAST, its notice and its reaction.

A command whose condition does not hold leaves the state as it is: the model's choice, assumption 19. -/
def Obligations.FaultsAndReactions : Prop :=
  (∀ s : State, s.rung = 5 → exec .faultArrival s = .next s)
  ∧ (∀ s : State, s.faultQ = [] → (∀ x rest, s.toControl = x :: rest → ∀ f, x.msg ≠ .fault f) → exec .faultArrival s = .next s)
  ∧ ∀ (f : FaultMsg) (s : State), s.arriveFaults.faultQ = [f] → s.rung ≠ 5 → s.gd.cdPend = false → f.id < 256 → f.inst < 256 →
      let r := s.reaction f.id
      ∃ t, exec .faultArrival s = .next t ∧ t.flag (State.logBitA f.id f.inst) (f.inst % 32) = true
        ∧ t.fld A.GD_LAST 18 16 = r ∧ t.fld A.GD_LAST 15 8 = f.id ∧ t.fld A.GD_LAST 7 0 = f.inst ∧ t.flag A.GD_LAST 31 = true
        ∧ t.num64 A.GD_LAST_DT_L A.GD_LAST_DT_H = s.dtC % 2 ^ 64
        ∧ (s.flag (State.logBitA f.id f.inst) (f.inst % 32) = false → t.logCount = (s.logCount + 1) % 2 ^ 17)
        ∧ (s.flag (State.logBitA f.id f.inst) (f.inst % 32) = true → t.logCount = s.logCount)
        ∧ (1 ≤ r → t.flag A.GD_IRQST (noticeGroup f.id) = true) ∧ (3 ≤ r → t.flag A.GD_IRQST 8 = true)
        ∧ (r ≤ 1 → t.faultQ = [] ∧ t.coreA = s.coreA ∧ t.gsafe = s.gsafe ∧ t.toField = s.toField ∧ t.ram = s.ram)
        ∧ (r = 2 → s.started = true → s.mem.tdReset = none → (∀ t0, s.gd.tandemAt = some t0 → t0 + 1000000000 ≤ s.dtC) →
            t.mem.tdReset = some s.dtC ∧ t.coreA.run = false ∧ t.flag A.SYS_RSTCAUSE 27 = true ∧ t.gd.tandemAt = some s.dtC)
        ∧ (r = 2 → s.started = true → s.mem.tdReset = none → (∃ t0, s.gd.tandemAt = some t0 ∧ s.dtC < t0 + 1000000000) → s.rung = 0 →
            t.gd.cdPend = true ∧ t.flag A.SYS_RSTCAUSE 29 = true)
        ∧ (r = 4 → f.id = 0x61 → f.inst < 24 → t.gsafe = s.gsafe ||| 2 ^ f.inst
            ∧ ∀ ch, ch < 64 → s.chUnit ch = some f.inst → t.chMode ch = 5)
        ∧ (r = 5 → t.flag A.GD_STAT 30 = true ∧ (s.linkUp = true → Queued (.safeAll) t.toField) ∧ ∀ ch, ch < 64 → t.chMode ch = 5)
        ∧ (r = 6 → s.rung = 0 → t.gd.cdPend = true ∧ t.flag A.SYS_RSTCAUSE 29 = true ∧ (s.linkUp = true → Queued (.limp) t.toField))

/-- R407, R408, R410–R412, R418, R422, R423, R443: the guard's registers, GSAFE and SAFE_ALL at the field die, the faults of supplies and
temperatures, the logbook's records and their clearing.

When an active flag sets, and what a full queue does to records, are deduced, assumptions 38 and 54. A command whose condition does not hold leaves the state as it is: the model's choice, assumption 19. -/
def Obligations.GuardRegistersAndLogbook : Prop :=
  (∀ (id : BitVec 8) (v : Word) (s : State), let n := id.toNat
      let r := bitsOf v 2 0
      let bad := r < s.fld (reactA n) 6 4 ∨ r = 7 ∨ (r = 3 ∧ ¬ (0x20 ≤ n ∧ n ≤ 0x23));
      (faultNamed n = false ∨ s.locked = true → exec (.gdReactWrite id v) s = .next s)
      ∧ (faultNamed n = true → s.locked = false → bad → exec (.gdReactWrite id v) s = .next (s.setFlag A.GD_STAT 27 true))
      ∧ (faultNamed n = true → s.locked = false → ¬ bad → ∃ t, exec (.gdReactWrite id v) s = .next t ∧ t.fld (reactA n) 2 0 = r
          ∧ t.fld (reactA n) 6 4 = s.fld (reactA n) 6 4 ∧ (∀ a, a ≠ reactA n → t.rd a = s.rd a)
          -- a raise of the same cycle still meets the old reaction
          ∧ t.reaction n = s.reaction n ∧ (∀ d, d ≠ t.dtC → ({ t with dtC := d } : State).reaction n = r)))
  ∧ (∀ s : State, ∃ t, exec .gdLock s = .next t ∧ t.locked = true ∧ t.flag A.GD_CTRL 31 = true)
  ∧ (∀ (v : BitVec 24) (s : State), ∃ t, exec (.gdRel v) s = .next t
      ∧ (∀ u, u < 24 → t.gsafe.testBit u = (s.gsafe.testBit u && ! (v.toNat.testBit u && ! s.causeActive u)))
      ∧ ((∃ u, u < 24 ∧ v.toNat.testBit u = true ∧ s.gsafe.testBit u = true ∧ s.causeActive u = true) → t.flag A.GD_STAT 29 = true))
  ∧ (∀ (g : Nat) (rest : List Xfer) (s : State), Oldest s.toField (.gsafe g) rest →
      (s.gd.fgShut = false → ∃ t, exec .gsafeUpdate s = .next t ∧ t.fld A.FG_STAT 23 0 = g % 2 ^ 24 ∧ (NoneHolds s → t.toField = rest) ∧ t.coreA = s.coreA)
      ∧ (s.gd.fgShut = true → exec .gsafeUpdate s = .next { s with toField := rest }))
  ∧ (∀ (rest : List Xfer) (s : State), Oldest s.toField .safeAll rest →
      ∃ t, exec .safeAllArrival s = .next t ∧ t.limp = true ∧ t.limpLock = true ∧ t.toField = rest)
  ∧ (∀ s : State, (∀ k ∈ [0x200, 0x300, 0x600, 0x700], Sparse.get (fun _ => false) s.active k = false) →
      (∃ t, exec .coreSupply s = .next t ∧ t.faultQ = s.faultQ ++ [⟨0x03, 0, s.dtC, false⟩] ∧ t.idActive 0x03 = true ∧ t.coreA = s.coreA)
      ∧ (∃ t, exec .tempCd s = .next t ∧ t.faultQ = s.faultQ ++ [⟨0x06, 0, s.dtC, false⟩] ∧ t.idActive 0x06 = true ∧ t.coreA = s.coreA)
      ∧ (s.linkUp = true → ∃ t, exec .tempFd s = .next t ∧ t.toControl = (s.sendC (.fault ⟨0x07, 0, s.dtF, true⟩)).toControl ∧ t.idActive 0x07 = true
          ∧ t.limp = s.limp)
      ∧ (s.linkUp = true → ∃ t, exec .vsupOv s = .next t ∧ t.toControl = (s.sendC (.fault ⟨0x02, 0, s.dtF, true⟩)).toControl ∧ t.limp = true
          ∧ t.limpLock = true)
      ∧ (s.linkUp = true → exec .faultQueueFlush s = .next (forEach s.fdFaultQ (fun f (t : State) => t.sendC (.fault f)) { s with fdFaultQ := [] }))
      ∧ (s.linkUp = false → exec .faultQueueFlush s = .next s)
      ∧ exec .guardCopyDisagreement s = .next { s with gd := { s.gd with copyBad := true } })
  ∧ (∀ (id inst : BitVec 8) (s : State),
      (outsideFault id.toNat = true → ∃ t, exec (.faultConditionCleared id inst) s = .next t
        ∧ Sparse.get (fun _ => false) t.active (id.toNat * 256 + inst.toNat) = false ∧ t.faultQ = s.faultQ
        ∧ (∀ k, k ≠ id.toNat * 256 + inst.toNat → Sparse.get (fun _ => false) t.active k = Sparse.get (fun _ => false) s.active k))
      ∧ (outsideFault id.toNat = false → exec (.faultConditionCleared id inst) s = .next s))
  ∧ (∀ (p : LogPend) (s : State), s.gd.pend = [p] → s.mem.nvQ = [] → s.mem.nvRun = none →
      ∃ t, exec .logbookRecordWrite s = .next t ∧ t.gd.pend = [] ∧ t.bytesAt (State.recA p.id) 1 = p.id % 256
        ∧ t.bytesAt (State.recA p.id + 28) 8 = p.last % 2 ^ 64
        ∧ t.bytesAt (State.recA p.id + 248) 4 = (crc32 ((List.range 248).map (fun i => t.byteAt (State.recA p.id + i)))).toNat
        ∧ (∀ a, a < State.recA p.id ∨ State.recA p.id + 256 ≤ a → t.byteAt a = s.byteAt a))
  ∧ ∀ (v : Word) (s : State), let id := bitsOf v 15 8
      let i := bitsOf v 7 0
      (bitOf v 31 = false → exec (.gdLogclr v) s = .next s)
      ∧ (bitOf v 31 = true → s.rd A.GD_LOGKEY = 0 ∨ s.rd A.GD_LOGKEYIN ≠ s.rd A.GD_LOGKEY →
          ∃ t, exec (.gdLogclr v) s = .next t ∧ t.flag A.GD_STAT 28 = true ∧ t.rd A.GD_LOGKEYIN = 0 ∧ t.logCount = s.logCount
            ∧ t.mem = s.mem)
      ∧ (bitOf v 31 = true → s.rd A.GD_LOGKEY ≠ 0 → s.rd A.GD_LOGKEYIN = s.rd A.GD_LOGKEY → bitOf v 30 = false → bitOf v 29 = false →
          s.flag (State.logBitA id i) (i % 32) = true →
          (s.idActive id = true → ∃ t, exec (.gdLogclr v) s = .next t ∧ t.flag A.GD_STAT 28 = true
            ∧ t.flag (State.logBitA id i) (i % 32) = true ∧ t.logCount = s.logCount)
          ∧ (s.idActive id = false → ∃ t, exec (.gdLogclr v) s = .next t ∧ t.flag (State.logBitA id i) (i % 32) = false
            ∧ t.logCount = s.logCount - 1 ∧ t.rd A.GD_LOGKEYIN = 0
            ∧ ∀ k j, k < 256 → j < 256 → k ≠ id ∨ j ≠ i → t.flag (State.logBitA k j) (j % 32) = s.flag (State.logBitA k j) (j % 32)))

/-! ### The coupler and the field guard -/

/-- R408, R414, R417, R419, R420: claims and releases: the field die checks limp, brake lines, limp-lock, epoch, grant and seals in that
order; the control side takes only the answer to its own nonce, and times out after 2 µs.

When an answer counts and when GRANTED clears is deduced, assumption 56. A command whose condition does not hold leaves the state as it is: the model's choice, assumption 19. -/
def Obligations.ClaimsAndReleases : Prop :=
  (∀ s : State, s.linkUp = true → ∃ t n, exec .cplClaim s = .next t ∧ t.num A.CPL_NONCE = n
      ∧ t.toField = (s.sendF (.claim ((max (s.num A.CPL_EPOCH) (s.num A.CPL_FEPOCH) + 1) % 2 ^ 32) n s.gsafe)).toField
      ∧ (⟨false, n, s.dtC⟩ : Handshake) ∈ t.gd.shake ∧ t.num A.CPL_EPOCH = s.num A.CPL_EPOCH)
  ∧ (∀ (e n g : Nat) (rest : List Xfer) (s : State), Oldest s.toField (.claim e n g) rest → s.linkUp = true →
      let refuse := fun (why : Nat) => ∃ t, exec .claim s = .next t ∧ Queued (.refuse n why (s.num A.FG_EPOCH)) t.toControl ∧ t.num A.FG_EPOCH = s.num A.FG_EPOCH
        ∧ t.fld A.FG_STAT 23 0 = g % 2 ^ 24 ∧ (NoneHolds s → t.toField = rest)
      (s.limp = false → refuse 1) ∧ (s.limp = true → s.anyLine = true → refuse 2)
      ∧ (s.limp = true → s.anyLine = false → s.limpLock = true → refuse 3)
      ∧ (s.limp = true → s.anyLine = false → s.limpLock = false → e ≤ s.num A.FG_EPOCH → refuse 4)
      ∧ (s.limp = true → s.anyLine = false → s.limpLock = false → s.num A.FG_EPOCH < e → e < 2 ^ 32 → ∃ t, exec .claim s = .next t
          ∧ t.num A.FG_EPOCH = e ∧ t.fld A.FG_STAT 23 0 = g % 2 ^ 24 ∧ Queued (.grant n e) t.toControl ∧ t.gd.granted = true ∧ t.limp = true
          ∧ t.flag A.FG_STAT 29 = true ∧ t.gd.watchFrom = some s.dtF ∧ (∀ u, (t.getPu u).marked = false) ∧ (NoneHolds s → t.toField = rest)))
  ∧ (∀ (n e : Nat) (rest : List Xfer) (s : State), Oldest s.toControl (.grant n e) rest →
      (n ≠ s.num A.CPL_NONCE → exec .grant s = .next { s with toControl := rest })
      ∧ (n = s.num A.CPL_NONCE → ∃ t, exec .grant s = .next t ∧ t.num A.CPL_EPOCH = e % 2 ^ 32 ∧ t.flag A.CPL_STAT 31 = true
          ∧ t.locked = true ∧ t.flag A.CPL_IRQST 0 = true ∧ t.toControl = rest ∧ ∀ h ∈ t.gd.shake, h.release = true))
  ∧ (∀ (n r e : Nat) (rest : List Xfer) (s : State), Oldest s.toControl (.refuse n r e) rest →
      ((∀ h ∈ s.gd.shake, h.nonce ≠ n) → exec .refuse s = .next { s with toControl := rest })
      ∧ (∀ h, s.gd.shake = [h] → h.nonce = n → ∃ t, exec .refuse s = .next t ∧ t.fld A.CPL_STAT 2 0 = r % 8 ∧ t.flag A.CPL_STAT 28 = true
          ∧ t.flag A.CPL_IRQST 2 = true ∧ t.gd.shake = [] ∧ t.toControl = rest))
  ∧ (∀ s : State, s.linkUp = true → ∃ t, exec .cplRelease s = .next t
      ∧ t.toField = (s.sendF (.releaseLimp (s.num A.CPL_EPOCH) (s.num A.CPL_NONCE))).toField
      ∧ (⟨true, s.num A.CPL_NONCE, s.dtC⟩ : Handshake) ∈ t.gd.shake ∧ t.regs = s.regs)
  ∧ (∀ (e n : Nat) (rest : List Xfer) (s : State), Oldest s.toField (.releaseLimp e n) rest → s.linkUp = true →
      let refuse := fun (why : Nat) => exec .releaseLimp s = .next ({ s with toField := rest }.sendC (.refuse n why (s.num A.FG_EPOCH)))
      (s.limp = false → refuse 1) ∧ (s.limp = true → s.limpLock = true → refuse 3)
      ∧ (s.limp = true → s.limpLock = false → e ≠ s.num A.FG_EPOCH → refuse 4)
      ∧ (s.limp = true → s.limpLock = false → e = s.num A.FG_EPOCH → s.gd.granted = false → refuse 5)
      ∧ (s.limp = true → s.limpLock = false → e = s.num A.FG_EPOCH → s.gd.granted = true → s.allSealed = false → refuse 6)
      ∧ (s.limp = true → s.limpLock = false → e = s.num A.FG_EPOCH → s.gd.granted = true → s.allSealed = true →
          ∃ t, exec .releaseLimp s = .next t ∧ t.limp = false ∧ Queued (.released e) t.toControl ∧ (NoneHolds s → t.toField = rest)
            ∧ t.num A.FG_EPOCH = s.num A.FG_EPOCH))
  ∧ (∀ (e : Nat) (rest : List Xfer) (s : State), Oldest s.toControl (.released e) rest → ∃ t, exec .released s = .next t
      ∧ t.flag A.CPL_STAT 30 = false ∧ t.flag A.CPL_IRQST 1 = true ∧ t.toControl = rest ∧ (∀ h ∈ t.gd.shake, h.release = false)
      ∧ Sparse.get (fun _ => false) t.active 0x5100 = false ∧ Sparse.get (fun _ => false) t.active 0x5101 = false)
  ∧ ∀ (h : Handshake) (s : State), s.gd.shake = [h] →
      (s.dtC < h.at_ + 2000 → exec .claimTimeout s = .next s)
      ∧ (h.at_ + 2000 ≤ s.dtC → ∃ t, exec .claimTimeout s = .next t ∧ t.fld A.CPL_STAT 2 0 = 7 ∧ t.flag A.CPL_STAT 28 = true
          ∧ t.gd.shake = [])

/-- R409, R413, R415, R416, R418, R428, R435: heartbeats keep the field die coupled; 4 µs without one is a coupling loss and limp; STATUS and the
notices bring the field die's view to the control side; LLCLR ends limp-lock; ERROUT toggles out of limp.

How long a warm reset stops heartbeats, and when GRANTED clears, are deduced, assumptions 55 and 56. A command whose condition does not hold leaves the state as it is: the model's choice, assumption 19. -/
def Obligations.HeartbeatsLimpAndStatus : Prop :=
  (∀ s : State, let may := s.dtC % 1000 = 0 ∧ s.flag A.CPL_CTRL 29 = true ∧ s.gd.copyBad = false ∧ s.rung < 2 ∧ s.gd.hbFrom ≤ s.dtC
      ∧ s.gd.hbTx ≠ some s.dtC;
      (may → s.linkUp = true → exec .heartbeatSend s
        = .next ({ s with gd := { s.gd with hbTx := some s.dtC } }.sendF (.heartbeat (s.num A.CPL_EPOCH))))
      ∧ (¬ may → exec .heartbeatSend s = .next s))
  ∧ (∀ (e : Nat) (x : Xfer) (rest : List Xfer) (s : State), s.toField = x :: rest → x.msg = .heartbeat e →
      -- the period of its transmission, whose heartbeat may count as missed (R21)
      let p := x.start / 1000
      (e = s.num A.FG_EPOCH → e ≠ 0 → s.gd.hbVoid ≠ some p → exec .heartbeat s
        = .next { s with toField := rest, gd := { s.gd with watchFrom := some s.dtF, hbSeen := some (p, s.gd.watchFrom) } })
      ∧ (e ≠ s.num A.FG_EPOCH ∨ e = 0 ∨ s.gd.hbVoid = some p → exec .heartbeat s = .next { s with toField := rest }))
  ∧ (∀ s : State, (s.gd.watchFrom = none → exec .couplingLoss s = .next s)
      ∧ ∀ t0, s.gd.watchFrom = some t0 →
        (s.dtF < t0 + 4000 → exec .couplingLoss s = .next s)
        ∧ (t0 + 4000 ≤ s.dtF → s.linkUp = true → ∃ t, exec .couplingLoss s = .next t ∧ t.limp = true ∧ t.gd.granted = false
            ∧ t.gd.watchFrom = none ∧ t.toControl = ((s.sendC (.fault ⟨0x51, 0, s.dtF, true⟩)).sendC .limpNotice).toControl ∧ Queued (.limpNotice) t.toControl
            ∧ (s.limp = false → t.fld A.FG_LOSSCNT 31 0 = min (s.fld A.FG_LOSSCNT 31 0 + 1) (2 ^ 32 - 1))
            ∧ (s.limp = true → t.limpLock = s.limpLock)
            ∧ (s.limp = false → s.limpLock = false → s.gd.losses = [] → t.limpLock = decide (s.fld A.FG_CFG 3 0 = 1))))
  ∧ (∀ s : State, (∀ t, s.gd.statTx = some t → t + 1000 ≤ s.dtF) → exec .statusSend s
      = .next ({ s with gd := { s.gd with statTx := some s.dtF } }.sendC (.status s.limp s.limpLock (s.num A.FG_EPOCH) (s.num A.FG_REJCNT))))
  ∧ (∀ (t : Nat) (s : State), s.gd.statTx = some t → s.dtF < t + 1000 → exec .statusSend s = .next s)
  ∧ (∀ (l k : Bool) (e r : Nat) (rest : List Xfer) (s : State), Oldest s.toControl (.status l k e r) rest →
      ∃ t, exec .status s = .next t ∧ t.num A.CPL_FEPOCH = e % 2 ^ 32 ∧ t.num A.CPL_REJCNT = r % 2 ^ 32 ∧ t.flag A.CPL_STAT 30 = l
        ∧ t.flag A.CPL_STAT 29 = k ∧ t.gd.statusAt = s.dtC ∧ t.gd.statusLost = false ∧ t.toControl = rest
        ∧ (e ≠ s.num A.CPL_EPOCH → t.flag A.CPL_STAT 31 = false) ∧ (e = s.num A.CPL_EPOCH → t.flag A.CPL_STAT 31 = s.flag A.CPL_STAT 31))
  ∧ (∀ s : State, let may := s.gd.statusAt + 4000 ≤ s.dtC ∧ s.gd.statusLost = false ∧ s.rung < 2;
      (may → ∃ t, exec .statusTimeout s = .next t ∧ t.faultQ = s.faultQ ++ [⟨0x51, 1, s.dtC, false⟩] ∧ t.gd.statusLost = true)
      ∧ (¬ may → exec .statusTimeout s = .next s))
  ∧ (∀ (k e : Nat) (l : Bool) (rest : List Xfer) (s : State), Oldest s.toControl (.reject k e l) rest →
      ∃ t, exec .reject s = .next t ∧ t.num A.CPL_FEPOCH = e % 2 ^ 32 ∧ t.flag A.CPL_STAT 30 = l ∧ t.flag A.CPL_STAT 27 = true
        ∧ t.flag A.CPL_IRQST 3 = true ∧ t.toControl = rest)
  ∧ (∀ (rest : List Xfer) (s : State), Oldest s.toField .suspend rest → ∃ t, exec .suspend s = .next t ∧ t.limp = true
      ∧ t.gd.watchFrom = none ∧ t.toField = rest ∧ t.faultQ = s.faultQ ∧ t.limpLock = s.limpLock)
  ∧ (∀ (rest : List Xfer) (s : State), Oldest s.toControl .limpNotice rest → ∃ t, exec .limpNotice s = .next t
      ∧ t.flag A.CPL_STAT 30 = true ∧ t.flag A.CPL_STAT 31 = false ∧ t.toControl = rest)
  ∧ (∀ (rest : List Xfer) (s : State), Oldest s.toControl .llClear rest → ∃ t, exec .limpLockClearNotice s = .next t
      ∧ t.flag A.GD_STAT 30 = false ∧ t.flag A.CPL_STAT 29 = false ∧ t.toControl = rest)
  ∧ (∀ (v : Word) (s : State), let holds := (∃ i ∈ [0x100, 0x200, 0x401, 0x402], Sparse.get (fun _ => false) s.active i = true) ∨ s.fieldClkLost = true
      (bitsOf v 15 0 ≠ 0x4C4C → exec (.fgLlclr v) s = .next s)
      ∧ (bitsOf v 15 0 = 0x4C4C → holds → ∃ t, exec (.fgLlclr v) s = .next t ∧ t.flag A.FG_STAT 28 = true ∧ t.limpLock = s.limpLock)
      ∧ (bitsOf v 15 0 = 0x4C4C → ¬ holds → ∃ t, exec (.fgLlclr v) s = .next t ∧ t.limpLock = false ∧ t.limp = s.limp
          ∧ (s.limpLock = true → s.linkUp = true → Queued (.llClear) t.toControl)))
  ∧ ∀ s : State, (s.dtF % 500 = 0 → s.limp = false → s.gd.errAt ≠ some s.dtF → exec .erroutToggle s
        = .next { s with errout := ! s.errout, gd := { s.gd with errAt := some s.dtF } })
      ∧ (s.dtF % 500 ≠ 0 ∨ s.limp = true ∨ s.gd.errAt = some s.dtF → exec .erroutToggle s = .next s)

/-! ### The power ladder -/

/-- R432–R438, R441, R443, R478: a rung request is refused with its reason or waits for the cores' WFI; the entry drains what is held, suspends the
coupling and loses what the rung loses; a wake begins the exit, which ends in Run.

That the lowest reason is taken, and what an entry drains, are deduced, assumptions 20 and 90. A command whose condition does not hold leaves the state as it is: the model's choice, assumption 19. -/
def Obligations.RungsAndWakes : Prop :=
  (∀ (v : Word) (s : State), let r := bitsOf v 2 0
      (bitOf v 31 = false → exec (.pwReq v) s = .next s)
      ∧ (bitOf v 31 = true → s.pwReason r = 0 → exec (.pwReq v) s = .next { s with pw := { s.pw with req := some r } })
      ∧ (bitOf v 31 = true → s.pwReason r ≠ 0 → ∃ t, exec (.pwReq v) s = .next t ∧ t.flag A.PW_STAT 25 = true
          ∧ t.fld A.PW_STAT 24 22 = s.pwReason r ∧ t.flag A.PW_IRQST 0 = true ∧ t.pw = s.pw ∧ t.rung = s.rung)
      ∧ ((∃ ch, ch < 64 ∧ (s.chMode ch = 1 ∨ s.chMode ch = 2 ∨ s.chMode ch = 4)) → s.pwReason r = 1)
      ∧ (s.pwReason 0 ≠ 0))
  ∧ (∀ (w : WakeEvent) (s : State), wakeOf w s = none → exec (.wakeSource w) s = .next s)
  ∧ (∀ s : State, (s.fld A.BL_STAT 7 0 ≠ 0 → wakeOf ⟨10, 0⟩ s = some s) ∧ (s.fld A.BL_STAT 7 0 = 0 → wakeOf ⟨10, 0⟩ s = none)
      ∧ (s.fld A.LK_UPSTAT 7 6 = 0 → wakeOf ⟨15, 0⟩ s = none)
      ∧ ∀ p : Fin 8, s.flag A.LN_GPAWAKE p = false → wakeOf ⟨9, p⟩ s = none)
  ∧ (∀ (i : Fin 16) (p : Fin 8) (s : State), (wakeOf ⟨i, p⟩ s).isSome = true → ∃ t, exec (.wakeSource ⟨i, p⟩) s = .next t ∧ t.flag A.LN_WAKEPEND i = true
      ∧ (s.flag A.LN_WAKEEN i = false → t.pw = s.pw ∧ t.rung = s.rung ∧ t.vecL = s.vecL)
      ∧ (s.flag A.LN_WAKEEN i = true → s.flag A.LN_WAKEDIR i = false → State.effective i s.wakeRung = true → t.pw = s.pw
          ∧ Sparse.get (fun _ => false) t.vecL (96 + i.val) = true)
      ∧ (s.flag A.LN_WAKEEN i = true → s.flag A.LN_WAKEDIR i = true → s.flag A.LN_STAT 30 = true → s.pw.req = none → s.pw.entry = none →
          s.pw.exit = none →
          (s.rung = 1 → t.rung = 0 ∧ t.coreA.wait ≠ .wfi ∧ t.fld A.PW_STAT 28 26 = 1 ∧ t.flag A.PW_IRQST 1 = true)
          ∧ (s.rung = 2 → t.rung = 2 ∧ t.pw.exit = some 2 ∧ t.linkUp = true ∧ t.pw.dtLoad = true ∧ t.num64 A.PW_WAKEDT_L A.PW_WAKEDT_H = s.dtF % 2 ^ 64)))
  ∧ (∀ (v : Word) (s : State), let r := bitsOf v 2 0
      (bitOf v 31 = false ∨ (r ≠ 0 ∧ r ≠ 4) ∨ (r = 4 ∧ s.rung ≠ 5 ∧ s.pw.entry ≠ some 5) → exec (.lnWake v) s = .next s)
      ∧ (bitOf v 31 = true → r = 0 → s.rung ≠ 0 → s.flag A.LN_STAT 30 = false → ∃ t, exec (.lnWake v) s = .next t ∧ t.pw.held = true
          ∧ t.flag A.LN_STAT 25 = true ∧ t.rung = s.rung)
      ∧ (bitOf v 31 = true → r = 4 → s.rung = 5 → s.pw.exit = none → ∃ t, exec (.lnWake v) s = .next t ∧ t.rung = 4 ∧ t.limp = true
          ∧ t.fld A.PW_STAT 28 26 = 5 ∧ t.lamp = s.lamp))
  ∧ (∀ s : State, (s.pw.req = none ∨ s.allWfi = false → exec .rungEntry s = .next s)
      ∧ ∀ r, s.pw.req = some r → s.allWfi = true → s.mem.held = [] → (∀ x ∈ s.toField, ∀ m a v e, x.msg ≠ .regWrite m a v e) →
          ∃ t, exec .rungEntry s = .next t ∧ t.pw.req = none ∧ t.pw.entry = some r ∧ t.mem.nvQ = [] ∧ t.mem.nvRun = none
            ∧ (∀ x, t.byteAt x = s.byteAt x) ∧ (2 ≤ r → s.linkUp = true → Queued (.suspend) t.toField)
            ∧ (3 ≤ r → t.pw.resume = some (resumeHash t)))
  ∧ (∀ s : State, (s.pw.entry = none ∨ underWay .suspend s.toField = true → exec .rungEntryDone s = .next s)
      ∧ ∀ r, s.pw.entry = some r → 1 ≤ r → r ≤ 5 → underWay .suspend s.toField = false →
          (s.pw.wake = none → ∃ t, exec .rungEntryDone s = .next t ∧ t.rung = r ∧ t.pw.entry = none
            ∧ (2 ≤ r → t.linkUp = false) ∧ (r = 1 → t.linkUp = s.linkUp) ∧ (r ≤ 3 → t.ram = s.ram)
            ∧ (4 ≤ r → ∀ a, a < 0x01000000 → Sparse.get (fun _ => 0) t.ram a = 0)
            ∧ (r = 4 → ∀ u o, u < 48 → t.pinHigh u o = (s.uPol u).testBit o) ∧ (3 ≤ r → t.hostUp = false ∧ t.farUp = false))
          ∧ (s.pw.wake = some 0 → s.pw.exit = none → 2 ≤ r → ∃ t, exec .rungEntryDone s = .next t ∧ t.rung = r ∧ t.pw.exit = some r
            ∧ t.pw.wake = none ∧ t.linkUp = true ∧ t.pw.dtLoad = true))
  ∧ (∀ (o : StartOut) (s : State),
      (s.pw.dtLoad = true ∨ (∀ r, s.pw.exit = some r → r ≠ 2 ∧ r ≠ 4 ∧ r ≠ 5) → exec (.rungExitDone o) s = .next s)
      ∧ (s.pw.exit = some 2 → s.pw.dtLoad = false → ∃ t, exec (.rungExitDone o) s = .next t ∧ t.rung = 0 ∧ t.linkUp = true
          ∧ t.coreA.wait ≠ .wfi ∧ t.coreA.pc = s.coreA.pc ∧ t.fld A.PW_STAT 28 26 = 2 ∧ t.flag A.PW_IRQST 1 = true)
      ∧ (s.pw.exit = some 4 ∨ s.pw.exit = some 5 → s.selfTested = false → exec (.rungExitDone o) s = .next s)
      ∧ (s.pw.exit = some 4 ∨ s.pw.exit = some 5 → s.selfTested = true → s.pw.dtLoad = false → ∃ t, exec (.rungExitDone o) s = .next t ∧ t.rung = 0 ∧ t.linkUp = true
          ∧ (o.otpBad = true → Halted t 5) ∧ (o.otpBad = false → Halted t 8 ∨ Halted t 9 ∨ Started t)))
  ∧ ∀ (o : StartOut) (s : State), (s.pw.exit ≠ some 3 ∨ s.pw.dtLoad = true → exec (.resumeCheckDone o) s = .next s)
      ∧ (s.pw.exit = some 3 → s.pw.dtLoad = false → let same := s.pw.resume = some (resumeHash s)
          ∃ t, exec (.resumeCheckDone o) s = .next t ∧ t.rung = 0 ∧ t.linkUp = true
            ∧ (same → patchSame s = true → s.sc.sealed_ = true → t.coreA.run = true ∧ t.coreA.pc = s.fld A.PW_RESVEC 23 0 ∧ t.coreA.bk = 0
                ∧ t.flag A.PW_STAT 20 = true)
            ∧ (¬ same → t.flag A.PW_STAT 19 = true ∧ t.flag A.SC_TAMPER 0 = true ∧ (Halted t 8 ∨ Halted t 9 ∨ Started t)))

/-- R412, R438–R442, R444, R445, R497: the Lantern island's comparators, real-time clock, lamplighter controls and mailbox, and what follows the
supplies: a loss of VSUP is limp with limp-lock, and Shed on PoDL power.

The two thresholds of LN_STAT.VSUP are deduced, assumption 67. A command whose condition does not hold leaves the state as it is: the model's choice, assumption 19. -/
def Obligations.LanternAndSupplies : Prop :=
  (∀ (n : Fin 8) (uv : BitVec 32) (s : State), let c := A.LN_LWCFG n
      let hit := if s.flag c 30 then uv.toNat < s.fld c 9 0 * 2500 else s.fld c 9 0 * 2500 < uv.toNat
      let k := Sparse.get (fun _ => 0) s.pw.lwCnt n
      let due := s.rtc % 2 ^ s.fld c 29 27 = 0 ∧ Sparse.get (fun _ => none) s.pw.lwAt n ≠ some s.rtc
      (s.flag c 31 = false ∨ ¬ due → exec (.lwSample n uv) s = .next s)
      ∧ (s.flag c 31 = true → due → ¬ hit → ∃ t, exec (.lwSample n uv) s = .next t ∧ Sparse.get (fun _ => 0) t.pw.lwCnt n = 0
          ∧ Sparse.get (fun _ => false) t.pw.lwTrue n = false ∧ t.regs = s.regs)
      ∧ (s.flag c 31 = true → due → hit → k + 1 < max 1 (s.fld c 26 23) → ∃ t, exec (.lwSample n uv) s = .next t
          ∧ Sparse.get (fun _ => 0) t.pw.lwCnt n = k + 1 ∧ t.regs = s.regs)
      ∧ (s.flag c 31 = true → due → hit → max 1 (s.fld c 26 23) ≤ k + 1 → ∃ t, exec (.lwSample n uv) s = .next t
          ∧ Sparse.get (fun _ => false) t.pw.lwTrue n = true
          ∧ (Sparse.get (fun _ => false) s.pw.lwTrue n = false → t.flag A.LN_WAKEPEND n = true)
          ∧ (Sparse.get (fun _ => false) s.pw.lwTrue n = true → t.regs = s.regs)))
  ∧ (∀ s : State, (s.rtc = s.num64 A.LN_ALARM_L A.LN_ALARM_H → s.pw.alarmAt ≠ some s.rtc → ∃ t, exec .rtcAlarm s = .next t ∧ t.flag A.LN_WAKEPEND 8 = true ∧ t.rtc = s.rtc)
      ∧ (s.rtc ≠ s.num64 A.LN_ALARM_L A.LN_ALARM_H ∨ s.pw.alarmAt = some s.rtc → exec .rtcAlarm s = .next s)
      ∧ (s.rung ≠ 5 → exec .lanternDtTick s = .next s)
      ∧ (s.rung = 5 → ∃ t, exec .lanternDtTick s = .next t ∧ t.dtF = s.dtF + (s.pw.dtFrac + 1953125) / 64
          ∧ t.pw.dtFrac = (s.pw.dtFrac + 1953125) % 64 ∧ t.rtc = (s.rtc + 1) % 2 ^ 48)
      ∧ (∃ t, exec .llStart s = .next t ∧ t.lamp.run = true ∧ t.lamp.pc = 0 ∧ t.lamp.bk = 0 ∧ t.lamp.stat = 0x1000 ∧ t.lamp.vtb = s.lamp.vtb
          ∧ t.flag A.LN_STAT 29 = true ∧ t.lpm = s.lpm ∧ t.lram = s.lram)
      ∧ (∃ t, exec .llHalt s = .next t ∧ t.lamp = { s.lamp with run := false } ∧ t.flag A.LN_STAT 29 = false)
      ∧ ∃ t, exec .serviceLinkDown s = .next t ∧ t.flag A.LK_SVCSTAT 31 = false ∧ t.sc.ends = none)
  ∧ (∀ (m : Master) (s : State), ∃ t, exec (.rtcRead m) s = .next t ∧ t.regs = s.regs
      ∧ Sparse.get (fun _ => 0) t.rdData m.latchNo = s.rd A.LN_RTC_L ∧ t.getLatch m A.LN_RTC_H = s.rd A.LN_RTC_H)
  ∧ (∀ (v : Word) (s : State), let a := s.fld A.LN_PGADDR 13 0
      (s.flag A.LN_STAT 29 = true → exec (.lnPgdata v) s = .next (s.setFlag A.LN_STAT 24 true))
      ∧ (s.flag A.LN_STAT 29 = false → ∃ t, exec (.lnPgdata v) s = .next t ∧ t.fld A.LN_PGADDR 13 0 = (a + 1) % 2 ^ 14
          ∧ Sparse.get (fun _ => 0) t.lpm a = v.setWidth 14
          ∧ ∀ x, x ≠ a → Sparse.get (fun _ => 0) t.lpm x = Sparse.get (fun _ => 0) s.lpm x)
      ∧ ∃ t, exec (.lnMbox v) s = .next t ∧ t.rd A.LN_MBOX = v ∧ t.flag A.PW_IRQST 2 = true)
  ∧ (∀ (present : Bool) (s : State),
      (present = false → s.flag A.LN_STAT 31 = true → s.flag A.LN_STAT 30 = false → exec (.podlChange present) s = exec .porst s)
      ∧ (s.flag A.LN_STAT 31 = present → exec (.podlChange present) s = .next s)
      ∧ (s.flag A.LN_STAT 31 ≠ present → present = true ∨ s.flag A.LN_STAT 30 = true → ∃ t, exec (.podlChange present) s = .next t ∧ t.flag A.LN_STAT 31 = present
          ∧ t.flag A.LK_SVCSTAT 30 = present ∧ t.flag A.LN_WAKEPEND 12 = true ∧ t.flag A.PW_IRQST 3 = true ∧ t.ram = s.ram))
  ∧ (∀ s : State, ∃ t, exec .vsupRise s = .next t ∧ t.flag A.LN_STAT 30 = true ∧ t.pw.lowVsup = false ∧ t.pw.held = false
      ∧ Sparse.get (fun _ => false) t.active 0x100 = false ∧ t.flag A.LN_WAKEPEND 13 = true ∧ t.flag A.PW_IRQST 3 = true)
  ∧ ∀ s : State, s.linkUp = true → ∃ t, exec .vsupUv s = .next t ∧ t.flag A.LN_STAT 30 = false ∧ t.limp = true ∧ t.limpLock = true
      ∧ t.pw.lowVsup = true ∧ (Sparse.get (fun _ => false) s.active 0x100 = false → Queued (.fault ⟨0x01, 0, s.dtF, true⟩) t.toControl)
      ∧ (s.flag A.LN_STAT 31 = false → t.rung = s.rung)
      ∧ (s.flag A.LN_STAT 31 = true → s.rung ≤ 3 → t.rung = 4 ∧ t.flag A.PW_STAT 18 = true
          ∧ ∀ a, a < 0x01000000 → Sparse.get (fun _ => 0) t.ram a = 0)

/-! ### Odometer and security -/

/-- R448–R453: an evaluation stores the lowest slack and steps the supply, margins set F_MARGIN_LOW at their onset, baselines are captured, and
the bogie clock changes only where it may.

That SEL = 0 is refused during a relief, what else is left at SEL = 0, and what PCAP leaves, are deduced, assumptions 26 and 27. A command whose condition does not hold leaves the state as it is: the model's choice, assumption 19. -/
def Obligations.MarginsSupplyAndBogieClock : Prop :=
  (∀ (slack : BitVec 32) (om : Fin 64) (ro : BitVec 16) (s : State),
      (s.dtC % s.odPeriod ≠ 0 ∨ 2 ≤ s.rung ∨ s.od.evalDone = some s.dtC → exec (.odEvaluate slack om ro) s = .next s)
      ∧ (s.dtC % s.odPeriod = 0 → s.rung < 2 → s.od.evalDone ≠ some s.dtC → ∃ t, exec (.odEvaluate slack om ro) s = .next t ∧ t.rd A.OD_SLACK = slack
          ∧ t.fld A.OD_SLACKMON 5 0 = om.val ∧ t.od.evalAt = s.dtC ∧ t.od.report = odReport t
          ∧ Sparse.get (fun _ => false) t.od.low 0 = decide (slack.toInt < (s.fld A.OD_SLACKLOW 7 0 : Int))
          ∧ Sparse.get (fun _ => false) t.od.low 1 = decide ((s.fld A.OD_ROTH 15 0 : Int) < ro.toInt)
          ∧ (slack.toInt < (s.fld A.OD_SLACKLOW 7 0 : Int) → Sparse.get (fun _ => false) s.od.low 0 = false →
              (⟨0xA0, 0, s.dtC, false⟩ : FaultMsg) ∈ t.faultQ)
          ∧ (s.flag A.OD_CTRL 31 = false → t.odCode = s.odCode)
          ∧ (s.flag A.OD_CTRL 31 = true → s.od.settling = false → s.idActive 0x03 = false → slack.toInt < (s.fld A.OD_SLACKTH 7 0 : Int) →
              (s.odCode < 15 → t.odCode = s.odCode + 1 ∧ t.od.settling = true ∧ t.flag A.OD_IRQST 1 = true)
              ∧ (s.odCode = 15 → s.od.exhausted = false → t.odCode = 15 ∧ t.od.exhausted = true
                  ∧ (⟨0xA1, 0, s.dtC, false⟩ : FaultMsg) ∈ t.faultQ))
          ∧ (s.flag A.OD_CTRL 31 = true → s.od.settling = false → s.idActive 0x03 = false →
              (s.fld A.OD_SLACKTH 7 0 : Int) + (s.fld A.OD_SLACKTH 19 12 : Int) ≤ slack.toInt → s.od.good = 15 →
              s.fld A.OD_VCD 11 8 < s.odCode → t.odCode = s.odCode - 1 ∧ t.od.settling = true)))
  ∧ (∀ s : State, exec .supplyStepSettled s = .next { s with od := { s.od with settling := false } }
      ∧ (∃ t, exec .odPcap s = .next t ∧ (∀ u o, u < 16 → o < 6 →
            (8 ≤ s.fld (A.PU_PROP_AH u + 4 * o) 31 24 → t.num (A.OD_PBASE (6 * u + o)) = s.fld (A.PU_PROP_AH u + 4 * o) 23 0)
            ∧ (s.fld (A.PU_PROP_AH u + 4 * o) 31 24 < 8 → t.rd (A.OD_PBASE (6 * u + o)) = s.rd (A.OD_PBASE (6 * u + o))))
          ∧ ∀ a, (∀ k, k < 96 → a ≠ A.OD_PBASE k) → t.rd a = s.rd a))
  ∧ (∀ s : State,
      (s.flag A.OD_STAT 29 = false ∨ s.relieving = true → ∃ t, exec .odClkSel900 s = .next t ∧ t.flag A.OD_STAT 28 = true ∧ t.od = s.od
        ∧ t.flag A.OD_CLK 0 = s.flag A.OD_CLK 0)
      ∧ (s.flag A.OD_STAT 29 = true → s.relieving = false → ∃ t, exec .odClkSel900 s = .next t ∧ t.od.clkTo = some true
        ∧ t.flag A.OD_CLK 0 = true ∧ t.flag A.OD_STAT 29 = false ∧ t.od.slow = s.od.slow)
      ∧ (15 ≤ s.odCode ∨ s.relieving = true → ∃ t, exec .odClkSel1g s = .next t ∧ t.flag A.OD_STAT 28 = true ∧ t.od = s.od
        ∧ t.flag A.OD_CLK 0 = s.flag A.OD_CLK 0)
      ∧ (s.odCode < 15 → s.relieving = false → s.flag A.OD_CLK 0 = false → exec .odClkSel1g s = .next s)
      ∧ (s.flag A.OD_CLK 0 = true → s.odCode < 15 → s.relieving = false → ∃ t, exec .odClkSel1g s = .next t ∧ t.od.clkTo = some false
        ∧ t.flag A.OD_CLK 0 = false))
  ∧ (∀ s : State, (s.od.clkTo = none → exec .bogieClockSwitch s = .next s)
      ∧ ∀ b, s.od.clkTo = some b → ∃ t, exec .bogieClockSwitch s = .next t ∧ t.od.clkTo = none ∧ t.od.slow = b
          ∧ (b = true → t.fld A.OD_STAT 31 30 = 3))
  ∧ ∀ (w : WbPend) (s : State), s.host.inbox.length < 16 → (s.inboxPut w).flag A.OD_STAT 29 = (s.flag A.OD_STAT 29 || wbNum w.ws 16 4 == 0x30394443)

/-- R477, R479–R485: tamper events, random words, attestation reports, and the debug port: challenges, tokens and the operations of a session, each
answered with its status.

The statuses of refused challenges and of counts out of range are the model's choice, assumption 87; how a debug access is made is deduced, assumption 86. A command whose condition does not hold leaves the state as it is: the model's choice, assumption 19. -/
def Obligations.SecurityAndDebug : Prop :=
  (∀ (i : Fin 6) (s : State), ∃ t, exec (.tamper i) s = .next t ∧ t.faultQ = s.faultQ ++ [⟨0x92, i, s.dtC, false⟩]
      ∧ t.flag A.SC_TAMPER i = true ∧ t.sc.sealed_ = false ∧ t.flag A.SC_STAT 29 = false ∧ t.sc.ends = none
      ∧ (1 ≤ i.val → i.val ≤ 3 → t.sc.idBlock = true) ∧ (i.val = 5 → t.sc.rndBad = true) ∧ t.flag A.SC_IRQST 0 = true)
  ∧ (∀ (m : Master) (s : State),
      (∃ t, exec .randomSourceRecovery s = .next t ∧ t.sc.rndBad = false ∧ t.flag A.SC_STAT 26 = (s.sc.idBlock || s.sc.lmsBad))
      ∧ ∃ t, exec (.scRandRead m) s = .next t ∧ t.regs = s.regs ∧ t.freeCtr = s.freeCtr + 1
          ∧ Sparse.get (fun _ => 0) t.rdData m.latchNo = (Config.freeBits s.freeCtr).setWidth 32)
  ∧ (∀ (ok : Bool) (s : State), (s.sc.attest = none ∨ s.sc.attest.bind (fun a => a.at_) = none → exec (.attestSigned ok) s = .next s)
      ∧ ∀ a w t0, s.sc.attest = some a → a.at_ = some t0 → s.host.wbs.find? (fun x => x.ord == a.ord) = some w →
          ∃ t, exec (.attestSigned ok) s = .next t ∧ t.sc.attest = none ∧ (∀ x ∈ t.host.wbs, x.ord ≠ w.ord)
            ∧ t.num A.HQ_CNT_WB = min (s.num A.HQ_CNT_WB + 1) (2 ^ 32 - 1) ∧ (ok = true → t.flag A.SC_IRQST 2 = true))
  ∧ (∀ (src : BitVec 48) (s : State), s.dbgAwake = false →
      exec (.chalReq src) s = .next s ∧ exec (.lock src) s = .next s ∧ (∀ on, exec (.halt src on) s = .next s)
        ∧ (∀ a n, exec (.read src a n) s = .next s) ∧ (∀ a ws, exec (.write src a ws) s = .next s)
        ∧ (∀ i n bs, exec (.token src i n bs) s = .next s) ∧ ∀ i k a x, exec (.watch src i k a x) s = .next s)
  ∧ (∀ (src : BitVec 48) (s : State), s.dbgAwake = true → let answer := fun (t : State) (st : Nat) => t.dbgResult src st
      (s.dbgOff = true → exec (.chalReq src) s = .next (answer s 2))
      ∧ (s.dbgOff = false → s.sc.lockUntil ≠ none → exec (.chalReq src) s = .next (answer s 4))
      ∧ (s.dbgOff = false → s.sc.lockUntil = none → ∃ t n, exec (.chalReq src) s = .next t ∧ t.sc.nonce = some (n, s.dtC) ∧ t.sc.frags = []
          ∧ t.freeCtr = s.freeCtr + 2)
      ∧ (∀ (i n : BitVec 8) (bs : List Byte),
          (s.dbgOff = true → ∃ t, exec (.token src i n bs) s = .next t ∧ t.sc.nonce = none ∧ t.sc.ends = s.sc.ends)
          ∧ (s.dbgOff = false → n = 0 ∨ 16 < n.toNat ∨ n ≤ i ∨ 1024 < bs.length → s.sc.badAt = [] → ∃ t, exec (.token src i n bs) s = .next t
              ∧ t.sc.nonce = none ∧ t.sc.badAt = [s.dtC] ∧ t.sc.ends = s.sc.ends)
          ∧ (s.dbgOff = false → i = 0 → n = 1 → bs.length ≤ 1024 → s.sc.frags = [] →
              (s.tokenOk s.sc.nonce bs = true → ∃ t, exec (.token src i n bs) s = .next t ∧ t.sc.nonce = none ∧ t.sc.sealed_ = false
                ∧ t.sc.ends = some (s.dtC + State.tokNum bs 0x38 4 * 1000000) ∧ t.sc.sessions = s.sc.sessions + 1
                ∧ t.fld A.SC_DBGSTAT 31 28 = State.tokNum bs 0x34 4)
              ∧ (s.tokenOk s.sc.nonce bs = false → s.sc.badAt = [] → ∃ t, exec (.token src i n bs) s = .next t ∧ t.sc.nonce = none
                ∧ t.sc.badAt = [s.dtC] ∧ t.sc.ends = s.sc.ends)))
      ∧ (s.sc.ends = none → exec (.lock src) s = .next (answer s 3) ∧ (∀ on, exec (.halt src on) s = .next (answer s 3))
          ∧ (∀ a n, exec (.read src a n) s = .next (answer s 3)) ∧ (∀ a ws, exec (.write src a ws) s = .next (answer s 3))
          ∧ ∀ i k a x, exec (.watch src i k a x) s = .next (answer s 3))
      ∧ (s.sc.ends ≠ none →
          (∀ on, s.flag A.SC_DBGSTAT 30 = false → exec (.halt src on) s = .next (answer s 4))
          ∧ (s.flag A.SC_DBGSTAT 30 = true → (∃ t, exec (.halt src true) s = .next t ∧ t.coreA.dbgHalt = true ∧ t.coreB.dbgHalt = true
                ∧ t.coreA.pc = s.coreA.pc) ∧ ∃ t, exec (.halt src false) s = .next t ∧ t.coreA.dbgHalt = false ∧ t.coreB.dbgHalt = false)
          ∧ (∀ i k a x, s.flag A.SC_DBGSTAT 31 = true → i.toNat < 4 → 1 ≤ k.toNat → k.toNat < 4 → ∃ t, exec (.watch src i k a x) s = .next t
              ∧ Sparse.get (fun _ => {}) t.sc.watch i.toNat = { kind := k.toNat, addr := a.toNat, mask := x.toNat })
          ∧ (∀ a ws, s.flag A.SC_DBGSTAT 29 = true → ws ≠ [] → ws.length ≤ 64 → State.dbgDenied a.toNat = true →
              exec (.write src a ws) s = .next (answer s 4))
          ∧ (∀ (a : BitVec 32) (v : Word), s.sc.dbgQ = [] → s.flag A.SC_DBGSTAT 29 = true → a.toNat % 4 = 0 → YardOwned s .a a.toNat → ∃ t,
              exec (.write src a [v]) s = .next t ∧ t.ram = storeBytes s.ram a.toNat (wordBytes v) ∧ t.faultQ = s.faultQ)
          ∧ (∀ (a : BitVec 32), s.sc.dbgQ = [] → s.flag A.SC_DBGSTAT 28 = true → a.toNat % 4 = 0 → (∃ y, regionOf .a a.toNat = .yard y) → Clean s a.toNat 4 →
              exec (.read src a 1) s = .next (s.dbgResult src 0 ((List.range 4).map (fun i => s.byteAt (a.toNat + i)))))
          ∧ ∃ t, exec (.lock src) s = .next t ∧ t.sc.ends = none ∧ t.sc.watch = [] ∧ t.rd A.SC_DBGSTAT = 0))
  ∧ ∀ s : State, ((∀ e, s.sc.ends = some e → s.dtC < e) → exec .sessionExpiry s = .next s)
      ∧ (∀ e, s.sc.ends = some e → e ≤ s.dtC → ∃ t, exec .sessionExpiry s = .next t ∧ t.sc.ends = none ∧ t.sc.watch = []
          ∧ t.coreA.dbgHalt = false)
      ∧ ((∀ e, s.sc.lockUntil = some e → s.dtC < e) → exec .chalLockoutEnd s = .next s)
      ∧ (∀ e, s.sc.lockUntil = some e → e ≤ s.dtC → exec .chalLockoutEnd s = .next { s with sc := { s.sc with lockUntil := none } })

/-! ### What commands leave alone -/

/-- Frames: a command outside the named ones leaves every byte of the yards and the NV yard's array, program memory, the lamplighter's stores,
host memory and far memory as they were. -/
def Obligations.MemoriesChangeByTheirCommandsOnly : Prop :=
  ∀ (c : Instr) (s t : State), exec c s = .next t →
    (reachesYards c = false → t.ram = s.ram ∧ t.poison = s.poison)
    ∧ (reachesProgram c = false → t.pm = s.pm ∧ t.pmBad = s.pmBad)
    ∧ (reachesLampStore c = false → t.lram = s.lram ∧ t.lpm = s.lpm)
    ∧ (reachesHost c = false → t.hostMem = s.hostMem)
    ∧ (reachesFar c = false → t.farMem = s.farMem ∧ t.farPoison = s.farPoison)

/-- Frames: a command outside the named ones leaves the processors, the counters, the tracks, the PWM units, the power ladder, the security
block and the map store as they were, their registers apart. -/
def Obligations.BlocksChangeByTheirCommandsOnly : Prop :=
  ∀ (c : Instr) (s t : State), exec c s = .next t →
    (reachesCores c = false → t.coreA = s.coreA ∧ t.coreB = s.coreB ∧ t.lamp = s.lamp)
    ∧ (reachesCounters c = false → t.tc = s.tc) ∧ (reachesTracks c = false → t.trk = s.trk)
    ∧ (reachesUnits c = false → t.pu = s.pu) ∧ (reachesPower c = false → t.pw = s.pw)
    ∧ (reachesSecurity c = false → t.sc = s.sc) ∧ (reachesMaps c = false → t.maps = s.maps)

/-! ### Felrad encodings -/

/-- R253–R257: words written out from the encoding tables, and words that the tables leave illegal.

R229, R253–R257, R260: decoding an encoded legal instruction gives it back, and a word that decodes is the encoding of what it decodes
to: no bit of an encoding is dropped, and no reserved encoding is taken. -/
def Obligations.FelradWordsAndDecodeOfEncode : Prop :=
  (
  decodeFel 0x2020 0x2081 = some (.movi 2 0x2081) ∧ decodeFel 0x2832 0 = some (.rd .ldw 3 2 0)
    ∧ decodeFel 0x3342 0 = some (.rd .ldrsv 4 2 0) ∧ decodeFel 0x2244 1 = some (.im .addi 4 4 1)
    ∧ decodeFel 0x3442 0 = some (.rd .stcnd 4 2 0) ∧ decodeFel 0x361F 0x3FF7 = some (.bcc 1 (-9))
    ∧ decodeFel 0x0243 0 = some (.r2 .add 4 3) ∧ decodeFel 0x1542 0 = some (.r2 .div 4 2) ∧ decodeFel 0x0020 0 = some (.m0 .retx)
    ∧ decodeFel 0x0030 0 = some (.m0 .ret) ∧ decodeFel 0x1E12 0 = some (.trap 0x12) ∧ decodeFel 0x1037 0 = some (.u1 .clz 3)
    ∧ decodeFel 0x1552 0 = none ∧ decodeFel 0x36F0 0 = none ∧ decodeFel 0x0065 0 = none ∧ decodeFel 0x1F00 0 = none
    ∧ decodeFel 0x3E00 0 = none ∧ decodeFel 0x2110 0x12 = some (.movsh 1 0x12)
  )
  ∧ (
  (∀ i : Fel, i.legal = true → decodeFel (encodeFel i).1 (encodeFel i).2 = some i)
  ∧ ∀ (x y : Syl) (i : Fel), decodeFel x y = some i → i.legal = true ∧ encodeFel i = (x, if x.getLsbD 13 then y else 0)
    ∧ (x.getLsbD 13 = true ↔ i.len = 2)
  )
end

