-- ==== Sys2Proof/Laws/Bits.lean ====
section
/-!
SUPPORT. Laws of bit fields: what a field reads after it, or another field, has been written.
-/
namespace Sys2Proof.Machine

theorem getLsbD_fieldMask (hi lo j : Nat) (h : hi < 32) :
    (fieldMask hi lo).getLsbD j = (decide (lo ≤ j) && decide (j ≤ hi)) := by
  unfold fieldMask
  rw [BitVec.getLsbD_ofNat, Nat.testBit_shiftLeft, Nat.testBit_two_pow_sub_one]
  by_cases h1 : lo ≤ j <;> by_cases h2 : j ≤ hi <;> simp [h1, h2] <;> omega

theorem getLsbD_putBits (w : Word) (hi lo v j : Nat) (h : hi < 32) :
    (putBits w hi lo v).getLsbD j =
      if lo ≤ j ∧ j ≤ hi then v.testBit (j - lo) else w.getLsbD j := by
  unfold putBits
  rw [BitVec.getLsbD_or, BitVec.getLsbD_and, BitVec.getLsbD_not, getLsbD_fieldMask hi lo j h, BitVec.getLsbD_ofNat,
    Nat.testBit_shiftLeft, Nat.testBit_mod_two_pow]
  by_cases h1 : lo ≤ j <;> by_cases h2 : j ≤ hi
  · have h3 : j < 32 := by omega
    have h4 : j - lo < hi + 1 - lo := by omega
    simp [h1, h2, h3, h4]
  · have h4 : ¬ j - lo < hi + 1 - lo := by omega
    by_cases h3 : j < 32
    · simp [h1, h2, h3, h4]
    · simp [h1, h2, h4, BitVec.getLsbD_of_ge w j (Nat.le_of_not_lt h3)]
  · by_cases h3 : j < 32
    · simp [h1, h2, h3]
    · omega
  · by_cases h3 : j < 32
    · simp [h1, h2, h3]
    · simp [h1, h2, BitVec.getLsbD_of_ge w j (Nat.le_of_not_lt h3)]

theorem testBit_bitsOf (w : Word) (hi lo j : Nat) :
    (bitsOf w hi lo).testBit j = (decide (j < hi + 1 - lo) && w.getLsbD (lo + j)) := by
  unfold bitsOf
  rw [Nat.testBit_mod_two_pow, Nat.testBit_shiftRight]
  rfl

/-- A field reads what was written to it, cut to its width. -/
theorem bitsOf_putBits (w : Word) (hi lo v : Nat) (h : hi < 32) :
    bitsOf (putBits w hi lo v) hi lo = v % 2 ^ (hi + 1 - lo) := by
  apply Nat.eq_of_testBit_eq
  intro j
  rw [testBit_bitsOf, getLsbD_putBits w hi lo v _ h, Nat.testBit_mod_two_pow]
  by_cases h1 : j < hi + 1 - lo
  · have h2 : lo ≤ lo + j ∧ lo + j ≤ hi := by omega
    rw [if_pos h2]
    simp [h1]
  · simp [h1]

/-- A write of a field leaves a field beside it. -/
theorem bitsOf_putBits_ne (w : Word) (hi lo v hi' lo' : Nat) (h : hi < 32) (hd : hi' < lo ∨ hi < lo') :
    bitsOf (putBits w hi lo v) hi' lo' = bitsOf w hi' lo' := by
  apply Nat.eq_of_testBit_eq
  intro j
  rw [testBit_bitsOf, testBit_bitsOf, getLsbD_putBits w hi lo v _ h]
  by_cases h1 : j < hi' + 1 - lo'
  · rw [if_neg (by omega)]
  · simp [h1]

/-- A bit reads what was written to it. -/
theorem bitOf_setBit (w : Word) (b : Nat) (v : Bool) (h : b < 32) : bitOf (setBit w b v) b = v := by
  unfold bitOf setBit
  rw [getLsbD_putBits w b b _ b h]
  cases v <;> simp

/-- A write of one bit leaves every other bit. -/
theorem bitOf_setBit_ne (w : Word) (b c : Nat) (v : Bool) (h : b < 32) (hc : c ≠ b) : bitOf (setBit w b v) c = bitOf w c := by
  unfold bitOf setBit
  rw [getLsbD_putBits w b b _ c h, if_neg (by omega)]

/-- A write of a field leaves a bit outside it. -/
theorem bitOf_putBits_ne (w : Word) (hi lo v c : Nat) (h : hi < 32) (hc : c < lo ∨ hi < c) :
    bitOf (putBits w hi lo v) c = bitOf w c := by
  unfold bitOf
  rw [getLsbD_putBits w hi lo v c h, if_neg (by omega)]

/-- A write of one bit leaves a field that does not hold it. -/
theorem bitsOf_setBit_ne (w : Word) (b : Nat) (v : Bool) (hi lo : Nat) (h : b < 32) (hc : hi < b ∨ b < lo) :
    bitsOf (setBit w b v) hi lo = bitsOf w hi lo := bitsOf_putBits_ne w b b v.toNat hi lo h (by omega)

end Sys2Proof.Machine
end

