-- ==== Sys2Proof/Laws/Sparse.lean ====
section
/-!
SUPPORT. Laws of sparse storage: what a read answers after a write, an insertion or a drop, of any storage; and that all
of them keep the canonical form.
-/
namespace Sys2Proof.Machine

variable {α : Type} [DecidableEq α]

/-! ### Reads -/

omit [DecidableEq α] in
/-- A read after a drop: dropped keys read as unlisted. -/
theorem Sparse.get_drop (d : Nat → α) (p : Nat → Bool) (m : Sparse α) (k : Nat) :
    Sparse.get d (Sparse.drop p m) k = if p k then d k else Sparse.get d m k := by
  induction m with
  | nil => simp [Sparse.drop, Sparse.get]
  | cons e m ih =>
    obtain ⟨j, v⟩ := e
    unfold Sparse.drop at ih ⊢
    rw [List.filter_cons]
    by_cases hj : p j = true
    · simp only [hj, Bool.not_true, Bool.false_eq_true, if_false, ih, Sparse.get]
      by_cases hk : k = j
      · subst hk; simp [hj]
      · simp [hk]
    · simp only [Bool.not_eq_true] at hj
      simp only [hj, Bool.not_false, if_true, Sparse.get, ih]
      by_cases hk : k = j
      · subst hk; simp [hj]
      · simp [hk]

omit [DecidableEq α] in
/-- A read after an insertion at a key that reads as unlisted. -/
theorem Sparse.get_insert (d : Nat → α) (m : Sparse α) (k : Nat) (v : α) (j : Nat) (h : ∀ e ∈ m, e.1 ≠ k) :
    Sparse.get d (Sparse.insert k v m) j = if j = k then v else Sparse.get d m j := by
  induction m with
  | nil => simp [Sparse.insert, Sparse.get]
  | cons e m ih =>
    obtain ⟨i, w⟩ := e
    have hi : i ≠ k := h (i, w) (by simp)
    have hm := ih (fun e he => h e (by simp [he]))
    simp only [Sparse.insert]
    split
    · simp [Sparse.get]
    · simp only [Sparse.get, hm]
      by_cases hj : j = i
      · subst hj; simp [hi]
      · simp [hj]

/-- A read after a write: the value at the key written, what stood there elsewhere. -/
theorem Sparse.get_set (d : Nat → α) (m : Sparse α) (k : Nat) (v : α) (j : Nat) :
    Sparse.get d (Sparse.set d m k v) j = if j = k then v else Sparse.get d m j := by
  unfold Sparse.set
  split
  · rename_i h
    rw [Sparse.get_drop]
    by_cases hj : j = k
    · simp [hj, h]
    · simp [hj]
  · rw [Sparse.get_insert, Sparse.get_drop]
    · by_cases hj : j = k
      · simp [hj]
      · simp [hj]
    · intro e he
      simp only [Sparse.drop, List.mem_filter] at he
      simpa using he.2

/-- A read of the key written. -/
@[simp] theorem Sparse.get_set_self (d : Nat → α) (m : Sparse α) (k : Nat) (v : α) :
    Sparse.get d (Sparse.set d m k v) k = v := by simp [Sparse.get_set]

/-- A read of another key. -/
theorem Sparse.get_set_ne (d : Nat → α) (m : Sparse α) (k : Nat) (v : α) (j : Nat) (h : j ≠ k) :
    Sparse.get d (Sparse.set d m k v) j = Sparse.get d m j := by simp [Sparse.get_set, h]

/-! ### The canonical form -/

/-- Empty storage is canonical. -/
@[simp] theorem Sparse.wf_nil (d : Nat → α) : Sparse.wf d [] = true := rfl

theorem Sparse.wfFrom_mono (d : Nat → α) (lo lo' : Nat) (m : Sparse α) (h : Sparse.wfFrom d (some lo) m = true)
    (hl : lo' ≤ lo) : Sparse.wfFrom d (some lo') m = true := by
  cases m with
  | nil => rfl
  | cons e m =>
    simp only [Sparse.wfFrom, Bool.and_eq_true, decide_eq_true_eq] at h ⊢
    exact ⟨⟨by omega, h.1.2⟩, h.2⟩

theorem Sparse.wfFrom_none (d : Nat → α) (lo : Nat) (m : Sparse α) (h : Sparse.wfFrom d (some lo) m = true) :
    Sparse.wf d m = true := by
  cases m with
  | nil => rfl
  | cons e m =>
    simp only [Sparse.wf, Sparse.wfFrom, Bool.and_eq_true, decide_eq_true_eq] at h ⊢
    exact ⟨⟨trivial, h.1.2⟩, h.2⟩

theorem Sparse.wfFrom_tail (d : Nat → α) (lo : Option Nat) (i : Nat) (w : α) (m : Sparse α)
    (h : Sparse.wfFrom d lo ((i, w) :: m) = true) : Sparse.wfFrom d lo m = true := by
  simp only [Sparse.wfFrom, Bool.and_eq_true, decide_eq_true_eq] at h
  cases lo with
  | none => exact Sparse.wfFrom_none d i m h.2
  | some l => exact Sparse.wfFrom_mono d i l m h.2 (by have := h.1.1; simp at this; omega)

theorem Sparse.wfFrom_filter (d : Nat → α) (p : Nat × α → Bool) (lo : Option Nat) (m : Sparse α)
    (h : Sparse.wfFrom d lo m = true) : Sparse.wfFrom d lo (m.filter p) = true := by
  induction m generalizing lo with
  | nil => rfl
  | cons e m ih =>
    obtain ⟨i, w⟩ := e
    rw [List.filter_cons]
    split
    · simp only [Sparse.wfFrom, Bool.and_eq_true, decide_eq_true_eq] at h ⊢
      exact ⟨h.1, ih (some i) h.2⟩
    · exact ih lo (Sparse.wfFrom_tail d lo i w m h)

/-- Dropping keys keeps the canonical form. -/
theorem Sparse.wf_drop (d : Nat → α) (p : Nat → Bool) (m : Sparse α) (h : Sparse.wf d m = true) :
    Sparse.wf d (Sparse.drop p m) = true := Sparse.wfFrom_filter d _ none m h

theorem Sparse.wfFrom_insert (d : Nat → α) (lo : Option Nat) (m : Sparse α) (k : Nat) (v : α) (hv : v ≠ d k)
    (hk : ∀ e ∈ m, e.1 ≠ k) (hl : ∀ l, lo = some l → l < k) (h : Sparse.wfFrom d lo m = true) :
    Sparse.wfFrom d lo (Sparse.insert k v m) = true := by
  induction m generalizing lo with
  | nil =>
    cases lo with
    | none => simp [Sparse.insert, Sparse.wfFrom, hv]
    | some l => simp [Sparse.insert, Sparse.wfFrom, hv, hl l rfl]
  | cons e m ih =>
    obtain ⟨i, w⟩ := e
    have hi : i ≠ k := hk (i, w) (by simp)
    simp only [Sparse.insert]
    simp only [Sparse.wfFrom, Bool.and_eq_true, decide_eq_true_eq] at h
    split
    · rename_i hlt
      cases lo with
      | none => simp [Sparse.wfFrom, hv, hlt, h.1.2, h.2]
      | some l => simp [Sparse.wfFrom, hv, hl l rfl, hlt, h.1.2, h.2]
    · simp only [Sparse.wfFrom, Bool.and_eq_true, decide_eq_true_eq]
      refine ⟨h.1, ih (some i) (fun e he => hk e (by simp [he])) ?_ h.2⟩
      intro l hl'
      cases hl'
      omega

/-- A write keeps the canonical form. -/
theorem Sparse.wf_set (d : Nat → α) (m : Sparse α) (k : Nat) (v : α) (h : Sparse.wf d m = true) :
    Sparse.wf d (Sparse.set d m k v) = true := by
  unfold Sparse.set
  split
  · exact Sparse.wf_drop d _ m h
  · rename_i hv
    refine Sparse.wfFrom_insert d none _ k v hv ?_ (fun _ h => by cases h) (Sparse.wf_drop d _ m h)
    intro e he
    simp only [Sparse.drop, List.mem_filter] at he
    simpa using he.2

/-- Writes one after another keep the canonical form. -/
theorem Sparse.wf_foldl {β : Type} (d : Nat → α) (f : Sparse α → β → Sparse α) (l : List β) (m : Sparse α)
    (hf : ∀ m b, Sparse.wf d m = true → Sparse.wf d (f m b) = true) (h : Sparse.wf d m = true) :
    Sparse.wf d (l.foldl f m) = true := by
  induction l generalizing m with
  | nil => exact h
  | cons b l ih => exact ih (f m b) (hf m b h)

theorem Sparse.wfFrom_mapv (d : Nat → α) (f : α → α) (lo : Option Nat) (m : Sparse α) (h : Sparse.wfFrom d lo m = true) :
    Sparse.wfFrom d lo (Sparse.mapv d f m) = true := by
  induction m generalizing lo with
  | nil => rfl
  | cons e m ih =>
    obtain ⟨i, w⟩ := e
    have h' := h
    simp only [Sparse.wfFrom, Bool.and_eq_true, decide_eq_true_eq] at h
    unfold Sparse.mapv at ih ⊢
    rw [List.map_cons, List.filter_cons]
    split
    · rename_i hv
      simp only [decide_eq_true_eq] at hv
      simp only [Sparse.wfFrom, Bool.and_eq_true, decide_eq_true_eq]
      exact ⟨⟨h.1.1, hv⟩, ih (some i) h.2⟩
    · exact ih lo (Sparse.wfFrom_tail d lo i w m h')

/-- A change of every value keeps the canonical form. -/
theorem Sparse.wf_mapv (d : Nat → α) (f : α → α) (m : Sparse α) (h : Sparse.wf d m = true) :
    Sparse.wf d (Sparse.mapv d f m) = true := Sparse.wfFrom_mapv d f none m h

end Sys2Proof.Machine
end

