-- ==== Sys2Proof/Laws/State.lean ====
section
/-!
SUPPORT. Laws of the named operations over the state: one lemma per field per update, and what registers, their fields and
the hidden records read after a write.
-/
namespace Sys2Proof.Machine
namespace State

variable (s : State)

/-! ### Registers -/

@[simp] theorem rd_wr_self (a : Nat) (v : Word) : (s.wr a v).rd a = v := Sparse.get_set_self _ _ _ _
theorem rd_wr (a : Nat) (v : Word) (b : Nat) : (s.wr a v).rd b = if b = a then v else s.rd b := Sparse.get_set _ _ _ _ _
theorem rd_wr_ne (a : Nat) (v : Word) (b : Nat) (h : b ≠ a) : (s.wr a v).rd b = s.rd b := Sparse.get_set_ne _ _ _ _ _ h
theorem rd_setFld (a hi lo v b : Nat) : (s.setFld a hi lo v).rd b = if b = a then putBits (s.rd a) hi lo v else s.rd b :=
  rd_wr s a _ b
theorem rd_setFlag (a n : Nat) (v : Bool) (b : Nat) :
    (s.setFlag a n v).rd b = if b = a then setBit (s.rd a) n v else s.rd b := rd_wr s a _ b
theorem rd_satAdd (a hi lo n b : Nat) : (s.satAdd a hi lo n).rd b =
    if b = a then putBits (s.rd a) hi lo (min (s.fld a hi lo + n) (2 ^ (hi + 1 - lo) - 1)) else s.rd b :=
  rd_setFld s a hi lo _ b

/-- A field reads what was written to it, cut to its width. -/
theorem fld_setFld (a hi lo v : Nat) (h : hi < 32) : (s.setFld a hi lo v).fld a hi lo = v % 2 ^ (hi + 1 - lo) := by
  simp [fld, setFld, bitsOf_putBits _ _ _ _ h]

/-- A flag reads what was written to it. -/
theorem flag_setFlag (a b : Nat) (v : Bool) (h : b < 32) : (s.setFlag a b v).flag a b = v := by
  simp [flag, setFlag, bitOf_setBit _ _ _ h]

/-- A register write leaves the fields and flags of every other register. -/
theorem fld_wr_ne (a : Nat) (v : Word) (b hi lo : Nat) (h : b ≠ a) : (s.wr a v).fld b hi lo = s.fld b hi lo := by
  simp [fld, rd_wr_ne s a v b h]
theorem flag_wr_ne (a : Nat) (v : Word) (b n : Nat) (h : b ≠ a) : (s.wr a v).flag b n = s.flag b n := by
  simp [flag, rd_wr_ne s a v b h]
theorem num_wr_ne (a : Nat) (v : Word) (b : Nat) (h : b ≠ a) : (s.wr a v).num b = s.num b := by
  simp [num, rd_wr_ne s a v b h]

/-- A counter field that saturates never falls. -/
theorem fld_satAdd (a hi lo n : Nat) (h : hi < 32) :
    (s.satAdd a hi lo n).fld a hi lo = min (s.fld a hi lo + n) (2 ^ (hi + 1 - lo) - 1) := by
  rw [satAdd, fld_setFld _ _ _ _ _ h, Nat.mod_eq_of_lt]
  have : 0 < 2 ^ (hi + 1 - lo) := Nat.two_pow_pos _
  omega

end State
end Sys2Proof.Machine
end

