-- ==== Sys2Proof/Laws/Felrad.lean ====
section
/-!
SUPPORT. What the shared operations of the Felrad processors do: one lemma for an instruction that runs to its end, one for an
exception that it takes, and one per field for the updates of a processor.
-/
namespace Sys2Proof.Machine

/-! ### A processor in the state -/

/-- A processor is one of the state's three; in tandem B is A (R309). -/
theorem State.setCore_cases (s : State) (c : Who) (k : CoreSt) :
    s.setCore c k = { s with coreA := k } ∨ s.setCore c k = { s with coreB := k } ∨ s.setCore c k = { s with lamp := k } := by
  cases c with
  | a => exact .inl rfl
  | lamp => exact .inr (.inr rfl)
  | b => cases h : s.unhitched <;> simp [State.setCore, h]

@[simp] theorem State.setCore_regs (s : State) (c : Who) (k : CoreSt) : (s.setCore c k).regs = s.regs := by
  rcases s.setCore_cases c k with h | h | h <;> rw [h]
@[simp] theorem State.setCore_rd (s : State) (c : Who) (k : CoreSt) (a : Nat) : (s.setCore c k).rd a = s.rd a := by
  rcases s.setCore_cases c k with h | h | h <;> rw [h] <;> rfl
@[simp] theorem State.setCore_unhitched (s : State) (c : Who) (k : CoreSt) : (s.setCore c k).unhitched = s.unhitched := by
  rcases s.setCore_cases c k with h | h | h <;> rw [h] <;> rfl
@[simp] theorem State.setCore_ram (s : State) (c : Who) (k : CoreSt) : (s.setCore c k).ram = s.ram := by
  rcases s.setCore_cases c k with h | h | h <;> rw [h]
@[simp] theorem State.setCore_pending (s : State) (c : Who) (k : CoreSt) : (s.setCore c k).pending = s.pending := by
  rcases s.setCore_cases c k with h | h | h <;> rw [h]
@[simp] theorem State.getCore_setCore (s : State) (c : Who) (k : CoreSt) : (s.setCore c k).getCore c = k := by
  cases c with
  | a => rfl
  | lamp => rfl
  | b =>
    unfold State.getCore
    simp only [State.setCore_unhitched]
    cases h : s.unhitched <;> simp [State.setCore, h]
@[simp] theorem State.setCore_setCore (s : State) (c : Who) (k l : CoreSt) : (s.setCore c k).setCore c l = s.setCore c l := by
  cases c with
  | a => rfl
  | lamp => rfl
  | b =>
    have hu := s.setCore_unhitched .b k
    cases h : s.unhitched <;> rw [h] at hu <;> simp [State.setCore, h] at hu ⊢ <;> simp [hu]
@[simp] theorem State.setCore_getCore (s : State) (c : Who) : s.setCore c (s.getCore c) = s := by
  cases c with
  | a => rfl
  | lamp => rfl
  | b => cases h : s.unhitched <;> simp [State.setCore, State.getCore, h]
theorem State.getCore_setCore_ne (s : State) (c d : Who) (k : CoreSt) (h : d ≠ c) (hu : s.unhitched = true) :
    (s.setCore c k).getCore d = s.getCore d := by
  have hk := s.setCore_unhitched c k
  cases c <;> cases d <;> simp_all [State.setCore, State.getCore]
/-- In tandem the cores are one (R309). -/
theorem State.getCore_b_tandem (s : State) (hu : s.unhitched = false) : s.getCore .b = s.coreA := by
  simp [State.getCore, hu]

/-! ### Registers of a processor -/

namespace CoreSt
variable (k : CoreSt)

@[simp] theorem bank_setBank (b : Nat) (v : Bank) : (k.setBank b v).bank b = v := by simp [bank, setBank]
theorem bank_setBank_ne (b c : Nat) (v : Bank) (h : c ≠ b) : (k.setBank b v).bank c = k.bank c := by
  simp [bank, setBank, Sparse.get_set_ne _ _ _ _ _ h]
@[simp] theorem wreg_setWreg (b n : Nat) (v : Word) : (k.setWreg b n v).wreg b n = v := by simp [wreg, setWreg]
theorem wreg_setWreg_ne (b n : Nat) (v : Word) (c m : Nat) (h : c ≠ b ∨ m ≠ n) : (k.setWreg b n v).wreg c m = k.wreg c m := by
  unfold wreg setWreg
  by_cases hc : c = b
  · subst hc
    have hm : m ≠ n := by cases h with
      | inl h => exact absurd rfl h
      | inr h => exact h
    simp [Sparse.get_set_ne _ _ _ _ _ hm]
  · rw [bank_setBank_ne _ _ _ _ hc]

@[simp] theorem setReg_bk (n : Nat) (v : Word) : (k.setReg n v).bk = k.bk := rfl
@[simp] theorem setReg_pc (n : Nat) (v : Word) : (k.setReg n v).pc = k.pc := rfl
@[simp] theorem setReg_stat (n : Nat) (v : Word) : (k.setReg n v).stat = k.stat := rfl
@[simp] theorem setReg_run (n : Nat) (v : Word) : (k.setReg n v).run = k.run := rfl
@[simp] theorem setReg_loads (n : Nat) (v : Word) : (k.setReg n v).loads = k.loads := rfl
@[simp] theorem setReg_hwSince (n : Nat) (v : Word) : (k.setReg n v).hwSince = k.hwSince := rfl
@[simp] theorem setReg_wait (n : Nat) (v : Word) : (k.setReg n v).wait = k.wait := rfl
@[simp] theorem setReg_a0 (n : Nat) (v : Word) : (k.setReg n v).a0 = k.a0 := rfl
@[simp] theorem setReg_a1 (n : Nat) (v : Word) : (k.setReg n v).a1 = k.a1 := rfl
@[simp] theorem setStat_bk (hi lo v : Nat) : (k.setStat hi lo v).bk = k.bk := rfl
@[simp] theorem setStat_pc (hi lo v : Nat) : (k.setStat hi lo v).pc = k.pc := rfl
@[simp] theorem setStat_banks (hi lo v : Nat) : (k.setStat hi lo v).banks = k.banks := rfl
@[simp] theorem setStat_run (hi lo v : Nat) : (k.setStat hi lo v).run = k.run := rfl
@[simp] theorem setStat_loads (hi lo v : Nat) : (k.setStat hi lo v).loads = k.loads := rfl
@[simp] theorem setStat_hwSince (hi lo v : Nat) : (k.setStat hi lo v).hwSince = k.hwSince := rfl

@[simp] theorem setReg_rp (n : Nat) (v : Word) : (k.setReg n v).rp = k.rp := rfl

/-- The register written reads the value; every other register of every bank reads as before. -/
@[simp] theorem reg_setReg (n : Nat) (v : Word) : (k.setReg n v).reg n = v := by
  show (k.setWreg k.bk n v).wreg k.bk n = v
  simp
theorem reg_setReg_ne (n : Nat) (v : Word) (m : Nat) (h : m ≠ n) : (k.setReg n v).reg m = k.reg m := by
  show (k.setWreg k.bk n v).wreg k.bk m = k.wreg k.bk m
  exact wreg_setWreg_ne k _ _ _ _ _ (Or.inr h)

/-- Flag updates change STAT only, and of STAT only bits 3:0. -/
theorem setAlu_eq (x : AluRes) : k.setAlu x = { k with stat := (k.setAlu x).stat } := by
  unfold setAlu setStat
  cases x.c <;> cases x.v <;> rfl
theorem setAlu_high (x : AluRes) (b : Nat) (h : 4 ≤ b) : bitOf (k.setAlu x).stat b = bitOf k.stat b := by
  unfold setAlu setStat
  cases x.c <;> cases x.v <;> simp only <;>
    (repeat rw [bitOf_putBits_ne _ _ _ _ _ (by omega) (by omega)])
@[simp] theorem setAlu_rp (x : AluRes) : (k.setAlu x).rp = k.rp := setAlu_high k x 13 (by omega)
@[simp] theorem setAlu_bk (x : AluRes) : (k.setAlu x).bk = k.bk := by rw [setAlu_eq]
@[simp] theorem setAlu_pc (x : AluRes) : (k.setAlu x).pc = k.pc := by rw [setAlu_eq]
@[simp] theorem setAlu_run (x : AluRes) : (k.setAlu x).run = k.run := by rw [setAlu_eq]
@[simp] theorem setAlu_loads (x : AluRes) : (k.setAlu x).loads = k.loads := by rw [setAlu_eq]
@[simp] theorem setAlu_hwSince (x : AluRes) : (k.setAlu x).hwSince = k.hwSince := by rw [setAlu_eq]
@[simp] theorem setAlu_banks (x : AluRes) : (k.setAlu x).banks = k.banks := by rw [setAlu_eq]

/-- No near load is under way: nothing is written back. -/
theorem slots_nil (n : Nat) (h : k.loads = []) : k.slots n = k := by
  cases k; simp_all [slots]
theorem writeBack_nil (h : k.loads = []) : k.writeBack = k := by
  cases k; simp_all [writeBack]
theorem settle_nil (h : k.loads = []) : k.settle = k := by
  unfold settle; rw [slots_nil k _ h, writeBack_nil k h]

end CoreSt

/-! ### How an instruction ends -/

/-- An instruction whose effect leaves the processor running, without a repeat, a load or a stall: the PC moves past it. -/
theorem complete_next (c : Who) (len n : Nat) (s : State) (hr : (s.getCore c).run = true) (hp : (s.getCore c).rp = false)
    (hl : (s.getCore c).loads = []) (hw : (s.getCore c).hwSince = none) :
    complete c len n none s = s.setCore c { s.getCore c with pc := ((s.getCore c).pc + len) % 2 ^ 24 } := by
  have he : endHold s c = s := by simp [endHold, hw]
  unfold complete
  simp only [he]
  rw [if_neg (by simp [hr]), if_neg (by simp [hp]), CoreSt.slots_nil _ _ hl, CoreSt.writeBack_nil]
  exact hl

/-- Control passes to `p`. -/
theorem complete_jump (c : Who) (len n p : Nat) (s : State) (hr : (s.getCore c).run = true)
    (hl : (s.getCore c).loads = []) (hw : (s.getCore c).hwSince = none) :
    complete c len n (some p) s = s.setCore c { s.getCore c with pc := p % 2 ^ 24 } := by
  have he : endHold s c = s := by simp [endHold, hw]
  unfold complete
  simp only [he]
  rw [if_neg (by simp [hr]), CoreSt.slots_nil _ _ hl, CoreSt.writeBack_nil]
  exact hl

/-! ### The issue of an instruction -/

namespace CoreSt
variable (k : CoreSt)

/-- A fetch that the cache serves changes the order of its set, and nothing else. -/
theorem useLine_eq (a : Nat) : k.useLine a = { k with icache := (k.useLine a).icache } := by
  unfold useLine; split <;> rfl

/-- The issue of an instruction changes the order of the instruction cache and the point, and nothing else. -/
theorem issue_eq (a n : Nat) : k.issue a n = { k with noPoint := false, icache := (k.issue a n).icache } := by
  unfold issue
  split
  · rfl
  · rw [useLine_eq, useLine_eq k a]

@[simp] theorem issue_run (a n : Nat) : (k.issue a n).run = k.run := by rw [issue_eq]
@[simp] theorem issue_stat (a n : Nat) : (k.issue a n).stat = k.stat := by rw [issue_eq]
@[simp] theorem issue_rp (a n : Nat) : (k.issue a n).rp = k.rp := by rw [issue_eq]; rfl
@[simp] theorem issue_pc (a n : Nat) : (k.issue a n).pc = k.pc := by rw [issue_eq]
@[simp] theorem issue_bk (a n : Nat) : (k.issue a n).bk = k.bk := by rw [issue_eq]
@[simp] theorem issue_banks (a n : Nat) : (k.issue a n).banks = k.banks := by rw [issue_eq]
@[simp] theorem issue_loads (a n : Nat) : (k.issue a n).loads = k.loads := by rw [issue_eq]
@[simp] theorem issue_hwSince (a n : Nat) : (k.issue a n).hwSince = k.hwSince := by rw [issue_eq]
@[simp] theorem issue_wait (a n : Nat) : (k.issue a n).wait = k.wait := by rw [issue_eq]
@[simp] theorem issue_reg (a n m : Nat) : (k.issue a n).reg m = k.reg m := by rw [issue_eq]; rfl
@[simp] theorem issue_noPoint (a n : Nat) : (k.issue a n).noPoint = false := by rw [issue_eq]

end CoreSt

/-- An instruction that runs: what it answers is what its body leads to. -/
theorem felStep_runs (e : Exe) (len : Nat) (core : Bool) (body : State → FelOut) (s : State) (h : Runs s e len)
    (hc : core = true → OnCore e) :
    felStep e len core body s = .next
      (match body (bodyState s e len) with
      | .done t => complete e.who len 0 none t
      | .jump t p => complete e.who len 0 (some p) t
      | .trap t v fa => takeTrap e.who v (s.getCore e.who).pc fa s t e.tbl
      | .trapNext t v => takeTrap e.who v (((s.getCore e.who).pc + len) % 2 ^ 24) 0 s t e.tbl
      | .hold => s.setCore e.who { s.getCore e.who with hwSince := some s.dtC }
      | .stay => s
      | .stall => s.setCore e.who { s.getCore e.who with noPoint := true }
      | .await t => t) := by
  obtain ⟨h1, h2, h7, h3, h4, h5, h6⟩ := h
  have hb : (core = true ∧ e.who = .lamp) = False := by
    apply propext; constructor
    · intro ⟨ha, hb⟩; exact hc ha hb
    · exact False.elim
  generalize hk : s.getCore e.who = k at *
  have hn : k.loads.length = 0 := by simp [h4]
  have hh : k.hwSince.getD s.dtC = s.dtC := by simp [h5]
  have hp : (e.par = true ∧ e.who ≠ .lamp) = False := by simp [h2]
  have hq : (e.parB = true ∧ e.who = .a ∧ (! s.unhitched) = true) = False := by simp [h7]
  unfold felStep runBody
  simp only [bodyState, State.issued, hk, h1, h3, h6, hn, hh, hb, hp, hq, Bool.not_true, Bool.false_eq_true, or_self, if_false]
  all_goals
    generalize body (s.setCore e.who _) = o
    cases o <;> rfl

/-- An exception with no load under way. -/
theorem takeTrap_nil (c : Who) (v xpc : Nat) (fa : Word) (before after : State) (up : Nat)
    (hb : (before.getCore c).loads = []) (hl : (after.getCore c).loads = []) (hw : (after.getCore c).hwSince = none) :
    takeTrap c v xpc fa before after up = after.enter c true v xpc fa up := by
  have he : endHold after c = after := by simp [endHold, hw]
  have hd : (before.getCore c).dataOut = false := by simp [CoreSt.dataOut, hb]
  unfold takeTrap
  simp only [he, hd, CoreSt.settle_nil _ hl]
  simp

/-- An instruction whose body changes the processor only, and leaves it running. -/
theorem felStep_retire (e : Exe) (len : Nat) (core : Bool) (body : State → FelOut) (f : CoreSt → CoreSt) (s : State)
    (h : Runs s e len) (hc : core = true → OnCore e)
    (hb : body (bodyState s e len) = .done ((bodyState s e len).setCore e.who (f (s.issued e len))))
    (hrun : (f (s.issued e len)).run = (s.getCore e.who).run)
    (hrp : (f (s.issued e len)).rp = (s.getCore e.who).rp)
    (hpc : (f (s.issued e len)).pc = (s.getCore e.who).pc)
    (hl : (f (s.issued e len)).loads = (s.getCore e.who).loads)
    (hw : (f (s.issued e len)).hwSince = (s.getCore e.who).hwSince) :
    felStep e len core body s = .next (s.retire e len f) := by
  rw [felStep_runs e len core body s h hc, hb]
  obtain ⟨h1, h2, h7, h3, h4, h5, h6⟩ := h
  have hr : (s.getCore e.who).run = true := by
    unfold felReady at h1
    simp only [Bool.and_eq_true] at h1
    exact h1.1.1.1.1.1.1.1
  simp only
  rw [complete_next]
  · simp [State.retire, hpc]
  · simpa [hrun] using hr
  · simpa [hrp] using h3
  · simpa [hl] using h4
  · simpa [hw] using h5

/-- An instruction that takes an exception, having changed nothing. -/
theorem felStep_except (e : Exe) (len : Nat) (core : Bool) (body : State → FelOut) (s : State) (v : Nat) (fa : Word)
    (h : Runs s e len) (hc : core = true → OnCore e) (hb : body (bodyState s e len) = .trap (bodyState s e len) v fa) :
    felStep e len core body s = .next (s.except e len v (s.getCore e.who).pc fa) := by
  rw [felStep_runs e len core body s h hc, hb]
  obtain ⟨h1, h2, h7, h3, h4, h5, h6⟩ := h
  simp only
  rw [takeTrap_nil _ _ _ _ _ _ _ h4 (by simpa using h4) (by simpa using h5)]
  rfl

end Sys2Proof.Machine
end

