-- ==== Sys2Proof/Laws/Hidden.lean ====
section
/-!
SUPPORT. Laws of the records that stand beside the registers: what each reads after a write of it, that a write of one entry
leaves the others, and that registers and the bytes of the yards stay.
-/
namespace Sys2Proof.Machine
namespace State

variable (s : State)

@[simp] theorem getTrk_setTrk (n : Nat) (h : TrkHid) : (s.setTrk n h).getTrk n = h := Sparse.get_set_self _ _ _ _
theorem getTrk_setTrk_ne (n m : Nat) (h : TrkHid) (e : m ≠ n) : (s.setTrk n h).getTrk m = s.getTrk m :=
  Sparse.get_set_ne _ _ _ _ _ e
@[simp] theorem setTrk_rd (n : Nat) (h : TrkHid) (a : Nat) : (s.setTrk n h).rd a = s.rd a := rfl
@[simp] theorem setTrk_byteAt (n : Nat) (h : TrkHid) (a : Nat) : (s.setTrk n h).byteAt a = s.byteAt a := rfl

@[simp] theorem getTt_setTt (n : Nat) (h : TtHid) : (s.setTt n h).getTt n = h := Sparse.get_set_self _ _ _ _
theorem getTt_setTt_ne (n m : Nat) (h : TtHid) (e : m ≠ n) : (s.setTt n h).getTt m = s.getTt m :=
  Sparse.get_set_ne _ _ _ _ _ e
@[simp] theorem setTt_rd (n : Nat) (h : TtHid) (a : Nat) : (s.setTt n h).rd a = s.rd a := rfl
@[simp] theorem setTt_byteAt (n : Nat) (h : TtHid) (a : Nat) : (s.setTt n h).byteAt a = s.byteAt a := rfl

@[simp] theorem getSn_setSn (n : Nat) (h : SnHid) : (s.setSn n h).getSn n = h := Sparse.get_set_self _ _ _ _
theorem getSn_setSn_ne (n m : Nat) (h : SnHid) (e : m ≠ n) : (s.setSn n h).getSn m = s.getSn m :=
  Sparse.get_set_ne _ _ _ _ _ e
@[simp] theorem setSn_rd (n : Nat) (h : SnHid) (a : Nat) : (s.setSn n h).rd a = s.rd a := rfl
@[simp] theorem setSn_byteAt (n : Nat) (h : SnHid) (a : Nat) : (s.setSn n h).byteAt a = s.byteAt a := rfl

@[simp] theorem getPu_setPu (n : Nat) (h : PuHid) : (s.setPu n h).getPu n = h := Sparse.get_set_self _ _ _ _
theorem getPu_setPu_ne (n m : Nat) (h : PuHid) (e : m ≠ n) : (s.setPu n h).getPu m = s.getPu m :=
  Sparse.get_set_ne _ _ _ _ _ e
@[simp] theorem setPu_rd (n : Nat) (h : PuHid) (a : Nat) : (s.setPu n h).rd a = s.rd a := rfl
@[simp] theorem setPu_byteAt (n : Nat) (h : PuHid) (a : Nat) : (s.setPu n h).byteAt a = s.byteAt a := rfl

@[simp] theorem getCw_setCw (n : Nat) (h : CmpHid) : (s.setCw n h).getCw n = h := Sparse.get_set_self _ _ _ _
theorem getCw_setCw_ne (n m : Nat) (h : CmpHid) (e : m ≠ n) : (s.setCw n h).getCw m = s.getCw m :=
  Sparse.get_set_ne _ _ _ _ _ e
@[simp] theorem setCw_rd (n : Nat) (h : CmpHid) (a : Nat) : (s.setCw n h).rd a = s.rd a := rfl
@[simp] theorem setCw_byteAt (n : Nat) (h : CmpHid) (a : Nat) : (s.setCw n h).byteAt a = s.byteAt a := rfl

@[simp] theorem getDw_setDw (n : Nat) (h : CmpHid) : (s.setDw n h).getDw n = h := Sparse.get_set_self _ _ _ _
theorem getDw_setDw_ne (n m : Nat) (h : CmpHid) (e : m ≠ n) : (s.setDw n h).getDw m = s.getDw m :=
  Sparse.get_set_ne _ _ _ _ _ e
@[simp] theorem setDw_rd (n : Nat) (h : CmpHid) (a : Nat) : (s.setDw n h).rd a = s.rd a := rfl
@[simp] theorem setDw_byteAt (n : Nat) (h : CmpHid) (a : Nat) : (s.setDw n h).byteAt a = s.byteAt a := rfl

@[simp] theorem getSs_setSs (n : Nat) (h : SsHid) : (s.setSs n h).getSs n = h := Sparse.get_set_self _ _ _ _
theorem getSs_setSs_ne (n m : Nat) (h : SsHid) (e : m ≠ n) : (s.setSs n h).getSs m = s.getSs m :=
  Sparse.get_set_ne _ _ _ _ _ e
@[simp] theorem setSs_rd (n : Nat) (h : SsHid) (a : Nat) : (s.setSs n h).rd a = s.rd a := rfl
@[simp] theorem setSs_byteAt (n : Nat) (h : SsHid) (a : Nat) : (s.setSs n h).byteAt a = s.byteAt a := rfl

@[simp] theorem getTc_setTc (n : Nat) (h : TcHid) : (s.setTc n h).getTc n = h := Sparse.get_set_self _ _ _ _
theorem getTc_setTc_ne (n m : Nat) (h : TcHid) (e : m ≠ n) : (s.setTc n h).getTc m = s.getTc m :=
  Sparse.get_set_ne _ _ _ _ _ e
@[simp] theorem setTc_rd (n : Nat) (h : TcHid) (a : Nat) : (s.setTc n h).rd a = s.rd a := rfl
@[simp] theorem setTc_byteAt (n : Nat) (h : TcHid) (a : Nat) : (s.setTc n h).byteAt a = s.byteAt a := rfl

@[simp] theorem getNotice_setNotice (n : Nat) (h : Notice) : (s.setNotice n h).getNotice n = h := Sparse.get_set_self _ _ _ _
theorem getNotice_setNotice_ne (n m : Nat) (h : Notice) (e : m ≠ n) : (s.setNotice n h).getNotice m = s.getNotice m :=
  Sparse.get_set_ne _ _ _ _ _ e
@[simp] theorem setNotice_rd (n : Nat) (h : Notice) (a : Nat) : (s.setNotice n h).rd a = s.rd a := rfl
@[simp] theorem setNotice_byteAt (n : Nat) (h : Notice) (a : Nat) : (s.setNotice n h).byteAt a = s.byteAt a := rfl

@[simp] theorem getGather_setGather (n : Nat) (h : Option Gather) : (s.setGather n h).getGather n = h := Sparse.get_set_self _ _ _ _
theorem getGather_setGather_ne (n m : Nat) (h : Option Gather) (e : m ≠ n) : (s.setGather n h).getGather m = s.getGather m :=
  Sparse.get_set_ne _ _ _ _ _ e
@[simp] theorem setGather_rd (n : Nat) (h : Option Gather) (a : Nat) : (s.setGather n h).rd a = s.rd a := rfl
@[simp] theorem setGather_byteAt (n : Nat) (h : Option Gather) (a : Nat) : (s.setGather n h).byteAt a = s.byteAt a := rfl

@[simp] theorem getBog_setBog (n : Nat) (h : BogHid) : (s.setBog n h).getBog n = h := Sparse.get_set_self _ _ _ _
theorem getBog_setBog_ne (n m : Nat) (h : BogHid) (e : m ≠ n) : (s.setBog n h).getBog m = s.getBog m :=
  Sparse.get_set_ne _ _ _ _ _ e
@[simp] theorem setBog_rd (n : Nat) (h : BogHid) (a : Nat) : (s.setBog n h).rd a = s.rd a := rfl
@[simp] theorem setBog_byteAt (n : Nat) (h : BogHid) (a : Nat) : (s.setBog n h).byteAt a = s.byteAt a := rfl

@[simp] theorem getCh_setCh (n : Nat) (h : ChHid) : (s.setCh n h).getCh n = h := Sparse.get_set_self _ _ _ _
theorem getCh_setCh_ne (n m : Nat) (h : ChHid) (e : m ≠ n) : (s.setCh n h).getCh m = s.getCh m :=
  Sparse.get_set_ne _ _ _ _ _ e
@[simp] theorem setCh_rd (n : Nat) (h : ChHid) (a : Nat) : (s.setCh n h).rd a = s.rd a := rfl
@[simp] theorem setCh_byteAt (n : Nat) (h : ChHid) (a : Nat) : (s.setCh n h).byteAt a = s.byteAt a := rfl

@[simp] theorem getMap_setMap (n : Nat) (h : MapHid) : (s.setMap n h).getMap n = h := Sparse.get_set_self _ _ _ _
theorem getMap_setMap_ne (n m : Nat) (h : MapHid) (e : m ≠ n) : (s.setMap n h).getMap m = s.getMap m :=
  Sparse.get_set_ne _ _ _ _ _ e
@[simp] theorem setMap_rd (n : Nat) (h : MapHid) (a : Nat) : (s.setMap n h).rd a = s.rd a := rfl
@[simp] theorem setMap_byteAt (n : Nat) (h : MapHid) (a : Nat) : (s.setMap n h).byteAt a = s.byteAt a := rfl

@[simp] theorem getLine_setLine (n : Nat) (h : Option CacheLine) : (s.setLine n h).getLine n = h := Sparse.get_set_self _ _ _ _
theorem getLine_setLine_ne (n m : Nat) (h : Option CacheLine) (e : m ≠ n) : (s.setLine n h).getLine m = s.getLine m :=
  Sparse.get_set_ne _ _ _ _ _ e
@[simp] theorem setLine_rd (n : Nat) (h : Option CacheLine) (a : Nat) : (s.setLine n h).rd a = s.rd a := rfl
@[simp] theorem setLine_byteAt (n : Nat) (h : Option CacheLine) (a : Nat) : (s.setLine n h).byteAt a = s.byteAt a := rfl

@[simp] theorem getCap_setCap (n : Nat) (h : Option Cap) : (s.setCap n h).getCap n = h := Sparse.get_set_self _ _ _ _
theorem getCap_setCap_ne (n m : Nat) (h : Option Cap) (e : m ≠ n) : (s.setCap n h).getCap m = s.getCap m :=
  Sparse.get_set_ne _ _ _ _ _ e
@[simp] theorem setCap_rd (n : Nat) (h : Option Cap) (a : Nat) : (s.setCap n h).rd a = s.rd a := rfl
@[simp] theorem setCap_byteAt (n : Nat) (h : Option Cap) (a : Nat) : (s.setCap n h).byteAt a = s.byteAt a := rfl

/-! ### Faults and links leave registers and records alone -/

@[simp] theorem raiseC_rd (id inst a : Nat) : (s.raiseC id inst).rd a = s.rd a := rfl
@[simp] theorem raiseC_byteAt (id inst a : Nat) : (s.raiseC id inst).byteAt a = s.byteAt a := rfl
@[simp] theorem sendC_rd (m : LinkMsg) (a : Nat) : (s.sendC m).rd a = s.rd a := by unfold sendC; split <;> rfl
@[simp] theorem sendF_rd (m : LinkMsg) (a : Nat) : (s.sendF m).rd a = s.rd a := by unfold sendF; split <;> rfl
@[simp] theorem sendC_byteAt (m : LinkMsg) (a : Nat) : (s.sendC m).byteAt a = s.byteAt a := by unfold sendC; split <;> rfl
@[simp] theorem sendF_byteAt (m : LinkMsg) (a : Nat) : (s.sendF m).byteAt a = s.byteAt a := by unfold sendF; split <;> rfl

/-- A fault of the field die changes no register but LN_STAT, whose FQOVF tells of one that could not be kept (R443). -/
theorem raiseF_rd (id inst a : Nat) (h : a ≠ A.LN_STAT) : (s.raiseF id inst).rd a = s.rd a := by
  unfold raiseF; split
  · exact sendC_rd _ _ _
  · split
    · rfl
    · exact rd_setFlag s _ _ _ a ▸ if_neg h

/-! ### Nothing due, nothing changed -/

/-- With no timetable action due on the field die, a command finds the state as it was (R76). -/
theorem ttFirst_idle (h : s.ttExec.filter (fun x => x.field && s.ttDue x) = []) : s.ttFirst = s := by
  unfold ttFirst; cases s.ttExec.length with
  | zero => rfl
  | succ n => simp [ttFirstN, h]

/-- An access that meets no window under test waits for none (R334). -/
theorem ydMeet_idle (m a : Nat) (h : s.ydMeets a = false) : s.ydMeet m a = s := by simp [ydMeet, h]

/-- The owner group's access to a yard that is not in a handover goes on at once (R326). -/
theorem ydEnter_owner (m a : Nat) (hh : s.handOf (a / 0x40000) = none)
    (ho : s.ydOwner (a / 0x40000) = s.groupOf m) : s.ydEnter m a = (s.ydMeet m a, true) := by
  simp [ydEnter, hh, ho]

end State
end Sys2Proof.Machine
end

