-- ==== Sys2Proof/Laws/Memory.lean ====
section
/-!
SUPPORT. Laws of the memories: every operation that writes a store keeps the canonical form of all of them, the stores of the
reset state have it, and what a byte reads after a store.
-/
namespace Sys2Proof.Machine

/-! ### Bytes -/

/-- A store of bytes keeps the canonical form. -/
theorem storeBytes_wf (m : Sparse Byte) (a : Nat) (bs : List Byte) (h : Memory.wf m = true) :
    Memory.wf (storeBytes m a bs) = true := by
  induction bs generalizing m a with
  | nil => exact h
  | cons b bs ih => exact ih _ _ (Sparse.wf_set _ m a b h)

/-- A byte outside those stored reads as before. -/
theorem storeBytes_get_out (m : Sparse Byte) (a : Nat) (bs : List Byte) (k : Nat) (h : k < a ∨ a + bs.length ≤ k) :
    Sparse.get (fun _ => 0) (storeBytes m a bs) k = Sparse.get (fun _ => 0) m k := by
  induction bs generalizing m a with
  | nil => rfl
  | cons b bs ih =>
    simp only [List.length_cons] at h
    rw [storeBytes, ih _ _ (by omega), Sparse.get_set_ne _ _ _ _ _ (by omega)]

/-- Byte `i` of those stored reads what was stored. -/
theorem storeBytes_get_in (m : Sparse Byte) (a : Nat) (bs : List Byte) (i : Nat) (h : i < bs.length) :
    Sparse.get (fun _ => 0) (storeBytes m a bs) (a + i) = bs[i] := by
  induction bs generalizing m a i with
  | nil => simp at h
  | cons b bs ih =>
    cases i with
    | zero => rw [storeBytes, storeBytes_get_out _ _ _ _ (by omega)]; simp
    | succ i =>
      rw [storeBytes, show a + (i + 1) = a + 1 + i by omega]
      exact ih _ _ i (by simpa using h)

namespace State

/-! ### The canonical form -/

/-- The canonical form is a property of the stores alone. -/
theorem Canon.congr {s t : State} (h : s.Canon) (h1 : t.regs = s.regs) (h2 : t.ram = s.ram) (h3 : t.lram = s.lram)
    (h4 : t.hostMem = s.hostMem) (h5 : t.farMem = s.farMem) (h6 : t.pm = s.pm) (h7 : t.lpm = s.lpm)
    (h8 : t.poison = s.poison) (h9 : t.pmBad = s.pmBad) : t.Canon := by
  simpa only [Canon, h1, h2, h3, h4, h5, h6, h7, h8, h9] using h

/-- The stores of the reset state have the canonical form. -/
theorem reset_canon : State.reset.Canon := ⟨rfl, rfl, rfl, rfl, rfl, rfl, rfl, rfl, rfl⟩

variable {s : State}

/-- Canonical stores in place of the yards' and the poison marks. -/
theorem Canon.putRam (r : Memory) (p : Sparse Bool) (h : s.Canon) (hr : Memory.wf r = true)
    (hp : Sparse.wf (fun _ => false) p = true) : ({ s with ram := r, poison := p } : State).Canon := by
  obtain ⟨h1, -, h3, h4, h5, h6, h7, -, h9⟩ := h
  exact ⟨h1, hr, h3, h4, h5, h6, h7, hp, h9⟩

/-- Canonical stores in place of program memory and its marks. -/
theorem Canon.putPm (r : Sparse Syl) (p : Sparse Bool) (h : s.Canon) (hr : Sparse.wf (fun _ => 0) r = true)
    (hp : Sparse.wf (fun _ => false) p = true) : ({ s with pm := r, pmBad := p } : State).Canon := by
  obtain ⟨h1, h2, h3, h4, h5, -, h7, h8, -⟩ := h
  exact ⟨h1, h2, h3, h4, h5, hr, h7, h8, hp⟩

theorem wr_canon (a : Nat) (v : Word) (h : s.Canon) : (s.wr a v).Canon :=
  ⟨Sparse.wf_set _ _ _ _ h.1, h.2⟩
theorem setFld_canon (a hi lo v : Nat) (h : s.Canon) : (s.setFld a hi lo v).Canon := wr_canon _ _ h
theorem setFlag_canon (a b : Nat) (v : Bool) (h : s.Canon) : (s.setFlag a b v).Canon := wr_canon _ _ h
theorem satAdd_canon (a hi lo n : Nat) (h : s.Canon) : (s.satAdd a hi lo n).Canon := wr_canon _ _ h
theorem wr64_canon (aL aH v : Nat) (h : s.Canon) : (s.wr64 aL aH v).Canon := wr_canon _ _ (wr_canon _ _ h)
theorem plainWrite_canon (a : Nat) (v ev clr : Word) (h : s.Canon) : (s.plainWrite a v ev clr).Canon := wr_canon _ _ h
theorem resetRegs_canon (p : Nat → Bool) (h : s.Canon) : (s.resetRegs p).Canon :=
  ⟨Sparse.wf_drop _ _ _ h.1, h.2⟩
theorem fresh_canon (h : s.Canon) : s.fresh.2.Canon := h
theorem raiseC_canon (id inst : Nat) (h : s.Canon) : (s.raiseC id inst).Canon := h
theorem setCore_canon (c : Who) (k : CoreSt) (h : s.Canon) : (s.setCore c k).Canon := by
  unfold setCore
  repeat' split
  all_goals exact h

theorem raiseVec_canon (v : Nat) (h : s.Canon) : (s.raiseVec v).Canon := by
  unfold raiseVec
  repeat' split
  all_goals exact h

theorem setActive_canon (id inst : Nat) (b : Bool) (h : s.Canon) : (s.setActive id inst b).Canon :=
  setFlag_canon _ _ _ (s := { s with active := _ }) h

theorem ydCause_canon (b : Nat) (h : s.Canon) : (s.ydCause b).Canon := by
  unfold ydCause
  dsimp only
  split
  · exact raiseVec_canon _ (setFlag_canon _ _ _ h)
  · exact setFlag_canon _ _ _ h

theorem clearResv_canon (p : Nat → Bool) (h : s.Canon) : (s.clearResv p).Canon := h
theorem touch_canon (a n : Nat) (h : s.Canon) : (s.touch a n).Canon := h

theorem nonOwner_canon (m n : Nat) (w : Bool) (a : Nat) (h : s.Canon) : (s.nonOwner m n w a).Canon := by
  unfold nonOwner
  dsimp only
  refine ydCause_canon _ ?_
  split
  · exact satAdd_canon _ _ _ _ h
  · exact wr_canon _ _ (wr_canon _ _ (satAdd_canon _ _ _ _ h))

/-! ### Yards, the NV yard and program memory -/

/-- A store to a yard. -/
theorem storeYard_canon (a : Nat) (bs : List Byte) (h : s.Canon) : (s.storeYard a bs).Canon := by
  unfold storeYard
  refine touch_canon _ _ (Canon.putRam _ _ h (storeBytes_wf _ _ _ h.2.1) ?_)
  exact Sparse.wf_drop _ _ _ h.2.2.2.2.2.2.2.1

theorem ssShow_canon (h : s.Canon) : s.ssShow.Canon := by
  unfold ssShow; split
  · exact setFlag_canon _ _ _ h
  · exact h

/-- The end of a handover, which may zero its yard. -/
theorem endHandover_canon (n : Nat) (o : Handover) (h : s.Canon) : (s.endHandover n o).Canon := by
  unfold endHandover
  refine ydCause_canon _ (ssShow_canon (wr_canon _ _ ?_))
  have hc := clearResv_canon (fun g => decide (n * 0x40000 ≤ g * 64 ∧ g * 64 < (n + 1) * 0x40000)) h
  dsimp only
  generalize s.clearResv _ = t at hc ⊢
  split
  · have hz := Canon.putRam (Sparse.drop (fun a => decide (n * 0x40000 ≤ a ∧ a < (n + 1) * 0x40000)) t.ram)
      (Sparse.drop (fun k => decide (n * 0x40000 ≤ 4 * k ∧ 4 * k < (n + 1) * 0x40000)) t.poison) hc (Sparse.wf_drop _ _ _ hc.2.1) (Sparse.wf_drop _ _ _ hc.2.2.2.2.2.2.2.1)
    exact hz
  · exact hc

/-- An access meets the window under test. -/
theorem ydMeet_canon (m a : Nat) (h : s.Canon) : (s.ydMeet m a).Canon := by
  unfold ydMeet
  split
  · exact satAdd_canon _ _ _ _ h
  · exact h

/-- An access comes to a yard. -/
theorem ydEnter_canon (m a : Nat) (h : s.Canon) : (s.ydEnter m a).1.Canon := by
  unfold ydEnter
  dsimp only
  split
  · split
    · exact ydMeet_canon _ _ (satAdd_canon _ _ _ _ (endHandover_canon _ _ h))
    · exact h
  · split
    · exact ydMeet_canon _ _ h
    · exact h

/-- A read checked by ECC, which may mark halves poisoned. -/
theorem eccRead_canon (y a n up : Nat) (h : s.Canon) : (s.eccRead y a n up).1.Canon := by
  unfold eccRead
  dsimp only
  split
  · refine ydCause_canon _ (raiseC_canon _ _ (satAdd_canon _ _ _ _ ?_))
    exact Canon.putRam _ _ h h.2.1
      (Sparse.wf_foldl _ _ _ _ (fun _ _ hm => Sparse.wf_set _ _ _ _ (Sparse.wf_set _ _ _ _ hm)) h.2.2.2.2.2.2.2.1)
  · split
    · exact ydCause_canon _ (satAdd_canon _ _ _ _ h)
    · exact h

/-- The yards lose their contents. -/
theorem loseYards_canon (h : s.Canon) : (loseYards s).Canon :=
  Canon.putRam _ _ h (Sparse.wf_drop _ _ _ h.2.1) (Sparse.wf_drop _ _ _ h.2.2.2.2.2.2.2.1)

/-- A block's count reaches its threshold. -/
theorem wearOut_canon (inst : Nat) (h : s.Canon) : (wearOut inst s).Canon :=
  ydCause_canon _ (raiseC_canon _ _ (setFlag_canon _ _ _ h))

/-- A line write counts as wear. -/
theorem wear_canon (inst blk : Nat) (h : s.Canon) : (wear inst blk s).Canon := by
  unfold wear
  dsimp only
  repeat' split
  all_goals
    first
    | exact wearOut_canon _ (setFld_canon _ _ _ _ (wr_canon _ _ h))
    | exact setFld_canon _ _ _ _ (wr_canon _ _ h)
    | exact wearOut_canon _ h
    | exact h

theorem scCause_canon (b : Nat) (h : s.Canon) : (s.scCause b).Canon := by
  unfold scCause
  dsimp only
  split
  · exact raiseVec_canon _ (setFlag_canon _ _ _ h)
  · exact setFlag_canon _ _ _ h

/-- An identity index has been written. -/
theorem idWritten_canon (n : Nat) (h : s.Canon) : (idWritten n s).Canon := by
  have h1 : ∀ x : SecHid, ({ s with sc := x } : State).Canon := fun _ => h
  unfold idWritten
  dsimp only
  split
  · exact scCause_canon _ (wr_canon _ _ (h1 _))
  · exact wr_canon _ _ (h1 _)

/-- A line write of the NV yard reaches the array. -/
theorem nvCommit_canon (e : NvEntry) (h : s.Canon) : (nvCommit e s).Canon := by
  have hw : ∀ i b, (wear i b { s with ram := e.bytes.foldl (fun r x => Sparse.set (fun _ => 0) r x.1 x.2) s.ram, poison := Sparse.drop (fun k => (List.range 4).all (fun i => e.bytes.any (fun b => b.1 == 4 * k + i))) s.poison }).Canon :=
    fun i b => wear_canon i b (Canon.putRam _ _ h (Sparse.wf_foldl _ _ _ _ (fun _ _ hm => Sparse.wf_set _ _ _ _ hm) h.2.1)
      (Sparse.wf_drop _ _ _ h.2.2.2.2.2.2.2.1))
  unfold nvCommit
  dsimp only
  split
  · exact idWritten_canon _ (hw _ _)
  · exact hw _ _

/-- A line of program memory is written. -/
theorem pmWriteLine_canon (l : Nat) (ds : List Syl) (h : s.Canon) : (pmWriteLine l ds s).Canon :=
  wear_canon _ _ (Canon.putPm _ _ h
    (Sparse.wf_foldl _ _ _ _ (fun _ _ hm => Sparse.wf_set _ _ _ _ hm) h.2.2.2.2.2.1)
    (Sparse.wf_set _ _ _ _ h.2.2.2.2.2.2.2.2))

/-- A line of program memory cannot be corrected. -/
theorem pmEcc2_canon (l : Nat) (h : s.Canon) : (pmEcc2 l s).Canon :=
  raiseC_canon _ _ (wr_canon _ _ (setFlag_canon _ _ _
    (Canon.putPm _ _ h h.2.2.2.2.2.1 (Sparse.wf_set _ _ _ _ h.2.2.2.2.2.2.2.2))))

/-- A syllable of the lamplighter's program memory is written. -/
theorem writePgData_canon (v : Word) (h : s.Canon) : (writePgData v s).Canon := by
  unfold writePgData
  split
  · exact setFlag_canon _ _ _ h
  · obtain ⟨h1, h2, h3, h4, h5, h6, h7, h8, h9⟩ := h
    exact setFld_canon _ _ _ _ ⟨h1, h2, h3, h4, h5, h6, by exact Sparse.wf_set _ _ _ _ h7, h8, h9⟩

/-! ### Memories outside the device -/

/-- A byte of far memory is written. -/
theorem farPut_canon (off : Nat) (b : Byte) (h : s.Canon) : (farPut off b s).Canon := by
  obtain ⟨h1, h2, h3, h4, h5, h6, h7, h8, h9⟩ := h
  exact ⟨h1, h2, h3, h4, by exact Sparse.wf_set _ _ _ _ h5, h6, h7, h8, h9⟩

/-- A posted write to host memory. -/
theorem hostWr_canon (a : Nat) (bs : List Byte) (h : s.Canon) : (s.hostWr a bs).Canon := by
  unfold hostWr
  split
  · obtain ⟨h1, h2, h3, h4, h5, h6, h7, h8, h9⟩ := h
    exact ⟨h1, h2, h3, storeBytes_wf _ _ _ h4, h5, h6, h7, h8, h9⟩
  · exact h

/-- What keeps the form for each member of a list keeps it for the list. -/
theorem forEach_canon {α : Type} (l : List α) (f : α → State → State) (hf : ∀ a t, t.Canon → (f a t).Canon) {s : State}
    (h : s.Canon) : (forEach l f s).Canon := by
  induction l generalizing s with
  | nil => exact h
  | cons a l ih => exact ih (hf a s h)

/-- What keeps the form for each number keeps it for all of them. -/
theorem forUpTo_canon (n : Nat) (f : Nat → State → State) (hf : ∀ a t, t.Canon → (f a t).Canon) {s : State} (h : s.Canon) :
    (forUpTo n f s).Canon := forEach_canon (List.range n) f hf h

/-- A message leaves. -/
theorem msiSend_canon (v : Nat) (h : s.Canon) : (s.msiSend v).Canon := by
  obtain ⟨h1, h2, h3, h4, h5, h6, h7, h8, h9⟩ := h
  exact ⟨h1, h2, h3, h4, h5, h6, h7, h8, h9⟩

/-- The mask bit of an MSI-X vector is written. -/
theorem msixMask_canon (v : Nat) (b : Bool) (h : s.Canon) : (msixMask v b s).Canon := by
  unfold msixMask
  dsimp only
  split
  · exact msiSend_canon _ (setFlag_canon _ _ _ (setFlag_canon _ _ _ h))
  · exact setFlag_canon _ _ _ h

/-- The pending messages that may be sent are sent. -/
theorem msixFlush_canon (h : s.Canon) : (msixFlush s).Canon := by
  unfold msixFlush
  refine forUpTo_canon _ _ (fun v t ht => ?_) h
  split
  · exact ht
  · exact msixMask_canon _ _ ht

/-- Posted writes that waited are made. -/
theorem flushPosts_canon (h : s.Canon) : (flushPosts s).Canon := by
  obtain ⟨h1, h2, h3, h4, h5, h6, h7, h8, h9⟩ := h
  exact msixFlush_canon ⟨h1, h2, h3, Sparse.wf_foldl _ _ _ _ (fun _ _ hm => storeBytes_wf _ _ _ hm) h4, h5, h6, h7, h8, h9⟩

/-- A power-on reset: what it keeps of the stores, it keeps in canonical form. -/
theorem porReset_canon (h : s.Canon) : (s.porReset).Canon := by
  unfold porReset
  dsimp only
  have hk : ∀ t : State, t.Canon → Sparse.wf regReset (t.regs.filter (fun e => e.1 == A.YD_NVWEARMAX || e.1 == A.PM_WEARMAX)) = true
      ∧ Memory.wf (Sparse.drop (fun a => decide (a < 0x01000000)) t.ram) = true
      ∧ Sparse.wf (fun _ => false) (Sparse.drop (fun h => decide (4 * h < 0x01000000)) t.poison) = true :=
    fun t h => ⟨Sparse.wfFrom_filter _ _ _ _ h.1, Sparse.wf_drop _ _ _ h.2.1, Sparse.wf_drop _ _ _ h.2.2.2.2.2.2.2.1⟩
  cases hn : s.mem.nvRun with
  | none =>
    obtain ⟨a1, a2, a3⟩ := hk _ (fresh_canon h)
    obtain ⟨-, -, -, h4, h5, h6, -, -, h9⟩ := h
    exact ⟨a1, a2, rfl, h4, h5, h6, rfl, a3, h9⟩
  | some e =>
    have hc : (if s.fresh.1.getLsbD 0 then nvCommit e.1 s.fresh.2 else s.fresh.2).Canon := by
      split
      · exact nvCommit_canon _ h
      · exact h
    obtain ⟨a1, a2, a3⟩ := hk _ hc
    obtain ⟨-, -, -, h4, h5, h6, -, -, h9⟩ := hc
    exact ⟨a1, a2, rfl, h4, h5, h6, rfl, a3, h9⟩

end State

/-! ### Transfers -/

/-- Those that wait behind a transfer carry what they carried. -/
@[simp] theorem pushBack_msg (t : Nat) (l : List Xfer) : (pushBack t l).map (·.msg) = l.map (·.msg) := by
  induction l generalizing t with
  | nil => rfl
  | cons y l ih => simp only [pushBack]; split <;> simp [ih]

/-- What a direction carries after a transfer is queued (R19): it stands behind what has started or goes first. -/
theorem enqueue_msg (now : Nat) (x : Xfer) (l : List Xfer) :
    let ahead := l.takeWhile (fun y => decide (y.start ≤ now) || decide (y.msg.cls ≤ x.msg.cls))
    (enqueue now x l).map (·.msg) = ahead.map (·.msg) ++ x.msg :: (l.drop ahead.length).map (·.msg) := by
  simp [enqueue]

/-- The next transfer of a direction, taken by a reader of its kind. -/
theorem Oldest.takeHead {β : Type} {l rest : List Xfer} {m : LinkMsg} (h : Oldest l m rest) (p : LinkMsg → Option β) {b : β}
    (hp : p m = some b) : Machine.takeHead p l = some (b, rest) := by
  obtain ⟨x, rfl, rfl⟩ := h
  simp [Machine.takeHead, hp]

end Sys2Proof.Machine
end

