-- ==== Sys2Proof/Tests/Slice0.lean ====
section
/-!
SUPPORT. The model's own tests: an ill-formed command for each check, words of the Felrad encoding, and for each statement
with hypotheses a state and operands that meet them, clause by clause, at the edges of their ranges.
-/
namespace Sys2Proof.Tests
-- one theorem after another: each evaluation by the kernel waits for the theorems before it
set_option Elab.async false
open Sys2Proof Sys2Proof.Machine

/-! ### Small states -/

/-- Core A, running at 0x1000, with the registers listed. -/
def coreOf (rs : List (Nat × Word)) (stat : Word := 0x1000) : CoreSt :=
  rs.foldl (fun k r => k.setReg r.1 r.2) { run := true, pc := 0x1000, stat := stat }

/-- The reset state with that core A. -/
def onA (rs : List (Nat × Word)) (stat : Word := 0x1000) : State := { State.reset with coreA := coreOf rs stat }

/-- The reset state with the registers listed. -/
def regsOf (l : List (Nat × Word)) (s : State := State.reset) : State := l.foldl (fun s r => s.wr r.1 r.2) s

/-- The state with the epoch of its coupler granted at its field die. -/
def authorised (s : State) : State := (s.wr A.FG_EPOCH 1).wr A.CPL_EPOCH 1

/-- The reset state with a running lamplighter. -/
def onLamp (rs : List (Nat × Word)) : State := { State.reset with lamp := coreOf rs }

/-- A start-up whose checks all pass. -/
def startOk : StartOut := ⟨false, true, true, true, true, false, 0, false, none⟩

def exA : Exe := { who := .a }
def exL : Exe := { who := .lamp }

/-- A command answers a next state of which `p` holds. -/
def then_ (c : Instr) (s : State) (p : State → Bool) : Bool :=
  match exec c s with | .next t => p t | _ => false

/-- Address `a` lies in a yard that the processor owns, with no handover under way. -/
def owned (s : State) (c : Who) (a : Nat) : Bool :=
  match regionOf c a with
  | .yard y => (s.handOf y).isNone && s.ydOwner y == s.groupOf (State.yardMaster c) && ! s.ydMeets a
  | _ => false

theorem owned_sound {s : State} {c : Who} {a : Nat} (h : owned s c a = true) : YardOwned s c a := by
  unfold owned at h
  split at h
  · rename_i y hy
    simp only [Bool.and_eq_true, Option.isNone_iff_eq_none, beq_iff_eq, Bool.not_eq_true'] at h
    exact ⟨y, hy, h.1.1, h.1.2, h.2⟩
  · cases h

/-- Every part of an access lies in a yard that the processor owns. -/
theorem parts_sound {s : State} {c : Who} {a n : Nat} (h : (accParts a n).all (fun p => owned s c p.1) = true) :
    ∀ p ∈ accParts a n, YardOwned s c p.1 := fun p hp => owned_sound (List.all_eq_true.1 h p hp)

/-! ### Well-formed commands -/

theorem test_wf_setup_address : (Instr.registerWrite .coreA 0x08000002 0 0 0).wf = false := by decide
theorem test_wf_even_register : (Instr.div exA 3 2).wf = false ∧ (Instr.div exA 2 3).wf = true := by decide
theorem test_wf_bank : (Instr.spill exA 5).wf = false ∧ (Instr.spill exA 4).wf = true := by decide
theorem test_wf_bank_sp : (Instr.mfb exA 1 2 0 true).wf = false ∧ (Instr.mfb exA 1 2 0 false).wf = true := by decide
theorem test_wf_condition : (Instr.bcc exA 15 0).wf = false := by decide
theorem test_wf_size : (Instr.ldd exA 1 3 0 0 0).wf = false ∧ (Instr.lddu exA 1 0 0 0 0).wf = false := by decide
theorem test_wf_fragment : (Instr.token 0 2 2 []).wf = false := by decide
theorem test_wf_count : (Instr.read 0 0 0).wf = false := by decide
theorem test_wf_host_size : (Instr.hostBar0Access 0 3 none).wf = false := by decide

/-! ### The machine as a whole -/

theorem test_meets_StepRunsFrontCommand : (State.reset.pushFront (.nop exA)).pending = .nop exA :: [] := by decide +kernel

theorem test_meets_IdleStepAdvancesDeviceTime :
    State.reset.pending = [] ∧ State.reset.rung = 0
    ∧ (let s := State.reset.setFld A.PW_STAT 31 29 1; s.pending = [] ∧ s.rung < 2)
    ∧ (let s := State.reset.setFld A.PW_STAT 31 29 2; s.pending = [] ∧ s.rung ≠ 5 ∧ 2 ≤ s.rung)
    ∧ (let s := State.reset.setFld A.PW_STAT 31 29 5; s.pending = [] ∧ s.rung = 5) := by decide +kernel

theorem test_meets_EveryCommandAnswersNext : ∃ t, exec (.nop exA) (onA []) = .next t := ⟨_, rfl⟩

theorem test_meets_StepKeepsCanonicalStores :
    State.reset.Canon ∧ ∃ t, step (State.reset.pushFront (.nop exA)) = .next t := ⟨State.reset_canon, _, rfl⟩

/-! ### Felrad: arithmetic -/

/-- Operands at the edges: no overflow under OVE, an overflow without it. -/
theorem test_meets_MoveAndArithmeticResults :
    Runs (onA [(1, 0x7FFFFFFE), (2, 1)] 0x1200) exA 1 ∧ Runs (onA [(1, 0x7FFFFFFE), (2, 1)] 0x1200) exA 2
    ∧ overflows ((0x7FFFFFFE : Word).toInt + (1 : Word).toInt) = false
    ∧ Runs (onA [(1, 0x7FFFFFFF), (2, 1)]) exA 1 ∧ overflows ((0x7FFFFFFF : Word).toInt + (1 : Word).toInt) = true
    ∧ then_ (.add exA 1 2) (onA [(1, 0x7FFFFFFF), (2, 1)]) (fun t => t.coreA.reg 1 == 0x80000000 && t.coreA.stat == 0x100A)
    ∧ then_ (.sbc exA 1 2) (onA [(1, 0), (2, 0)]) (fun t => t.coreA.reg 1 == 0xFFFFFFFF && t.coreA.stat == 0x1002)
    ∧ then_ (.cmp exA 1 2) (onA [(1, 5), (2, 5)]) (fun t => t.coreA.reg 1 == 5 && t.coreA.stat == 0x1005)
    ∧ then_ (.movi exA 3 0x3FFFF) (onA []) (fun t => t.coreA.reg 3 == 0xFFFFFFFF && t.coreA.pc == 0x1002) := by
  unfold Runs; dsimp only; and_intros <;> decide +kernel

/-- Shift amounts at every edge of R266's table, unary operands with and without OVE. -/
theorem test_meets_LogicShiftAndUnaryResults :
    Runs (onA [(1, 0xF0), (2, 0x3C)]) exA 2
    ∧ (∀ n ∈ ([0, 1, 31, 32, 33, 63] : List Nat), Runs (onA [(1, 0x80000001), (2, BitVec.ofNat 32 n)]) exA 1
        ∧ bitsOf ((onA [(1, 0x80000001), (2, BitVec.ofNat 32 n)]).coreA.reg 2) 5 0 = n)
    ∧ then_ (.shl exA 1 2) (onA [(1, 0x80000001), (2, 1)]) (fun t => t.coreA.reg 1 == 2 && bitOf t.coreA.stat 2)
    ∧ then_ (.shr exA 1 2) (onA [(1, 0x80000001), (2, 32)]) (fun t => t.coreA.reg 1 == 0 && bitOf t.coreA.stat 2)
    ∧ then_ (.shi exA 1 1 2 63) (onA [(1, 0x80000001)]) (fun t => t.coreA.reg 1 == 0xFFFFFFFF)
    ∧ then_ (.ror exA 1 2) (onA [(1, 1), (2, 33)]) (fun t => t.coreA.reg 1 == 0x80000000 && bitOf t.coreA.stat 2)
    ∧ Runs (onA [(1, 0x80000000)] 0x1200) exA 1 ∧ Runs (onA [(1, 0x80000000)]) exA 1 ∧ Runs (onA [(1, 0x7FFFFFFF)] 0x1200) exA 1
    ∧ then_ (.abs exA 1) (onA [(1, 0x80000000)]) (fun t => t.coreA.reg 1 == 0x80000000 && bitOf t.coreA.stat 3)
    ∧ then_ (.clz exA 1) (onA [(1, 0)]) (fun t => t.coreA.reg 1 == 32)
    ∧ then_ (.bswap exA 1) (onA [(1, 0x01020304)]) (fun t => t.coreA.reg 1 == 0x04030201) := by
  unfold Runs; dsimp only; and_intros <;> decide +kernel

/-- Products and quotients at the edges, with the traps off. -/
theorem test_meets_MultiplyAndDivideResults :
    Runs (onA [(2, 0x80000000), (3, 0x80000000)]) exA 1 ∧ OnCore exA
    ∧ then_ (.mulq exA 2 3) (onA [(2, 0x80000000), (3, 0x80000000)]) (fun t => t.coreA.reg 2 == 0x7FFFFFFF && bitOf t.coreA.stat 3)
    ∧ then_ (.mulhs exA 2 3) (onA [(2, 0xFFFFFFFF), (3, 1)]) (fun t => t.coreA.reg 2 == 0xFFFFFFFF)
    ∧ then_ (.msu0 exA 2 3) (onA [(2, 3), (3, 5)]) (fun t => t.coreA.a0 == 0xFFFFFFFFFFFFFFF1 && bitOf t.coreA.stat 1)
    ∧ Runs (onA [(2, 7), (3, 0)]) exA 1 ∧ bitOf (onA [(2, 7), (3, 0)]).coreA.stat 8 = false
    ∧ then_ (.div exA 2 3) (onA [(2, 0xFFFFFFF9), (3, 0)]) (fun t => t.coreA.reg 2 == 0x80000000 && t.coreA.reg 3 == 0xFFFFFFF9
        && bitOf t.coreA.stat 4)
    ∧ Runs (onA [(2, 0x80000000), (4, 0xFFFFFFFF)]) exA 1
    ∧ then_ (.div exA 2 4) (onA [(2, 0xFFFFFFF9), (4, 2)]) (fun t => t.coreA.reg 2 == 0xFFFFFFFD && t.coreA.reg 3 == 0xFFFFFFFF) := by
  unfold Runs OnCore; dsimp only; and_intros <;> decide +kernel

/-- Operands that trap: an overflow by one under OVE, a divisor of 0 under DZE, an odd register. -/
theorem test_meets_ArithmeticTraps :
    bitOf (onA [(2, 0x7FFFFFFF), (3, 1)] 0x1200).coreA.stat 9 = true
    ∧ Runs (onA [(2, 0x7FFFFFFF), (3, 1)] 0x1200) exA 1 ∧ Runs (onA [(2, 0x7FFFFFFF), (3, 1)] 0x1200) exA 2 ∧ OnCore exA
    ∧ overflows ((0x7FFFFFFF : Word).toInt + ((1 : Syl).signExtend 32).toInt) = true
    ∧ overflows ((0x7FFFFFFF : Word).toInt + (1 : Word).toInt) = true
    ∧ overflows ((0x7FFFFFFF : Word).toInt + (0 : Word).toInt + (true.toNat : Int)) = true
    ∧ overflows ((0x80000000 : Word).toInt - (1 : Word).toInt) = true
    ∧ overflows ((0x80000000 : Word).toInt - (0 : Word).toInt - (1 - false.toNat : Int)) = true
    ∧ overflows ((0x10000 : Word).toInt * (0x8000 : Word).toInt) = true
    ∧ ((0x80000000 : Word).toInt * (0x80000000 : Word).toInt + 2 ^ 30) / 2 ^ 31 = 2 ^ 31
    ∧ 2 ^ 63 ≤ (0x7FFFFFFFFFFFFFFF : BitVec 64).toInt + (1 : Word).toInt * (1 : Word).toInt
    ∧ (0x8000000000000000 : BitVec 64).toInt - (1 : Word).toInt * (1 : Word).toInt < -2 ^ 63
    ∧ Runs { onA [] with coreA := { coreOf [(2, 1), (3, 1)] 0x1200 with a0 := 0x7FFFFFFFFFFFFFFF, a1 := 0x8000000000000000 } } exA 1
    ∧ Runs (onA [(2, 0x80000000), (3, 0xFFFFFFFF)] 0x1200) exA 1
    ∧ Runs (onA [(2, 7), (3, 0)] 0x1100) exA 1 ∧ bitOf (onA [(2, 7), (3, 0)] 0x1100).coreA.stat 8 = true
    ∧ (3 : Fin 16).val % 2 = 1 ∧ Runs (onA []) exA 1
    ∧ then_ (.divu exA 2 3) (onA [(2, 7), (3, 0)] 0x1100) (fun t => t.coreA.bk == 1 && t.coreA.reg 2 == 0) := by
  unfold Runs OnCore; dsimp only; and_intros <;> decide +kernel

/-! ### Felrad: memory -/

/-- Loads at the start and over the end of an owned yard, aligned and not. -/
theorem test_meets_YardLoadsTakeTheirBytes :
    Runs (onA [(1, 0x100)]) exA 2 ∧ eaRd .a 1 0 (onA [(1, 0x100)]) = 0x100
    ∧ Clean (onA [(1, 0x100)]) 0x100 4 ∧ 0x100 % 4 = 0 ∧ eaDd .a 0 4 (onA [(1, 0x100)]) = 4
    ∧ Clean (onA [(1, 0x100)]) 4 4 ∧ InYards (onA [(1, 0x100)]) .a 0x100 4 true false ∧ InYards (onA [(1, 0x100)]) .a 0x100 2 true false
    ∧ InYards (onA [(1, 0x100)]) .a 0x100 1 true false ∧ InYards (onA [(1, 0x100)]) .a 4 4 true false
    ∧ InYards (onA [(1, 0x100)]) .a 4 2 true false ∧ InYards (onA [(1, 0x100)]) .a 4 1 true false
    ∧ Runs (onA [(1, 0x3FFFE)]) exA 2 ∧ InYards (onA [(1, 0x3FFFE)]) .a 0x3FFFE 4 true false
    ∧ then_ (.ldb exA 2 1 0 0) { onA [(1, 0x100)] with ram := [(0x100, 0x80)] }
        (fun t => t.coreA.loads == [{ bank := 0, rd := 2, val := some 0xFFFFFF80 }]) := by
  unfold Runs Clean; dsimp only; and_intros <;> first | decide +kernel | exact parts_sound (by decide +kernel)

theorem test_meets_LoadIsWrittenAfterItsSlot :
    let s := { State.reset with coreA := { coreOf [] with loads := [{ bank := 0, rd := 2, val := some 9 }] } }
    felReady s .a = true ∧ s.coreA.rp = false ∧ s.coreA.hwSince = none ∧ s.fetchFail .a 0x1000 1 = none
    ∧ s.coreA.loads = [{ bank := s.coreA.bk, rd := (2 : Fin 16).val, val := some 9 }]
    ∧ then_ (.mov exA 3 2) s (fun t => t.coreA.reg 3 == 0 && t.coreA.reg 2 == 9) := by decide +kernel

/-- Stores to owned yards, STCND with the reservation on its granule, on another, and with none. -/
theorem test_meets_YardStoresWriteTheirBytes :
    Runs (onA [(1, 0x100)]) exA 2 ∧ eaRd .a 1 0 (onA [(1, 0x100)]) = 0x100 ∧ Clean (onA [(1, 0x100)]) 0x100 1
    ∧ InYards (onA [(1, 0x100)]) .a 0x100 4 false true ∧ InYards (onA [(1, 0x100)]) .a 0x100 2 false true
    ∧ InYards (onA [(1, 0x100)]) .a 0x100 1 false true ∧ InYards (onA [(1, 0x100)]) .a 0x100 1 true true
    ∧ InYards { onA [] with coreA := { coreOf [(1, 0x100)] with resv := some 4 } } .a 0x100 4 false true
    ∧ InYards { onA [] with coreA := { coreOf [(1, 0x100)] with resv := some 5 } } .a 0x100 4 false true
    ∧ ({ onA [] with coreA := { coreOf [(1, 0x100)] with resv := some 4 } } : State).coreA.resv = some (0x100 / 64)
    ∧ Runs { onA [] with coreA := { coreOf [(1, 0x100)] with resv := some 4 } } exA 2
    ∧ Runs { onA [] with coreA := { coreOf [(1, 0x100)] with resv := some 5 } } exA 2
    ∧ (onA [(1, 0x100)]).coreA.resv ≠ some (0x100 / 64) ∧ (1 : Nat) < [(0 : Byte), 0].length
    ∧ then_ (.sth exA 2 1 0x3FFF) (onA [(1, 0x100), (2, 0x1234)]) (fun t => t.byteAt 0xFF == 0x34 && t.byteAt 0x100 == 0x12)
    ∧ then_ (.tas exA 2 1 0 0) (onA [(1, 0x100)]) (fun t => t.byteAt 0x100 == 0xFF && bitOf t.coreA.stat 0) := by
  unfold Runs Clean; dsimp only; and_intros <;> first | decide +kernel | exact parts_sound (by decide +kernel)

/-- The last word of the lamplighter's SRAM. -/
theorem test_meets_LamplighterLoadsAndStoresItsSram :
    Runs (onLamp [(1, 0x1FFC)]) exL 2 ∧ eaRd .lamp 1 0 (onLamp [(1, 0x1FFC)]) + 4 ≤ 0x2000
    ∧ then_ (.stw exL 2 1 0) (onLamp [(1, 0x1FFC), (2, 0x11223344)]) (fun t => t.lram == [(0x1FFC, 0x44), (0x1FFD, 0x33),
        (0x1FFE, 0x22), (0x1FFF, 0x11)]) := by
  unfold Runs; dsimp only; and_intros <;> decide +kernel

/-- Every kind of forbidden access, at the edges of its region. -/
theorem test_meets_ForbiddenAndNonOwnerAccesses :
    (∀ a ∈ ([0x00400000, 0x02000000, 0x20000000, 0x08000002, 0x08000000, 0x01000000, 0x1000003E, 0x1000003C, 0x101] : List Nat),
      Runs (onA [(1, BitVec.ofNat 32 a)]) exA 2 ∧ eaRd .a 1 0 (onA [(1, BitVec.ofNat 32 a)]) = a) ∧ OnCore exA
    ∧ regionOf .a 0x00400000 = .none ∧ regionOf .a 0x02000000 = .ctx ∧ regionOf .a 0x20000000 = .cache
    ∧ regionOf .a 0x08000002 = .setup ∧ 0x08000002 % 4 ≠ 0 ∧ regionOf .a 0x08000000 = .setup ∧ mOnly 0x08000000 = true
    ∧ (onA [(1, 0x08000000)] 0).coreA.pl = 0 ∧ (onA [(1, 0x01000000)] 0).coreA.pl ≠ 2
    ∧ Runs (onA [(1, 0x08000000)] 0) exA 2 ∧ Runs (onA [(1, 0x01000000)] 0) exA 2 ∧ regionOf .a 0x01000000 = .nv ∧ 0x101 % 4 ≠ 0 ∧ 0x01000000 % 4 = 0
    ∧ regionOf .a 0x1000003E = .far ∧ 0x1000003E / 64 ≠ (0x1000003E + 3) / 64
    ∧ regionOf .a 0x1000003C = .far ∧ 0x1000003C / 64 = (0x1000003C + 3) / 64 ∧ (onA [(1, 0x1000003C)]).farUp = false
    ∧ Runs (onA [(1, 0x3C0000)]) exA 2 ∧ regionOf .a 0x3C0000 = .yard 15 ∧ (onA [(1, 0x3C0000)]).handOf 15 = none
    ∧ (onA [(1, 0x3C0000)]).ydOwner 15 ≠ (onA [(1, 0x3C0000)]).groupOf 0
    ∧ (onA [(1, 0x3C0000)]).flag A.YD_ACCERR 31 = false
    ∧ Runs (regsOf [(A.YD_ACCERR, 0x80000000)] (onA [(1, 0x3C0000)])) exA 2
    ∧ (regsOf [(A.YD_ACCERR, 0x80000000)] (onA [(1, 0x3C0000)])).flag A.YD_ACCERR 31 = true
    ∧ then_ (.stw exA 2 1 0) (onA [(1, 0x3C0000)]) (fun t => t.num A.YD_ACCADDR == 0x3C0000 && t.ram == []) := by
  unfold Runs OnCore; dsimp only; and_intros <;> decide +kernel

/-- Far memory up, of 512 MiB. -/
def farOn (s : State) : State := (s.setFlag A.LK_FARSTAT 30 true).setFld A.LK_FARCAP 8 0 2

/-- Far accesses at the end of a line, and what waits for their answer; registers of both dies. -/
theorem test_meets_SetupSpaceAndFarAccesses :
    (let s := farOn (onA [(1, 0x1000003C)])
     Runs s exA 2 ∧ OnCore exA ∧ eaRd .a 1 0 s = 0x1000003C ∧ regionOf .a 0x1000003C = .far ∧ s.farUp = true
       ∧ farOff 0x1000003C s < s.farCap ∧ watched .a 0x1000003C true false s = false
       ∧ watched .a 0x1000003C false true s = false ∧ s.inArea (farOff 0x1000003C s) = false)
    ∧ (let s := farOn { onA [] with coreA := { coreOf [] with wait := .farLoad 0 0 2 0x1000003C .word } }
       s.toControl = [] ∧ s.coreA.run = true ∧ s.coreA.rp = false ∧ s.coreA.loads = [] ∧ s.coreA.hwSince = none
         ∧ s.farUp = true ∧ s.coreA.wait = .farLoad 0 0 2 0x1000003C .word
         ∧ Sparse.get (fun _ => false) s.farPoison (farOff 0x1000003C s / 64) = false)
    ∧ (let s := farOn { onA [] with coreA := { coreOf [] with wait := .farStore 0x1000003C [1, 2, 3, 4] false } }
       s.toControl = [] ∧ s.coreA.run = true ∧ s.coreA.rp = false ∧ s.coreA.loads = [] ∧ s.coreA.hwSince = none
         ∧ s.farUp = true ∧ s.coreA.wait = .farStore 0x1000003C [1, 2, 3, 4] false)
    ∧ (let s := { farOn { onA [] with coreA := { coreOf [] with wait := .farLoad 0 0 2 0x1000003C .word } } with dtC := 100000 }
       s.coreA.farAt + 1000 * max 1 (s.fld A.LK_FARTO 15 0) ≤ s.dtC)
    ∧ (let s := State.reset.setFlag A.LK_FARSTAT 31 true
       s.flag A.LK_FARSTAT 31 = true ∧ s.coreA.wait = .none ∧ s.coreB.wait = .none)
    ∧ (let s := onA [(1, 0x08030000)]
       Runs s exA 2 ∧ eaRd .a 1 0 s = 0x08030000 ∧ regionOf .a 0x08030000 = .setup ∧ s.coreA.pl = 2 ∧ s.mem.held = []
         ∧ watched .a 0x08030000 true false s = false ∧ inField 0x08030000 = false)
    ∧ (let s := (onA [(1, 0x08200000)]).setFlag A.TD_STAT 31 true
       Runs { s with linkUp := true } exA 2 ∧ eaRd .a 1 0 s = 0x08200000 ∧ regionOf .a 0x08200000 = .setup
         ∧ inField 0x08200000 = true ∧ s.unhitched = true ∧ watched .a 0x08200000 false true s = false
         ∧ ({ s with linkUp := true } : State).linkUp = true)
    ∧ (let s := onA [(1, 0x08200000)]
       Runs s exA 2 ∧ eaRd .a 1 0 s = 0x08200000 ∧ guardClass 0x08200000 = true ∧ s.unhitched = false) := by
  unfold Runs OnCore; dsimp only; and_intros <;> first | decide +kernel | exact owned_sound (by decide +kernel)

/-! ### Felrad: control -/

/-- Every condition, taken or not, the reserved one, and an offset over the end of program memory. -/
theorem test_meets_BranchesCallsAndReturns :
    Runs (onA [(1, 0xFF001234)]) exA 2 ∧ Runs (onA [(1, 0xFF001234)]) exA 1 ∧ (14 : Fin 16).val ≠ 15 ∧ (15 : Fin 16).val = 15
    ∧ then_ (.bcc exA 1 (-9)) (onA []) (fun t => t.coreA.pc == 0xFF9)
    ∧ then_ (.bcc exA 0 (-9)) (onA []) (fun t => t.coreA.pc == 0x1002)
    ∧ then_ (.jmp exA 1) (onA [(1, 0xFF001234)]) (fun t => t.coreA.pc == 0x1234)
    ∧ (let s := { onA [] with coreA := (coreOf []).setSp 0x40000 }
       Runs s exA 2 ∧ Runs s exA 1 ∧ OnCore exA ∧ (s.coreA.sp - 4).toNat = 0x3FFFC ∧ s.coreA.sfloor.toNat ≤ 0x3FFFC
         ∧ watched .a 0x3FFFC false true s = false ∧ YardOwned s .a 0x3FFFC
         ∧ then_ (.callr exA (-2)) s (fun t => t.coreA.pc == 0x1000 && t.coreA.sp == 0x3FFFC && t.byteAt 0x3FFFC == 2))
    ∧ (let s := { onA [] with coreA := (coreOf []).setSp 0x40002 }
       Runs s exA 2 ∧ Runs s exA 1 ∧ (s.coreA.sp - 4).toNat % 4 ≠ 0 ∧ s.coreA.sp.toNat % 4 ≠ 0)
    ∧ (let s := { onA [] with coreA := { (coreOf []).setSp 0x104 with sfloor := 0x104 } }
       Runs s exA 2 ∧ (s.coreA.sp - 4).toNat < s.coreA.sfloor.toNat)
    ∧ (let s := { onA [] with coreA := (coreOf []).setSp 0x100, ram := [(0x100, 8)] }
       Runs s exA 1 ∧ s.coreA.sp.toNat % 4 = 0 ∧ s.coreA.sfloor.toNat ≤ 0x100 ∧ Clean s 0x100 4 ∧ YardOwned s .a 0x100 ∧ watched .a 0x100 true false s = false ∧ s.ssOn = false
         ∧ then_ (.ret exA 0) s (fun t => t.coreA.pc == 8 && t.coreA.sp == 0x104))
    ∧ (let s := (({ onA [] with coreA := (coreOf []).setSp 0x100, ram := [(0x100, 8)] } : State).setFld A.TD_SSCFG 31 31 1)
       Runs s exA 1 ∧ s.ssOn = true ∧ YardOwned s .a 0x100 ∧ Clean s 0x100 4 ∧ watched .a 0x100 true false s = false ∧ (s.ssGet (s.ssOf .a 0)).head? ≠ some (s.bytesAt 0x100 4)) := by
  unfold Runs OnCore Clean; dsimp only; and_intros <;> first | decide +kernel | exact owned_sound (by decide +kernel)

/-- The levels M, S and U at the edges of each special register's level, and banks 0, 4 and 5. -/
theorem test_meets_SpecialRegistersAndBanks :
    Runs (onA []) exA 1 ∧ Runs (onA []) exA 2 ∧ OnCore exA ∧ (onA []).coreA.pl = 2
    ∧ Runs (onA [] 0x0800) exA 1 ∧ Runs (onA [] 0x0800) exA 2 ∧ (onA [] 0x0800).coreA.pl = 1
    ∧ Runs (onA [] 0) exA 1 ∧ Runs (onA [] 0) exA 2 ∧ (onA [] 0).coreA.pl = 0
    ∧ 4 < (5 : Fin 8).val ∧ (4 : Fin 8).val ≤ 4
    ∧ then_ (.mts exA 0 1) (onA [(1, 0xFFFFFFFF)] 0x0800) (fun t => t.coreA.stat == 0x0F7F)
    ∧ then_ (.mfs exA 1 1) (onA [] 0) (fun t => t.coreA.bk == 1 && t.coreA.reg 1 == 0)
    ∧ then_ (.mts exA 10 1) (onA [(1, 7)]) (fun t => t.coreA.a1 == 0x700000000)
    ∧ (let s := { onA [] with coreA := (coreOf []).setSp 0x40000 }
       (4 : Fin 16).val ≠ s.coreA.bk ∧ (0 : Fin 16).val = s.coreA.bk ∧ Runs s exA 1
         ∧ (s.coreA.sp - 72).toNat % 4 = 0 ∧ s.coreA.sfloor.toNat ≤ (s.coreA.sp - 72).toNat
         ∧ (s.coreA.sp - 72).toNat / 0x40000 = ((s.coreA.sp - 72).toNat + 71) / 0x40000
         ∧ watchedN .a (s.coreA.sp - 72).toNat 18 false true s = false ∧ YardOwned s .a (s.coreA.sp - 72).toNat
         ∧ then_ (.spill exA 4) s (fun t => t.coreA.sp == 0x3FFB8))
    ∧ (let s := { onA [] with coreA := (coreOf []).setSp 0, ram := [(60, 3), (67, 0x80), (68, 0x80)] }
       Runs s exA 1 ∧ s.coreA.sp.toNat % 4 = 0 ∧ s.coreA.sfloor.toNat ≤ 0 ∧ 0 / 0x40000 = (0 + 71) / 0x40000
         ∧ watchedN .a 0 18 true false s = false ∧ YardOwned s .a 0 ∧ Clean s 0 72
         ∧ then_ (.fill exA 4 0) s (fun t => t.coreA.wreg 4 15 == 3 && (t.coreA.bank 4).xpc == 0 && t.coreA.sp == 72)) := by
  unfold Runs OnCore Clean; dsimp only; and_intros <;> first | decide +kernel | exact owned_sound (by decide +kernel)

theorem test_meets_TrapsWaitsAndCoreControl :
    Runs (onA []) exA 1 ∧ (onA []).coreA.pl ≠ 0 ∧ Runs (onA [] 0) exA 1 ∧ (onA [] 0).coreA.pl = 0
    ∧ nextVector (onA []) .a = none ∧ OnCore exA ∧ fenceDone .a (onA []) = true
    ∧ (let s := { onA [] with vecA := [(32, true)] }; Runs s exA 1 ∧ (nextVector s .a).isSome)
    ∧ (let s := { onA [] with mem := { State.reset.mem with held := [.store 0 0x100 [0]] } }
       Runs s exA 1 ∧ fenceDone .a s = false)
    ∧ then_ (.trap exA 63) (onA []) (fun t => t.coreA.bk == 1 && (t.coreA.bank 1).xpc == 0x1001)
    ∧ (let s := { onA [] with coreA := { coreOf [] with wait := .wfi }, vecA := [(0, true)] }
       s.coreA.wait = .wfi ∧ (nextVector s .a).isSome ∧ s.rung = 0 ∧ s.pw.entry = none ∧ s.pw.exit = none)
    ∧ (let s := { onLamp [] with lamp := { coreOf [] with wait := .wfi }, vecL := [(32, true)] }
       s.lamp.wait = .wfi ∧ (nextVector s .lamp).isSome)
    ∧ (let s := { onA [] with coreA := { coreOf [] with wait := .fence } }
       s.coreA.wait = .fence ∧ fenceDone .a s = true ∧ s.coreA.run = true ∧ s.coreA.rp = false ∧ s.coreA.loads = []
         ∧ s.coreA.hwSince = none) := by
  unfold Runs OnCore; dsimp only; and_intros <;> first | decide +kernel | exact owned_sound (by decide +kernel)

/-- Banks 0, 2, 3 and 4 at an exception; returns to the same level, to a higher one, from bank 0, and at U. -/
theorem test_meets_ExceptionEntryAndReturn :
    (onA []).coreA.bk ≤ 3 ∧ (255 : Nat) < 256 ∧ Clean (onA []) 1020 4 ∧ Who.a ≠ .lamp ∧ YardOwned (onA []) .a 1020 ∧ 1020 % 4 = 0
    ∧ ({ onA [] with coreA := { coreOf [] with bk := 3 } } : State).coreA.bk ≤ 3
    ∧ YardOwned { onA [] with coreA := { coreOf [] with bk := 3 } } .a 4
    ∧ Clean { onA [] with coreA := { coreOf [] with bk := 3 } } 4 4
    ∧ 4 ≤ ({ regsOf [(A.TD_STAT, 0x80000000)] with coreA := { coreOf [] with bk := 4 } } : State).coreA.bk
    ∧ ({ regsOf [(A.TD_STAT, 0x80000000)] with coreA := { coreOf [] with bk := 4 } } : State).unhitched = true
    ∧ OnCore exA ∧ Runs (onA [] 0) exA 1 ∧ (onA [] 0).coreA.pl = 0 ∧ Runs (onA []) exA 1 ∧ (onA []).coreA.bk = 0
    ∧ (let s := { onA [] with coreA := { ({ coreOf [] 0x0800 with bk := 1 } : CoreSt).setBank 1 { xst := 0x1000, xpc := 8 } with run := true } }
       Runs s exA 1 ∧ s.coreA.pl ≠ 0 ∧ s.coreA.bk ≠ 0 ∧ s.coreA.pl < bitsOf (s.coreA.bank s.coreA.bk).xst 12 11)
    ∧ (let s := { onA [] with coreA := ({ coreOf [] 0x0800 with bk := 4 } : CoreSt).setBank 4 { xst := 0x0800, xpc := 8 } }
       Runs s exA 1 ∧ s.coreA.pl ≠ 0 ∧ s.coreA.bk ≠ 0 ∧ bitsOf (s.coreA.bank s.coreA.bk).xst 12 11 ≤ s.coreA.pl
         ∧ then_ (.retx exA) s (fun t => t.coreA.bk == 3 && t.coreA.pc == 8)) := by
  unfold Runs OnCore Clean; dsimp only; and_intros <;> first | decide +kernel | exact owned_sound (by decide +kernel)

theorem test_meets_IllegalInstructionsAndInterrupts :
    Runs (onA []) exA 1 ∧ decodeFel 0x1F00 0 = none ∧ Runs (onA []) exA 2 ∧ decodeFel 0x3E00 0 = none
    ∧ Runs (onLamp []) exL 1 ∧ Runs (onLamp []) exL 2
    ∧ (let s := { onA [] 0x1400 with vecA := [(247, true)] }
       s.coreA.run = true ∧ s.coreA.dbgHalt = false ∧ s.coreA.ie = true ∧ s.coreA.atPoint = true ∧ s.coreA.wait = .none
         ∧ s.rung < 2 ∧ s.pw.entry = none ∧ s.pw.exit = none ∧ s.vecPending false 247 = true
         ∧ (∀ u, u < 247 → s.vecPending false u = false)
         ∧ then_ (.interruptEntry { who := .a }) s (fun t => t.coreA.bk == 1 && t.vecA == [])) := by
  unfold Runs; dsimp only; and_intros <;> first | decide +kernel | exact owned_sound (by decide +kernel)

/-- A repeat of count 1 and of count 0, a loop over one syllable, the last and another pass, and a repeated multiply. -/
theorem test_meets_RepeatsLoopsAndProgramWrites :
    (let s := { onA [(1, 1)] with pm := [(0x1001, 0x0243), (0x1002, 0x0243)] }
     Runs s exA 2 ∧ Runs s exA 1 ∧ OnCore exA ∧ s.fetchFail .a 0x1002 (s.lenAt .a 0x1002) = none
       ∧ s.fetchFail .a 0x1001 (s.lenAt .a 0x1001) = none
       ∧ s.decodeAt .a 0x1002 = some (.r2 .add 4 3) ∧ s.decodeAt .a 0x1001 = some (.r2 .add 4 3)
       ∧ (Fel.r2 .add 4 3).noRepeat = false ∧ bitsOf (s.coreA.reg 1) 15 0 ≠ 0
       ∧ s.fetchFail .a 0x1002 ((0 : Fin 64).val + 1) = none ∧ bodyOk (bodyState s exA 2) .a 1 0x1003 1 0x1002 = true
       ∧ s.coreA.reg 1 ≠ 0 ∧ s.coreA.reg 2 = 0 ∧ bodyOk (bodyState s exA 2) .a 2 0x1003 1 0x1002 = true)
    ∧ (let s := { onA [(2, 3), (4, 5)] 0x00013000 with pm := [(0x1000, 0x2600), (0x1001, 1), (0x1002, 0x1742)] }
       felReady s .a = true ∧ s.coreA.rp = true ∧ s.coreA.loads = [] ∧ s.coreA.hwSince = none
         ∧ s.fetchFail .a (0x1000 + s.lenAt .a 0x1000) 1 = none
         ∧ s.decodeAt .a (0x1000 + s.lenAt .a 0x1000) = some (.r2 .mac0 4 2) ∧ bitOf s.coreA.stat 9 = false ∧ s.coreA.rc = 1
         ∧ then_ (.repeatIteration exA 0) s (fun t => t.coreA.a0 == 15 && t.coreA.pc == 0x1003))
    ∧ (let s := { onA [(2, 3), (4, 5)] 0x3000 with pm := [(0x1000, 0x2600), (0x1001, 1), (0x1002, 0x1742)] }
       felReady s .a = true ∧ s.coreA.rp = true ∧ s.coreA.rc = 0
         ∧ s.decodeAt .a (0x1000 + s.lenAt .a 0x1000) = some (.r2 .mac0 4 2))
    ∧ (let s := { onA [] with coreA := { coreOf [(1, 2)] 0x5000 with ls := 0x10000FFF } }
       s.coreA.run = true ∧ s.coreA.wait = .none ∧ s.coreA.lp = true ∧ s.coreA.rp = false ∧ s.coreA.pc = s.coreA.lsEnd ∧ s.rung < 2
         ∧ s.coreA.reg s.coreA.lsWc - 1 ≠ 0)
    ∧ (let s := { onA [] with coreA := { coreOf [(1, 1)] 0x5000 with ls := 0x10000FFF } }
       s.coreA.pc = s.coreA.lsEnd ∧ s.coreA.lp = true ∧ s.coreA.reg s.coreA.lsWc - 1 = 0
         ∧ then_ (.loopPassEnd .a) s (fun t => t.coreA.lp == false && t.coreA.pc == 0x1000))
    ∧ (let s := onA [(1, 0x003FFFFC)]
       Runs s exA 1 ∧ (2 : Fin 16).val % 2 = 0 ∧ (3 : Fin 16).val % 2 = 1 ∧ s.coreA.pl = 2 ∧ bitsOf (s.coreA.reg 1) 23 0 % 4 = 0
         ∧ bitsOf (s.coreA.reg 1) 23 0 ≤ 0x3FFFFF ∧ s.coreA.pmwr = none ∧ s.coreA.oldLines = [] ∧ s.mem.held = []
         ∧ Runs (onA [] 0x0800) exA 1 ∧ (onA [] 0x0800).coreA.pl ≠ 2)
    ∧ (let s := { onA [] with coreA := { coreOf [] with pmwr := some (0x2000, [1, 2, 3, 4], some 0) } }
       s.coreA.pmwr = some (0x2000, [1, 2, 3, 4], some 0) ∧ s.coreA.wait = .none) := by
  unfold Runs OnCore; dsimp only; and_intros <;> first | decide +kernel | exact owned_sound (by decide +kernel)

/-! ### The link, device time and register accesses -/

/-- A transfer under way that carries `m`, sent at DT `at_`, with `f` failed attempts. -/
def xf (m : LinkMsg) (at_ : Nat := 0) (f : Nat := 0) : Xfer := { msg := m, epoch := none, crc := 0, start := at_, fails := f }

/-- What a list of transfers carries. -/
def carried (l : List Xfer) : List LinkMsg := l.map (·.msg)

/-- A read, a coupler transfer, a loop transfer and a second read, queued in one nanosecond: the first read has started (R19);
and in the next one an edge report finds the coupler transfer started. -/
theorem test_enqueue_classes :
    (let s := (((State.reset.sendF (.regRead .coreA 0)).sendF (.ttCancel 1 2)).sendF (.heartbeat 3)).sendF (.regRead .coreA 4)
     carried s.toField == [.regRead .coreA 0, .heartbeat 3, .ttCancel 1 2, .regRead .coreA 4]
       && s.toField.map (·.start) == [0, 1, 2, 3]
       && carried ({ s with dtC := 1 }.sendF (.safeAll)).toField
         == [.regRead .coreA 0, .heartbeat 3, .safeAll, .ttCancel 1 2, .regRead .coreA 4]) = true := by decide +kernel

/-- The control die's copy below, at, just above and far above the field die's DT plus 10; after a rung. -/
theorem test_meets_SyncReplaysAndClockLoss :
    State.reset.dtF % 256 = 0 ∧ ({ State.reset with dtF := 1 } : State).dtF % 256 ≠ 0 ∧ State.reset.linkUp = true
    ∧ State.reset.toControl = [] ∧ State.reset.pw.dtLoad = false
    ∧ (∀ c ∈ ([9, 10, 11, 12] : List Nat), then_ .dtSync { State.reset with toControl := [xf .dtSync], dtC := c }
        (fun t => t.dtC == (if c < 10 then c + 1 else if 10 < c then c - 1 else c)))
    ∧ (let s := { State.reset with lk := { State.reset.lk with drift := 3 }, dtC := 12 }
       0 + 10 + 1 < s.dtC ∧ s.lk.drift = 3)
    ∧ ({ State.reset with pw := { State.reset.pw with dtLoad := true } } : State).pw.dtLoad = true
    ∧ (∀ k : Fin 4,
        let s := { State.reset with toControl := [xf .dtSync, xf (.released 3) 0 k] }
        s.linkUp = true ∧ s.toControl[(1 : BitVec 6).toNat]? = some (xf (.released 3) 0 k) ∧ (xf (.released 3) 0 k).fails = k.val
          ∧ (xf (.released 3) 0 k).start ≤ s.dtF ∧ (xf (.released 3) 0 k).msg ≠ .limp
          ∧ then_ (.replayRequest 1 1 k startOk) s (fun t => t.toControl.length == (if k.val = 3 then 1 else 2)
              && t.faultQ == (if k.val = 2 then [⟨0x50, 1, 0, false⟩] else [])))
    ∧ (let s := { State.reset with toField := [xf .limp 0 3], gd := { State.reset.gd with cdPend := true } }
       s.toField[(0 : BitVec 6).toNat]? = some (xf .limp 0 3) ∧ s.gd.cdPend = true ∧ (xf .limp 0 3).start ≤ s.dtC) := by
  dsimp only; and_intros <;> decide +kernel

/-- The seventeenth error within 1 ms raises F_LINK_CRC though the first is almost 1 ms old (R21). -/
theorem test_crc_window :
    (let s := { State.reset with toControl := [xf (.released 3)], dtC := 1000999, dtF := 1000999,
                                 lk := { errs := [(1, 1000 :: List.replicate 15 900000)] } }
     then_ (.replayRequest 1 0 0 startOk) s (fun t => t.faultQ == [⟨0x50, 1, 1000999, false⟩])
       && then_ (.replayRequest 1 0 0 startOk) { s with dtC := 1001000 } (fun t => t.faultQ == [])) = true := by decide +kernel

/-- A heartbeat of a period in which a transfer was discarded does not restart the watch (R21). -/
theorem test_heartbeat_missed :
    (let s := { (State.reset.wr A.FG_EPOCH 1).wr A.CPL_EPOCH 1 with toField := [xf (.heartbeat 1) 1000], dtF := 1012, dtC := 1012,
                                                                    gd := { State.reset.gd with watchFrom := some 7 } }
     then_ .heartbeat s (fun t => t.gd.watchFrom == some 1012)
       && then_ .heartbeat { s with gd := { s.gd with hbVoid := some 1 } } (fun t => t.gd.watchFrom == some 7)) = true := by decide +kernel

theorem test_clkLoss_stops_outputs :
    (then_ (.clkLoss 2 true) State.reset (fun t => t.fieldClkLost && t.limp && t.limpLock && ! (t.getOut 3 2).on
       && carried t.toControl == [.fault ⟨0x04, 2, 0, true⟩])) = true := by decide +kernel

theorem test_meets_Oldest (m : LinkMsg) (l : List Xfer) : Oldest (xf m :: l) m l := ⟨xf m, rfl, rfl⟩

/-- A row with one field of each type, a register without an epoch's need, one with, and a read. -/
theorem test_meets_RegisterAndWindowAccesses :
    (let fs := fieldsAt A.YD_IRQST
     bitOf (typeMask fs [.w1c]) 5 = true ∧ (([.rw, .ro, .wo, .w1s, .sc, .rwl] : List Acc).all (fun u => ! bitOf (typeMask fs [u]) 5))
       ∧ (([.rw, .ro, .wo, .w1c, .w1s, .sc, .rwl] : List Acc).all (fun u => ! bitOf (typeMask fs [u]) 6)))
    ∧ epochBlock 0x08290000 = false ∧ epochBlock 0x08200000 = true
    ∧ (regsOf [(A.FG_EPOCH, 1)]).num A.FG_EPOCH = 1 ∧ ({ State.reset with linkUp := true } : State).linkUp = true
    ∧ (onA []).coreA.pl = 2 ∧ epochBlock 0x08010000 = false ∧ hostWrites 0x08010000 = false ∧ (0x08200000 : Word).toNat % 4 = 0
    ∧ (0x08200000 : Word).toNat ≠ A.FG_LLCLR := by decide +kernel

/-- A core below M and the host write no register of the guard; a core's write of the field window waits on the link (R36). -/
theorem test_registerWrite_rights :
    (then_ (.registerWrite .coreA (BitVec.ofNat 32 A.GD_IRQEN) 1 0 0) (onA [] 0x0800) (fun t => t.rd A.GD_IRQEN == 0)
      && then_ (.registerWrite .host (BitVec.ofNat 32 A.GD_IRQEN) 1 0 0) (onA []) (fun t => t.rd A.GD_IRQEN == 0)
      && then_ (.registerWrite .coreA (BitVec.ofNat 32 A.GD_IRQEN) 1 0 0) (onA []) (fun t => t.rd A.GD_IRQEN == 1)
      && then_ (.registerWrite .coreA (BitVec.ofNat 32 (A.TC_CMP0 1)) 5 0 0) (onA [])
        (fun t => t.rd (A.TC_CMP0 1) == 0 && carried t.toField == [.regWrite .coreA (A.TC_CMP0 1) 5 (some 0)])) = true := by
  decide +kernel

/-- A debug READ of two field registers goes over the link, one access after the other (R36, R39, R482). -/
theorem test_debug_window_read :
    (let s := { State.reset with sc := { State.reset.sc with ends := some 100 } }.wr A.SC_DBGSTAT 0x10000000
     let a := BitVec.ofNat 32 (A.TC_CMP0 1)
     then_ (.read 9 a 2) s (fun t => carried t.toField == [.regRead .debug (A.TC_CMP0 1)] && t.host.out == []
       && then_ (.fieldWindowAccess 0) t (fun u => carried u.toField == [.regRead .debug (A.TC_CMP0 1 + 4)] && u.host.out == []
         && then_ (.fieldWindowAccess 0) u (fun v => v.toField == [] && v.host.out.length == 1 && v.sc.dbgQ == [])))) = true := by
  decide +kernel

/-! ### Tracks and the timetable -/

/-- Track 1 enabled with a source and an instance. -/
def trackOn (src inst : Nat) (s : State := State.reset) : State :=
  s.wr (A.TRK_CFG 1) (BitVec.ofNat 32 (2 ^ 31 + src * 2 ^ 28 + inst * 2 ^ 24))

/-- Each change of A and B, a Z edge, Hall states forward, backward and invalid, and reports and writes of a track. -/
theorem test_meets_FrontEndEdgesAndTrackUpdates :
    (let s := { trackOn 1 7 with linkUp := true }
     (qeIndex true false + 4 - qeIndex false false) % 4 = 1 ∧ (qeIndex false true + 4 - qeIndex false false) % 4 = 3
       ∧ (qeIndex true true + 4 - qeIndex false false) % 4 = 2 ∧ s.flag (A.IO_QE_CFG 7) 9 = false ∧ s.linkUp = true
       ∧ s.trkEn 1 = true ∧ s.trkSrc 1 = 1 ∧ s.trkInst 1 = 7
       ∧ (Sparse.get (fun _ => ({} : QeIn)) s.qe 7).z = false ∧ s.flag (A.IO_QE_CFG 7) 8 = false
       ∧ then_ (.qeAbEdge 7 ⟨true, 255⟩ ⟨true, 255⟩) s (fun t => t.trkLost 1)
       ∧ then_ (.qeAbEdge 7 ⟨false, 255⟩ ⟨true, 255⟩) s (fun t => carried t.toControl == [.edge 0 (.ab 7 true)]))
    ∧ (let s := { trackOn 2 7 with linkUp := true, hl := [(7, 5)] }
       s.flag (A.IO_HL_CFG 7) 8 = false ∧ hallIndex (Sparse.get (fun _ => 0) s.hl 7) = some 0 ∧ s.linkUp = true
         ∧ hallIndex 1 = some 1 ∧ (1 + 6 - 0) % 6 = 1 ∧ hallIndex 4 = some 5 ∧ (5 + 6 - 0) % 6 = 5 ∧ hallIndex 0 = none
         ∧ hallIndex 7 = none ∧ s.trkEn 1 = true ∧ s.trkSrc 1 = 2 ∧ s.trkInst 1 = 7
         ∧ then_ (.hlStateChange 7 ⟨⟨true, 255⟩, ⟨true, 255⟩, ⟨true, 255⟩⟩) s (fun t => t.trkLost 1))
    ∧ (let s := { trackOn 1 7 with toControl := [xf (.edge 4 (.ab 7 true))] }
       s.trkEn 1 = true ∧ s.trkSrc 1 = 1 ∧ s.trkInst 1 = 7
         ∧ then_ .trackEdgeReport (s.wr (A.TRK_INC_I 1) 1) (fun t => (t.getTrk 1).ang == 2 ^ 64 - 2 ^ 32))
    ∧ (let s := { trackOn 3 0 with trkWrQ := [⟨0, 1, 5, 9, true, 0, true, 0⟩] }
       s.trkEn 1 = true ∧ s.trkSrc 1 = 3 ∧ (0 : Nat) = s.fld (A.TRK_CFG 1) 21 16 ∧ (63 : Nat) ≠ s.fld (A.TRK_CFG 1) 21 16) := by
  dsimp only; and_intros <;> decide +kernel

/-- Times exactly reached; a track enabled, given another source, and cleared; an excitation at the edges of its range. -/
theorem test_meets_TrackTimeoutsAndRegisters :
    (let s := { (trackOn 3 0).wr (A.TRK_WDOG 1) 2 with dtC := 32 }
     (1 : Fin 16).val ≠ 0 ∧ s.trkEn 1 = true ∧ s.trkSrc 1 = 3 ∧ s.fld (A.TRK_WDOG 1) 15 0 ≠ 0
       ∧ (s.getTrk 1).lastWr + s.fld (A.TRK_WDOG 1) 15 0 * 16 ≤ s.dtC
       ∧ (s.setFlag (A.TRK_STAT 1) 31 false).trkLost 1 = false)
    ∧ (let s := { ((trackOn 1 0).setFld (A.TRK_CFG 1) 7 0 3).setFlag (A.TRK_STAT 1) 31 false with dtC := 3000 }
       s.trkEn 1 = true ∧ s.trkSrc 1 = 1 ∧ s.fld (A.TRK_CFG 1) 7 0 ≠ 0
         ∧ (s.getTrk 1).lastEdge + s.fld (A.TRK_CFG 1) 7 0 * 1000 ≤ s.dtC ∧ s.flag (A.TRK_STAT 1) 29 = false
         ∧ then_ (.trackStall 1) s (fun t => t.flag (A.TRK_STAT 1) 29))
    ∧ bitOf (State.reset.rd (A.TRK_CFG 1)) 31 = false ∧ bitOf (0x80000000 : Word) 31 = true
    ∧ bitOf ((trackOn 1 0).rd (A.TRK_CFG 1)) 31 = true ∧ bitsOf ((trackOn 1 0).rd (A.TRK_CFG 1)) 30 28 ≠ bitsOf (0xA0000000 : Word) 30 28
    ∧ then_ (.trkCfgWrite 1 0xA0000000) (trackOn 1 0) (fun t => t.trkLost 1)
    ∧ ((trackOn 1 0).wr (A.TT_CTL 5) 0x81000000).ttEn 5 = true ∧ ((trackOn 1 0).wr (A.TT_CTL 5) 0x81000000).ttTrk 5 = 1
    ∧ (trackOn 1 0).ttEn 5 = false
    ∧ then_ (.trkCfgWrite 1 0) (trackOn 1 0) (fun t => t.trkLost 1 && ! t.trkEn 1)
    ∧ Master.host.latchNo ≠ Master.coreA.latchNo
    ∧ then_ (.excCfgWrite 0 0x802000C8) State.reset (fun t => t.excOn 0)
    ∧ then_ (.excCfgWrite 0 0x802000C7) State.reset (fun t => ! t.excOn 0 && t.flag (A.IO_EXC_CFG 0) 30) := by
  dsimp only; and_intros <;> decide +kernel

/-- Entry 1 committed for DT 16, with an action of either die. -/
def committed (act : Nat) (s : State := State.reset) : State :=
  (s.setTt 1 { commit := some ⟨16, 0, false, 0, act, 0, 0, 0, 5⟩ }).wr (A.TT_CTL 1) (BitVec.ofNat 32 (2 ^ 31 + act * 2 ^ 20))

/-- EN cleared 16 ns and 15 ns ahead, on either die; an entry without a commit. -/
theorem test_meets_TimetableEntryAccesses :
    (let s := committed 8
     (s.getTt 1).commit = some ⟨16, 0, false, 0, 8, 0, 0, 0, 5⟩ ∧ bitOf (s.rd (A.TT_CTL 1)) 31 = true ∧ bitOf (0 : Word) 31 = false
       ∧ s.dtC + 16 ≤ 16 ∧ ({ s with dtC := 1 } : State).dtC + 16 > 16
       ∧ (({ s with dtC := 1 } : State).getTt 1).commit = some ⟨16, 0, false, 0, 8, 0, 0, 0, 5⟩
       ∧ then_ (.ttEntryWrite 1 0 0) s (fun t => (t.getTt 1).commit.isNone && t.flag (A.TT_STAT 1) 23))
    ∧ (let s := { committed 7 with linkUp := true }
       (s.getTt 1).commit = some ⟨16, 0, false, 0, 7, 0, 0, 0, 5⟩ ∧ s.linkUp = true ∧ s.dtC + 16 ≤ 16
         ∧ then_ (.ttEntryWrite 1 0 0) s (fun t => carried t.toField == [.ttCancel 1 5]))
    ∧ (State.reset.getTt 1).commit = none ∧ Master.host.latchNo ≠ Master.coreA.latchNo
    ∧ then_ (.ttEntryWrite 1 0 0xF0000000) State.reset (fun t => t.flag (A.TT_STAT 1) 24 && t.rd (A.TT_CTL 1) == 0xB0000000)
    ∧ then_ (.ttFiredWrite 15 0x80000000) ((State.reset.setFlag (A.TT_FIRED 15) 31 true).setFlag (A.TT_STAT 511) 31 true)
        (fun t => ! t.flag (A.TT_STAT 511) 31 && ! t.flag (A.TT_FIRED 15) 31) := by
  dsimp only; and_intros <;> decide +kernel

/-- An open entry on TRK0, its target 64, 65, 24 and 0 counts ahead; a track that stands. -/
def openEntry (tgt : Word) (dir : Nat := 0) : State :=
  ((State.reset.setFlag A.TT_CTRL 0 true).wr (A.TT_CTL 1) (BitVec.ofNat 32 (2 ^ 31 + dir * 2 ^ 28 + 8 * 2 ^ 20))).wr (A.TT_TGT 1) tgt

theorem test_meets_TimetablePredictionAndFirings :
    (∀ d ∈ ([0, 1, 24, 64, 65] : List Nat), (openEntry (BitVec.ofNat 32 d)).dtC % 16 = 0
        ∧ (openEntry (BitVec.ofNat 32 d)).flag A.TT_CTRL 0 = true ∧ (openEntry (BitVec.ofNat 32 d)).ttOpen 1 = true
        ∧ (openEntry (BitVec.ofNat 32 d)).predictEu 0 0 d 0 0 = some (if d = 0 then 20 * 2 ^ 32 else 20 * d))
    ∧ (let s := openEntry 64 1
       s.ttOpen 1 = true ∧ s.predictEu (s.ttTrk 1) (s.ttDir 1) (s.ttTarget 1 (s.getTt 1).k) (s.trkAng (s.ttTrk 1) s.dtC) s.dtC = none)
    ∧ State.reset.flag A.TT_CTRL 0 = false ∧ ({ openEntry 1 with dtC := 1 } : State).dtC % 16 ≠ 0
    ∧ State.reset.trkAcc 0 = 0 ∧ State.reset.trkSpeed 0 0 ≠ 0 ∧ State.reset.trkSpeed 1 0 = 0 ∧ State.reset.trkRev 0 = false
    ∧ (let c : TtCommit := ⟨16, 0, false, 0, 7, 0, 0, 0, 5⟩
       let s := committed 7
       s.dtF ≤ c.dt ∧ c.dt < ({ s with dtF := 17 } : State).dtF ∧ (({ s with dtF := 17 } : State).getTt 1).commit = some c
         ∧ then_ .ttCommit { s with dtF := 17, toField := [xf (.ttCommit 1 c)] } (fun t => t.flag (A.TT_STAT 1) 26 && t.gpaDrv == [(0, 1)])
         ∧ (let u : State := { s with dtF := 16, ttExec := [⟨1, true, c⟩] }
            u.ttExec = [⟨1, true, c⟩] ∧ c.dt ≤ u.dtF ∧ (u.getTt 1).commit = some c ∧ (u.getTt 1).restart = false
              ∧ u.fld (A.TT_CTL 1) 19 12 = 0 ∧ u.num (A.TT_STRIDE 1) = 0
              ∧ then_ .ttFire u (fun t => ! t.ttEn 1 && (t.getTt 1).k == 1)
              ∧ (u.setFld (A.TT_CTL 1) 19 12 9).fld (A.TT_CTL 1) 19 12 ≠ 0))
    ∧ (let s := ((State.reset.setTt 1 { fbAt := some 0 }).wr (A.TT_CTL 1) (BitVec.ofNat 32 (2 ^ 31 + 2 ^ 24 + 8 * 2 ^ 20)))
       (s.getTt 1).fbAt = some 0 ∧ 0 ≤ s.dtC ∧ (s.getTt 1).restart = false ∧ s.fld (A.TT_CTL 1) 23 20 = 8 ∧ s.ttEn 1 = true
         ∧ s.trkLost (s.ttTrk 1) = true ∧ s.flag A.TD_STAT 31 = false)
    ∧ (let c : TtCommit := ⟨16, 0, false, 0, 7, 0, 0, 0, 5⟩
       let s := { committed 7 with toField := [xf (.ttCancel 1 5)], ttExec := [⟨1, true, c⟩] }
       c.tok = 5 ∧ ⟨(1 : Fin 512).val, true, c⟩ ∈ s.ttExec ∧ s.dtF < c.dt ∧ (s.getTt 1).commit = some c
         ∧ then_ .ttCancel s (fun t => t.ttExec == [] && t.flag (A.TT_STAT 1) 23))
    ∧ (∀ x ∈ State.reset.ttExec, x.entry ≠ (1 : Fin 512).val) := by
  dsimp only; and_intros <;> decide +kernel

/-! ### The sense chain -/

/-- Sense channel 1 enabled with windows on, CHAIN or not. -/
def senseOn (chain : Bool := false) : State :=
  (((State.reset.setFlag (A.SN_CFG 1) 31 true).setFlag (A.SN_WCFG 1) 31 true).setFlag (A.SN_WCFG 1) 30 chain).setFld (A.SN_DIAG 1) 3 0 2

/-- Enabling, disabling and reconfiguring a channel, its settling at 20 µs and just before; windows just long enough and just too
short, chained and not, and one that runs too long. -/
theorem test_meets_SenseConfigurationAndWindowEvents :
    State.reset.snEn 1 = false ∧ bitOf (0x80000000 : Word) 31 = true ∧ (senseOn).snEn 1 = true
    ∧ bitOf (0x08000000 : Word) 27 ≠ (senseOn).flag (A.SN_CFG 1) 27 ∧ bitOf (0 : Word) 31 = false
    ∧ (let s := { (senseOn).setFlag (A.SN_STAT 1) 30 true with dtF := 20000 }
       s.snEn 1 = true ∧ s.snSettling 1 = true ∧ (s.getSn 1).enAt + 20000 ≤ s.dtF
         ∧ ({ s with dtF := 19999 } : State).dtF < (s.getSn 1).enAt + 20000
         ∧ ({ s with dtF := 19999 } : State).snSettling 1 = true)
    ∧ 5 ≤ bitsOf (0x28000000 : Word) 29 27 ∧ 48 ≤ bitsOf (0x000C0000 : Word) 19 14 ∧ bitsOf (0x000FC000 : Word) 19 14 = 63
    ∧ 48 ≤ bitsOf (0x00000F80 : Word) 11 6 ∧ bitsOf (0x00000F80 : Word) 11 6 ≤ 62
    ∧ (let s := (State.reset.setFld (A.SN_PCFG 1) 15 0 400).setFld (A.SN_DIAG 1) 3 0 1
       400 ≤ s.fld (A.SN_PCFG 1) 15 0 ∧ s.fld (A.SN_PCFG 1) 15 0 ≤ 40000 ∧ s.fld (A.SN_DIAG 1) 3 0 ≠ 0)
    ∧ then_ (.wcfgWrite 1 0x28000000) State.reset (fun t => t.flag (A.SN_STAT 1) 27)
    ∧ (senseOn).winOn 1 = true ∧ ((senseOn).getSn 1).lastSt ≠ some (senseOn).dtF ∧ ((senseOn).getSn 1).win = none
    ∧ ((senseOn).getSn 1).lastEn ≠ some (senseOn).dtF
    ∧ (let w : Win := ⟨0, 4, true, 63, 0, 63, 0, false, false⟩
       let s := { (senseOn true).setSn 1 { win := some w } with dtF := 50 }
       s.winOn 1 = true ∧ (s.getSn 1).lastSt ≠ some s.dtF ∧ (s.getSn 1).win.isSome = true ∧ (s.getSn 1).win = some w
         ∧ max w.taper 1 ≤ (20 * s.dtF + 249) / 250 - w.s ∧ w.chain = true
         ∧ (20 * ({ s with dtF := 37 } : State).dtF + 249) / 250 - w.s < max w.taper 1
         ∧ then_ (.wctlEnd 1) s (fun t => (t.getSn 1).done.length == 1 && (t.getSn 1).win.isSome)
         ∧ then_ (.wctlEnd 1) { s with dtF := 37 } (fun t => (t.getSn 1).done.length == 0 && t.flag (A.SN_STAT 1) 24))
    ∧ (let w : Win := ⟨0, 64, false, 63, 0, 63, 0, false, false⟩
       let s := { (senseOn).setSn 1 { win := some w } with dtF := 2 ^ 24 * 250 / 20 }
       s.winOn 1 = true ∧ (s.getSn 1).win = some w ∧ w.taper ≤ 64 ∧ (w.s + 2 ^ 24) * 250 ≤ 20 * s.dtF ∧ w.chain = false
         ∧ then_ (.windowLong 1) s (fun t => t.flag (A.SN_STAT 1) 23 && (t.getSn 1).win.isNone)) := by
  dsimp only; and_intros <;> decide +kernel

/-- A closed window, with DLVEN and without. -/
theorem test_meets_WindowResults :
    (let w : Win := ⟨0, 4, false, 63, 0, 63, 0, false, false⟩
     let s := { (senseOn).setSn 1 { done := [⟨w, 4, 50, false⟩] } with linkUp := true }
     (s.getSn 1).done = [⟨w, 4, 50, false⟩] ∧ max w.taper 1 ≤ 4 - w.s ∧ s.flag (A.SN_WCFG 1) 26 = false ∧ s.linkUp = true
       ∧ (s.setFlag (A.SN_WCFG 1) 26 true).flag (A.SN_WCFG 1) 26 = true
       ∧ then_ (.windowResult 1 [true, true, true, true]) s (fun t => t.flag (A.SN_WFLG 1) 31 && t.num (A.SN_WLEN 1) == 4))
    ∧ Master.host.latchNo ≠ Master.coreA.latchNo := by
  dsimp only; and_intros <;> decide +kernel

/-- A precise sample, its transfer, fast samples inside the range and at its end for the last time, a stall, and conversions. -/
theorem test_meets_SensePathsAndHousekeeping :
    (let s := { ((senseOn).setFlag (A.SN_PCFG 1) 31 true).setFld (A.SN_PCFG 1) 15 0 400 with linkUp := true }
     s.snEn 1 = true ∧ s.flag (A.SN_PCFG 1) 31 = true ∧ s.snPdecBad 1 = false ∧ s.linkUp = true
       ∧ (∀ n, n < 16 → s.flag (A.SN_PC_CFG n) 31 = false)
       ∧ pDue { s with dtF := 9986 } 1 = none ∧ pDue { s with dtF := 9987 } 1 = some 799
       ∧ pDue (({ s with dtF := 9987 } : State).setSn 1 { pLast := some 799 }) 1 = none)
    ∧ (∀ k, k < 4 → State.reset.getCap k = none) ∧ (∀ n, n < 48 → (senseOn).flag (A.DW_CFG n) 31 = false)
    ∧ (let s := { (senseOn).setFlag (A.SN_DIAG 1) 30 true with linkUp := true }
       let top : BitVec 31 := 0x7FFFFFFF
       clampI (-512) 511 ((s.snCode 1 (fSum top) 256).1 / 2 ^ 14) = 511
         ∧ clampI (-512) 511 ((s.snCode 1 (fSum 0) 256).1 / 2 ^ 14) = -512
         ∧ clampI (-512) 511 ((s.snCode 1 (fSum 0x2AAAAAAA) 256).1 / 2 ^ 14) ≠ 511
         ∧ clampI (-512) 511 ((s.snCode 1 (fSum 0x2AAAAAAA) 256).1 / 2 ^ 14) ≠ -512
         ∧ s.snSettling 1 = false ∧ s.flag (A.SN_DIAG 1) 30 = true ∧ s.fld (A.SN_DIAG 1) 3 0 ≠ 0 ∧ s.flag (A.SN_STAT 1) 28 = false
         ∧ s.fld (A.SN_DIAG 1) 3 0 ≤ ((s.setSn 1 { rngCnt := 1 }).getSn 1).rngCnt + 1 ∧ s.linkUp = true
         ∧ then_ (.fSample 1 top 0) (s.setSn 1 { rngCnt := 1 }) (fun t => t.flag (A.SN_STAT 1) 28 && t.toControl.length == 1))
    ∧ (let s := { (senseOn).setFlag (A.SN_DIAG 1) 31 true with linkUp := true }
       s.snEn 1 = true ∧ s.flag (A.SN_DIAG 1) 31 = true ∧ s.flag (A.SN_STAT 1) 29 = false
         ∧ then_ (.modStall 1) s (fun t => t.flag (A.SN_STAT 1) 22))
    ∧ (let s := { (State.reset.setFlag (A.SN_CFG 48) 31 true).setFlag (A.SN_DIAG 48) 31 true with linkUp := true }
       s.snEn 48 = true ∧ s.flag (A.SN_DIAG 48) 31 = true ∧ s.flag (A.SN_STAT 48) 29 = false ∧ (48 : Fin 72).val = 48 + (0 : Fin 24).val)
    ∧ bitOf (0x800001A7 : Word) 31 = true ∧ bitsOf (0x800001A7 : Word) 5 0 ≤ 39 ∧ bitsOf (0x800001A7 : Word) 8 6 ≠ 7
    ∧ State.reset.hk.urg = none ∧ (State.reset.setFlag A.HK_CTRL 31 true).flag A.HK_CTRL 31 = true
    ∧ then_ (.hkUrg 0x800001A8) (State.reset.setFlag A.HK_CTRL 31 true) (fun t => t.flag A.HK_STAT 29 && t.hk.urg.isNone)
    ∧ ({ State.reset with hk := { urg := some (0, 0) } } : State).hk.urg.isSome = true
    ∧ bitsOf (0 : Word) 4 0 = 0 ∧ 16 < bitsOf (17 : Word) 4 0
    ∧ (let s := { State.reset.setFlag A.HK_CTRL 31 true with hk := { urg := some (39, 6) } }
       s.flag A.HK_CTRL 31 = true ∧ s.hk.run = none ∧ s.hk.urg = some (39, 6))
    ∧ (let s := { ((State.reset.setFlag A.HK_CTRL 31 true).setFlag A.HK_CTRL 30 true).setFld A.HK_CTRL 4 0 16 with hk := { slot := 15 } }
       s.flag A.HK_CTRL 31 = true ∧ s.hk.run = none ∧ s.hk.urg = none ∧ s.flag A.HK_CTRL 30 = true ∧ s.fld A.HK_CTRL 4 0 = 16
         ∧ s.hk.slot = 15 ∧ s.fld (A.HK_SLOT 15) 5 0 ≤ 39 ∧ s.fld (A.HK_SLOT 15) 8 6 ≠ 7)
    ∧ (let s := { State.reset with hk := { run := some ⟨39, 6, true, 0⟩ }, dtF := 4000000 }
       s.hk.run = some ⟨39, 6, true, 0⟩ ∧ 0 + 62500 * 2 ^ 6 ≤ s.dtF ∧ (∀ n, n < 16 → s.flag (A.SN_PC_CFG n) 31 = false)
         ∧ (∀ k, k < 4 → s.getCap k = none)
         ∧ then_ (.hkConversionEnd 5) s (fun t => t.rd (A.HK_RES 39) == 0x80000005)) := by
  dsimp only; and_intros <;> decide +kernel

/-! ### PWM units and general outputs -/

/-- PU 1 running since 0 with a period of 2,000 EU. -/
def unitOn (mode : Nat := 0) (h : PuHid := {}) : State :=
  (((State.reset.setFlag (uCtl 1) 31 true).setFld (uCtl 1) 29 28 mode).setFlag (uStat 1) 31 true).setPu 1
    { h with per := 2000, eMid := 1000 }

/-- A set of PU 1 whose registers are those of a period `per`. -/
def setOf (per : Word) (upd : Nat) : SealedSet := ⟨7, 0, upd, per :: List.replicate 16 0⟩

theorem test_meets_UnitPeriods :
    State.reset.sharers (1 : Fin 48).val = [(1 : Fin 48).val] ∧ (State.reset.getPu 1).safe = 0 ∧ (State.reset.getPu 1).leaving = false
    ∧ (1 : Fin 48).val < 16 ∧ bitOf (0x80000000 : Word) 16 = false ∧ State.reset.sharers 17 = [17]
    ∧ State.reset.flag (uCtl 1) 31 = false ∧ bitOf (0x80000000 : Word) 30 = false ∧ (unitOn).flag (uCtl 1) 31 = true
    ∧ (unitOn).sharers 1 = [1] ∧ bitsOf (0x80800000 : Word) 29 23 ≠ (unitOn).fld (uCtl 1) 29 23
    ∧ then_ (.puCtlWrite 1 0x80000000) (authorised State.reset) (fun t => (t.getPu 1).startAt == some 400)
    ∧ (let s := { (State.reset.setPu 1 { startAt := some 400 }).wr (uAct 1 0) 2000 with dtF := 20 }
       (s.getPu 1).startAt = some 400 ∧ 400 ≤ 20 * s.dtF + 19 ∧ PlainUnit s 1 ∧ (s.getPu 1).sealQ = []
         ∧ ValidSet s 1 (fun b => s.rd (uAct 1 b)) ∧ s.uMode 1 ≠ 3
         ∧ then_ (.puStart 1) s (fun t => t.uRun 1 && (t.getPu 1).per == 2000))
    ∧ (let s := { (State.reset.setPu 1 { startAt := some 400 }).wr (uAct 1 0) 1999 with dtF := 20 }
       PlainUnit s 1 ∧ ¬ ValidSet s 1 (fun b => s.rd (uAct 1 b)))
    ∧ (let s := { unitOn 0 { sealQ := [⟨7, 1600, 0, [2000]⟩] } with dtF := 100 }
       PlainUnit s 1 ∧ s.uRun 1 = true ∧ (s.getPu 1).per ≠ 0 ∧ (s.getPu 1).t0 + (s.getPu 1).per * uTick 1 ≤ 20 * s.dtF + 19
         ∧ s.flag (uCtl 1) 27 = false ∧ 1600 + 400 ≤ 2000)
    ∧ (let s := { unitOn 0 { sealQ := [⟨7, 1601, 2, [2000]⟩] } with dtF := 100 }
       PlainUnit s 1 ∧ s.uRun 1 = true ∧ (1601 : Nat) < 2000 ∧ 2000 < 1601 + 400
         ∧ then_ (.periodBoundary 1) s (fun t => t.flag (uStat 1) 27 && (t.getPu 1).sealQ.length == 1))
    ∧ (let s := { (unitOn).setFlag (uCtl 1) 27 true with dtF := 113 }
       PlainUnit s 1 ∧ s.uRun 1 = true ∧ s.flag (uCtl 1) 27 = true ∧ (s.getPu 1).missed = false
         ∧ 2000 + (s.getPu 1).per / 8 * uTick 1 ≤ 20 * s.dtF + 19)
    ∧ (let s := { unitOn 2 { sealQ := [⟨7, 600, 1, [2000]⟩] } with dtF := 50 }
       PlainUnit s 1 ∧ s.uRun 1 = true ∧ (s.getPu 1).per ≠ 0 ∧ (s.getPu 1).midDone = false ∧ s.uMode 1 = 2
         ∧ (s.getPu 1).t0 + (s.getPu 1).eMid * uTick 1 ≤ 20 * s.dtF + 19 ∧ 600 + 400 ≤ 1000)
    ∧ (let s := { unitOn 0 with dtF := 50 }
       PlainUnit s 1 ∧ (s.getPu 1).sealQ = [] ∧ (s.getPu 1).t0 + (s.getPu 1).per / 2 * uTick 1 ≤ 20 * s.dtF + 19) := by
  unfold PlainUnit ValidSet; dsimp only; and_intros <;> decide +kernel

/-- A signal that rises and one that falls, a dead time that ends, an extended pulse that ends, and a trigger compare. -/
theorem test_meets_UnitSignalsAndOutputs :
    (let s := ((unitOn).wr (uAct 1 1) 500).wr (uAct 1 9) 50
     let u := { s with dtF := 5 }
     PlainUnit u 1 ∧ u.uRun 1 = true ∧ u.fld (uAct 1 15) 19 0 = 0 ∧ u.uOvr 1 0 = 0 ∧ u.uOvr 1 1 = 0
       ∧ u.uSigAt 1 0 (u.uPos 1 100) ≠ u.uSig 1 0 ∧ (u.getOut 1 0).on = false ∧ u.uDead 1 0 ≠ 0
       ∧ then_ (.signalEdge 1 0) u (fun t => (t.getOut 1 0).due == some 150))
    ∧ (let s := ((State.reset.setFlag (uStat 17) 31 true).wr (uAct 17 1) 50).setPu 17 { per := 100 }
       16 ≤ (17 : Fin 48).val ∧ PlainUnit s 17 ∧ s.uRun 17 = true ∧ s.fld (uAct 17 5) 19 0 = 0 ∧ s.uOvr 17 0 = 0
         ∧ s.uSigAt 17 0 (s.uPos 17 0) ≠ s.uSig 17 0
         ∧ then_ (.signalEdge 17 0) s (fun t => (t.getOut 17 0).on))
    ∧ (let s := (unitOn).setOut 1 0 { due := some 19 }
       (s.getOut 1 0).due = some 19 ∧ 19 ≤ 20 * s.dtF + 19 ∧ (s.getPu 1).safe ≠ 1 ∧ s.fld (uAct 1 (uMinpIx 1)) 19 0 = 0)
    ∧ (let s := (unitOn).setOut 1 0 { on := true, minpEnd := some 19 }
       (s.getOut 1 0).minpEnd = some 19 ∧ 19 ≤ 20 * s.dtF + 19 ∧ (s.getOut 1 0).on = true)
    ∧ (let s := { (((unitOn).wr (uAct 1 7) 1999).wr (uEvCfg 1 0) (BitVec.ofNat 32 (2 ^ 31 + 15 * 2 ^ 8 + 9))).setPu 1
          { per := 2000, evCnt := [(0, 14)] } with dtF := 99 }
       s.owner 1 = 1 ∧ s.uRun 1 = true ∧ s.uMode 1 = 0 ∧ s.uAngle 1 = false ∧ 0 < s.num (uAct 1 (uTrgIx 1 + 0))
         ∧ s.num (uAct 1 (uTrgIx 1 + 0)) < (s.getPu 1).per ∧ 0 + 1999 * uTick 1 = 20 * s.dtF + 19
         ∧ (∀ j, j < 4 → 0 < j → s.flag (uEvCfg 1 j) 31 = false) ∧ s.flag (uEvCfg 1 0) 31 = true ∧ s.fld (uEvCfg 1 0) 3 0 = 9 + 0
         ∧ s.fld (uEvCfg 1 0) 30 29 = 0 ∧ 14 + 1 ≤ s.fld (uEvCfg 1 0) 11 8
         ∧ then_ (.triggerCrossing 1 0 19) s (fun t => Sparse.get (fun _ => 0) (t.getPu 1).evCnt 0 == 15)) := by
  unfold PlainUnit; dsimp only; and_intros <;> decide +kernel

/-- Sets at and below their least period, with and without a required mark; a commit with the granted epoch and another; a transfer at
20 ns; a disagreement one EU longer than SFWIN. -/
theorem test_meets_SetsSealsAndFeedback :
    (16 : Fin 17).val < uSetLen (1 : Fin 48) ∧ uSetLen (17 : Fin 48) ≤ (7 : Fin 17).val
    ∧ (let s := State.reset.wr (uSet 1 0) 2000
       (s.getPu 1).sealQ = [] ∧ ValidSet s 1 (fun b => s.rd (uSet 1 b)) ∧ s.rd (uSetReq 1) &&& ~~~ s.rd (uWmark 1) = 0
         ∧ then_ (.seal 1 9) (authorised s) (fun t => (t.getPu 1).sealQ.length == 1 && t.fld (uStat 1) 15 8 == 9))
    ∧ (let s := (State.reset.wr (uSet 1 0) 2000).wr (uSetReq 1) 1
       (s.getPu 1).sealQ = [] ∧ ¬ (s.rd (uSetReq 1) &&& ~~~ s.rd (uWmark 1) = 0)
         ∧ then_ (.seal 1 9) (authorised s) (fun t => (t.getPu 1).sealQ.length == 0 && t.flag (uStat 1) 28))
    ∧ (let s := State.reset.wr (uSet 1 0) 1999
       ¬ ValidSet s 1 (fun b => s.rd (uSet 1 b)))
    ∧ (let s := regsOf [(uSet 44 0, 100), (uSet 45 0, 100), (uSet 46 0, 100), (uSet 47 0, 100)]
       (∀ i, i < 4 → (s.getPu (16 + 4 * 7 + i)).sealQ = [])
         ∧ (∀ i, i < 4 → ValidSet s (16 + 4 * 7 + i) (fun b => s.rd (uSet (16 + 4 * 7 + i) b))
             ∧ s.rd (uSetReq (16 + 4 * 7 + i)) &&& ~~~ s.rd (uWmark (16 + 4 * 7 + i)) = 0)
         ∧ then_ (.gpGseal 7 3) (authorised s) (fun t => (t.getPu 47).sealQ.length == 1))
    ∧ (let s := regsOf [(uSet 44 0, 100), (uSet 45 0, 100), (uSet 46 0, 100), (uSet 47 0, 99)]
       ¬ (ValidSet s 47 (fun b => s.rd (uSet 47 b)) ∧ s.rd (uSetReq 47) &&& ~~~ s.rd (uWmark 47) = 0))
    ∧ (let s := { regsOf [(A.FG_EPOCH, 1)] with linkUp := true }
       let c : Commit := ⟨3, 1, 9, 1, (setOf 2000 0).words⟩
       s.linkUp = true ∧ s.num A.FG_EPOCH = c.epoch.toNat ∧ c.epoch ≠ 0 ∧ c.unit < 16 ∧ (s.getPu c.unit).sealQ = []
         ∧ c.words.length = 17 ∧ (∀ b, b < 17 → c.words.getD b 0 &&& ~~~ setBits c.unit b = 0)
         ∧ ValidSet s c.unit (fun b => c.words.getD b 0)
         ∧ ({ regsOf [(A.FG_EPOCH, 2)] with linkUp := true } : State).num A.FG_EPOCH ≠ c.epoch.toNat)
    ∧ (let s := { unitOn 0 { sealQ := [setOf 2000 3] } with dtF := 20 }
       PlainUnit s 1 ∧ s.uRun 1 = true ∧ (s.getPu 1).sealQ = [setOf 2000 3] ∧ (setOf 2000 3).upd = 3
         ∧ (setOf 2000 3).at_ + 400 ≤ 20 * s.dtF + 19)
    ∧ (let s := { ((State.reset.setOut 1 2 { disSince := some 0 }).setFlag (A.PU_SFCFG 1) 2 true).setFld (A.PU_SFCFG 1) 27 16 1
          with linkUp := true, dtF := 2 }
       (s.getOut 1 2).disSince = some 0 ∧ (s.getOut 1 2).disRep = false ∧ s.flag (A.PU_SFCFG 1) 2 = true ∧ s.linkUp = true
         ∧ s.fld (A.PU_SFCFG 1) 27 16 ≠ 0 ∧ 0 + s.fld (A.PU_SFCFG 1) 27 16 * 40 < 20 * s.dtF + 1
         ∧ then_ (.swFeedbackDisag 1 2 1) s (fun t => t.flag (uStat 1) 21 && t.toControl.length == 1)) := by
  unfold ValidSet PlainUnit; dsimp only; and_intros <;> decide +kernel

/-! ### Comparators, brake lines and safe states -/

/-- Comparator 3 enabled on line 7, its condition true since 0, with a filter of two samples. -/
def lineDue (dt : Nat) : State :=
  { ((State.reset.wr (A.CW_CFG 3) (BitVec.ofNat 32 (2 ^ 31 + 2 * 256 + 128))).wr (A.BL_SS_CFG 5) 0x8000).setCmp 3 { since := some 0 }
    with linkUp := true, dtF := dt }

theorem test_meets_BrakeLinesMakeUnitsSafe :
    (let s := State.reset.wr (A.CW_CFG 3) 0x80000000
     s.flag (A.CW_CFG 3) 31 = true ∧ s.fld (A.CW_CFG 3) 30 29 = 0 ∧ s.fld (A.CW_CFG 3) 26 25 = 0 ∧ s.fld (A.CW_CFG 3) 22 16 < 48
       ∧ s.fld A.PW_STAT 31 29 ≠ 4 ∧ (s.getCw 3).testEnd = none
       ∧ then_ (.cwCondition 3 1) (s.setFld (A.CW_THR 3) 25 16 0) (fun t => t.flag (A.CW_STAT 3) 31 && (t.getCw 3).since == some 0)
       ∧ then_ (.cwCondition 3 0) (s.setFld (A.CW_THR 3) 25 16 0) (fun t => ! t.flag (A.CW_STAT 3) 31))
    ∧ (let s := lineDue 5
       (s.getCmp 3).since = some 0 ∧ (s.getCmp 3).fell = none ∧ s.flag (State.srcCfg 3) 31 = true
         ∧ 0 + 5 * (s.fld (State.srcCfg 3) 15 8 - 1) ≤ s.dtF
         ∧ s.flag (State.srcStat 3) 30 = false ∧ s.flag (State.srcCfg 3) 7 = true ∧ s.flag A.BL_STAT 7 = false ∧ s.linkUp = true
         ∧ s.flag (A.BL_SRC 7) 31 = false ∧ s.flag (A.BL_SS_CFG 5) (8 + 7) = true ∧ s.flag (A.BL_SS_STAT 5) 31 = false ∧ s.ssCode 5 = 0)
    ∧ (let s := (lineDue 9).setCmp 3 { since := some 0, fell := some 6 }
       (s.getCmp 3).since = some 0 ∧ (s.getCmp 3).fell = some 6 ∧ ¬ (6 + 4) / 5 * 5 ≤ s.dtF
         ∧ then_ (.brakeFilter 3) { s with dtF := 10 } (fun t => (t.getCmp 3).since == none))
    ∧ bitOf (0x80 : Word) 7 = true ∧ (State.reset.setFlag A.BL_STAT 7 true).flag A.BL_STAT 7 = true
    ∧ bitOf (0x80 : Word) 6 = false
    ∧ ((((lineDue 10).setFlag A.BL_STAT 7 true).setFlag (A.CW_STAT 3) 30 true).lineActive 7) = true
    ∧ (State.reset.setFlag A.BL_STAT 7 true).lineActive 7 = false := by
  dsimp only; and_intros <;> decide +kernel

/-- A state whose coupler's epoch is granted at the field die, one with no epoch, and one with an older epoch. -/
theorem test_meets_Authorised : Authorised (authorised State.reset) ∧ ¬ Authorised State.reset
    ∧ ¬ Authorised ((authorised State.reset).wr A.FG_EPOCH 2) := by
  unfold Authorised; decide +kernel

theorem test_meets_SafeStatesAndComparatorTests :
    (let s := (State.reset.setFlag (A.BL_SS_STAT 5) 31 true).setFlag A.FG_STAT 5 true
     s.flag (A.BL_SS_STAT 5) 31 = true ∧ s.flag A.FG_STAT 5 = true
       ∧ then_ (.blSsCfgWrite 5 0x12) (authorised s) (fun t => t.flag (A.BL_SS_STAT 5) 27))
    ∧ State.reset.flag (A.BL_SS_STAT 23) 31 = false ∧ 5 ≤ bitsOf (0x50 : Word) 6 4 ∧ 16 ≤ (23 : Fin 24).val
    ∧ bitsOf (0x10 : Word) 6 4 = 1 ∧ then_ (.blSsCfgWrite 23 0x40) (authorised State.reset) (fun t => t.flag (A.BL_SS_STAT 23) 26)
    ∧ (let s := { ((State.reset.setFlag (A.BL_SS_STAT 5) 31 true).setFld (A.BL_SS_CFG 5) 6 4 4).wr (A.BL_SS_ASC 5) 0xFFFF with dtF := 1000 }
       s.flag (A.BL_SS_STAT 5) 31 = true ∧ s.ssCode 5 = 4 ∧ (s.getSs 5).evalAt + 1000 ≤ s.dtF ∧ s.fieldClkLost = false
       ∧ s.fld A.PW_STAT 31 29 < 4
         ∧ s.trkEstimate (s.fld (A.BL_SS_CFG 5) 3 0) = some (2 ^ 32) ∧ s.num (A.BL_SS_ASC 5) * 2 ^ 16 < 2 ^ 32
         ∧ (s.setFld (A.BL_SS_CFG 5) 3 0 1).trkEstimate ((s.setFld (A.BL_SS_CFG 5) 3 0 1).fld (A.BL_SS_CFG 5) 3 0) = none
         ∧ 2 ^ 32 ≤ ((s.wr (A.BL_SS_ASC 5) 0x10000).num (A.BL_SS_ASC 5) - s.num (A.BL_SS_HYS 5)) * 2 ^ 16)
    ∧ (let s := (State.reset.setPu 2 { safe := 1 }).setOut 2 0 { due := some 5 }
       (s.getOut 2 0).due = some 5 ∧ (s.getPu 2).safe = 1 ∧ 5 ≤ 20 * s.dtF + 5 ∧ (s.getOut 2 (State.partner 0)).on = false
         ∧ s.fbPartnerOff 2 0 = true
         ∧ then_ (.safeTurnOn 2 0 5) s (fun t => (t.getOut 2 0).on))
    ∧ bitsOf (0x60000000 : Word) 30 29 = 3 ∧ 64 ≤ bitsOf (0x00400000 : Word) 22 16 ∧ 72 ≤ bitsOf (0x00480000 : Word) 22 16
    ∧ ({ State.reset with linkUp := true } : State).linkUp = true
    ∧ (let s := (State.reset.wr A.CP_STCTL 0x80000064).wr (A.CW_CFG 3) 0x80000000
       1 ≤ s.fld A.CP_STCTL 6 0 ∧ s.fld A.CP_STCTL 6 0 ≤ 100 ∧ s.flag A.CP_STCTL 31 = true ∧ s.flag (A.CW_CFG 3) 31 = true
         ∧ s.flag (A.CW_STAT 3) 31 = false ∧ (s.getCw 3).since = none ∧ s.bg.next ≤ s.dtF ∧ s.bg.swept.testBit 3 = false
         ∧ (∀ m, m < 64 → (s.getCw m).testEnd = none)
         ∧ then_ (.cwBgTest 3) s (fun t => t.bg.next == 100 * 1000000 / 64))
    ∧ State.reset.selfTested = false ∧ (State.reset.setFlag A.CP_STSTAT 31 true).selfTested = true
    ∧ (let s := { State.reset.setCw 3 { testEnd := some 400 } with dtF := 400, linkUp := true }
       (s.getCw 3).testEnd = some 400 ∧ 400 ≤ s.dtF ∧ s.flag A.CP_STSTAT 29 = false ∧ s.flag A.CP_STSTAT 30 = false
         ∧ then_ (.cwBgTestDone 3 false) s (fun t => t.flag A.CP_STSTAT 29 && t.fld A.CP_STSTAT 6 0 == 3)) := by
  dsimp only; and_intros <;> decide +kernel

/-- The partner's feedback still reads on. -/
theorem test_meets_SafeTurnOn_feedback :
    let s := ((State.reset.setPu 2 { safe := 1 }).setOut 2 0 { due := some 5 }).wr (A.PU_SFCFG 2) 2
    let u := s.wr (A.PU_SFSTAT 2) 2
    u.fbPartnerOff 2 0 = false ∧ (u.getOut 2 0).due = some 5 ∧ (u.getPu 2).safe = 1 ∧ (u.getOut 2 0).on = false := by
  decide +kernel

/-! ### The bogies -/

/-- A task of channel 0 with deadline `dl`. -/
def taskOf (st : TaskSt) (dl : Nat := 100) (ch : Nat := 0) : Task := { ch := ch, rel := 0, dl := dl, cause := 0, part := false, st := st }

/-- Bogie 0 runs a task of channel 0 at micro-PC 0x100, where a patch word stands. -/
def bogieOn (w : MicroWord) (h : BogHid := {}) (ts : List Task := []) : State :=
  (((({ State.reset with tasks := taskOf .running :: ts, patch := [(0, w)] } : State).wr (A.BG_UC_MATCH_A 0) 0x80000100).wr
    (A.BG_UC_MATCH_B 0) 1).setBog 0 { h with run := some 0, task := { h.task with pc := 0x100 } })

def envOf (h : TaskHid := {}) : MEnv := ⟨0, 0, taskOf .running, { h with pc := 0x100 }⟩

theorem test_meets_BogieTasks :
    (let s := { (State.reset.setFld (ctxA 0 0) 31 29 1).setFld (ctxA 0 6) 31 16 40 with gathers := [(0, some ⟨0, 0⟩)], dtC := 40 }
     s.getGather 0 = some ⟨0, 0⟩ ∧ s.chMode 0 = 1 ∧ bitsOf (s.ctx 0 6) 31 16 ≠ 0 ∧ 0 + bitsOf (s.ctx 0 6) 31 16 ≤ s.dtC
       ∧ then_ (.gatherTimeout 0) s (fun t => t.tasks.any (fun k => k.part && k.rel == 40)))
    ∧ (let s := { State.reset with tasks := [taskOf .queued] }
       (s.getBog 0).run = none ∧ (s.getBog 0).freeAt ≤ s.dtC ∧ s.fld (A.BGn_STAT 0) 31 30 ≠ 2 ∧ headTask s 0 = some (taskOf .queued)
         ∧ s.pport = [] ∧ (s.getCh 0).rdNext = none
         ∧ then_ (.taskDispatch 0) s (fun t => (t.getBog 0).run == some 0 && (t.getBog 0).nextAt == 72))
    ∧ (let s := { State.reset with tasks := [taskOf .preempted], chs := [(0, { save := some ({}, []) })] }
       headTask s 0 = some (taskOf .preempted) ∧ (s.getCh 0).save = some ({}, []) ∧ (s.getCh 0).rdNext = none)
    ∧ (let s := bogieOn 0 { task := { trapok := true } } [taskOf .queued 99 1]
       headTask s 0 = some (taskOf .queued 99 1) ∧ (99 : Nat) < 100
         ∧ then_ (.microTrap 0) s (fun t => (t.getBog 0).run == none && (t.getBog 0).freeAt == 12))
    ∧ (let s := { bogieOn 0 with dtC := 2001 }
       (s.getBog 0).run = some 0 ∧ s.tasks.find? (fun t => t.ch == 0 && t.st == TaskSt.running) = some (taskOf .running)
         ∧ 2000 < 0 + (s.dtC - 0) ∧ (s.fld (A.BGn_OVRB 0) 10 0 < 200 ∨ s.fld (A.BGn_OVRB 0) 10 0 = 2000)
         ∧ then_ (.bogieOverrun 0) s (fun t => t.flag (A.BGn_STAT 0) 28))
    ∧ (let s := { bogieOn 0 with dtC := 1000000 }
       (s.getBog 0).utilEnd < s.dtC / 1000000 * 1000000
         ∧ then_ (.utilWindow 0) s (fun t => t.fld (A.BGn_UTIL 0) 9 0 == 1023 && t.flag (A.BGn_IRQST 0) 4)) := by
  dsimp only; and_intros <;> decide +kernel

theorem test_meets_MicroTrap_running :
    running 0 (bogieOn 0 { task := { trapok := true } } [taskOf .queued 99 1]) = some (envOf { trapok := true }) := by rfl

theorem test_meets_ParameterPortAndRelief :
    (let s := State.reset.setLatch .coreB A.BG_PPORT_ADDR (BitVec.ofNat 32 (63 * 256 + 255))
     let n := (s.pport.filter (fun p => p.ch / 16 == bitsOf (s.getLatch .coreB A.BG_PPORT_ADDR) 13 8 / 16)).length
     n < 64 ∧ then_ (.pportData .coreB 5) s (fun t => t.pport == [⟨63, 255, 5, 0xFFFFFFFF, 0, none, 0⟩]))
    ∧ (let s := { State.reset with pport := List.replicate 64 ⟨0, 32, 0, 0, 0, none, 0⟩ }
       64 ≤ (s.pport.filter (fun p => p.ch / 16 == bitsOf (s.getLatch .coreA A.BG_PPORT_ADDR) 13 8 / 16)).length)
    ∧ (bogieOn 0).chBusy 0 = true
    ∧ (∀ w ∈ ([0, 8, 9, 13, 32, 255] : List Nat),
       let s := { State.reset with pport := [⟨0, w, 0x205, 0xFFFFFFFF, 0, none, 0⟩], dtC := 1 }
       s.chBusy 0 = false ∧ (s.getCh 0).rdNext = none ∧ s.chMode 0 = 0 ∧ (0 : Nat) < s.dtC ∧ w < 256
         ∧ then_ (.iterationBoundary 0) s (fun t => t.pport == [] && (t.ctx 0 w == if w = 8 then 5 else if w < 32 then 0 else 0x205)
             && t.flag A.BG_PPORT_STAT 30 == decide (w < 32)))
    -- a write of this very nanosecond waits; a result of the engine comes before it
    ∧ (let p : PWrite := ⟨0, 32, 5, 0xFFFFFFFF, 0, none, 0⟩
       let s := { State.reset with pport := [p] }
       then_ (.iterationBoundary 0) s (fun t => t.pport == [p]) = true
         ∧ (s.enginePort [{ p with val := 6, wb := some (0, 0) }]).pport = [{ p with val := 6, wb := some (0, 0) }, p])
    ∧ (let s := (State.reset.setFld A.BG_RELIEF 31 29 1).setFld (ctxA 5 0) 31 29 4
       s.fld A.BG_RELIEF 31 29 = 1 ∧ s.chMode 5 = 4 ∧ s.reliefFailed = false ∧ s.pport = [] ∧ s.chs = []
         ∧ then_ (.reliefAdopted ⟨3, true⟩) s (fun t => t.num (A.BGn_CNT_ECC1 4) == 3)
         ∧ s.num64 A.BG_RELDT_L A.BG_RELDT_H + 9800 ≤ ({ s with dtC := 9800 } : State).dtC)
    ∧ (let s := State.reset.setFld A.BG_RELIEF 31 29 2
       s.fld A.BG_RELIEF 31 29 = 2 ∧ (∀ k ∈ s.tasks, k.catchup = false)
         ∧ ({ taskOf .queued with catchup := true } : Task) ∈ ({ s with tasks := [{ taskOf .queued with catchup := true }] } : State).tasks) := by
  dsimp only; and_intros <;> decide +kernel


/-- t2 := t0 + t1, and a word that waits for a slot; a WAIT word to 5. -/
def addWord : MicroWord := withPar (BitVec.ofNat 144 (2 ^ 108 + 2 ^ 96 + 2 * 2 ^ 40))
def slotWord : MicroWord := withPar (BitVec.ofNat 144 (17 * 2 ^ 115))
def waitWord : MicroWord := withPar (BitVec.ofNat 144 (5 * 2 ^ 130 + 6 * 2 ^ 126 + 31 * 2 ^ 115))

theorem test_meets_MicrocodeExecution :
    (let s := bogieOn addWord { task := { t := [(0, 3), (1, 4)] } }
     (s.getBog 0).nextAt ≤ s.dtC * 9 ∧ romStub s 0x100 = none ∧ (parityOk (fetchMicro s 0x100) && legalWord (fetchMicro s 0x100) false) = true
       ∧ (interlock (envOf { t := [(0, 3), (1, 4)] }) (s.getBog 0) addWord).1 = false
       ∧ (envOf { t := [(0, 3), (1, 4)] }).waitOk (s.getBog 0) (mw addWord 119 115) = true ∧ mw addWord 113 108 = 1 ∧ mw addWord 45 40 < 16
       ∧ mw addWord 95 90 = 0 ∧ mw addWord 77 74 = 0 ∧ mw addWord 61 60 = 0 ∧ mw addWord 53 52 = 0 ∧ mw addWord 19 16 = 0
       ∧ mw addWord 129 126 ≤ 1
       ∧ then_ (.microwordIssue 0 .none) s (fun t => Sparse.get (fun _ => 0) (t.getBog 0).task.t 2 == 7 && (t.getBog 0).task.pc == 0x101))
    ∧ (let s := bogieOn slotWord
       (parityOk (fetchMicro s 0x100) && legalWord (fetchMicro s 0x100) false) = true
         ∧ (interlock (envOf {}) (s.getBog 0) slotWord).1 = false ∧ (envOf {}).waitOk (s.getBog 0) (mw slotWord 119 115) = false
         ∧ then_ (.microwordIssue 0 .none) s (fun t => (t.getBog 0).task.held && (t.getBog 0).task.pc == 0x100))
    ∧ (let s := bogieOn 1
       (parityOk (fetchMicro s 0x100) && legalWord (fetchMicro s 0x100) false) = false
         ∧ then_ (.microwordIssue 0 .none) s (fun t => t.flag (A.BGn_STAT 0) 27))
    ∧ (let s := { bogieOn waitWord with dtC := 100 }
       (parityOk (fetchMicro s 0x100) && legalWord (fetchMicro s 0x100) false) = true ∧ mw waitWord 129 126 = 6
         ∧ (interlock (envOf {}) (s.getBog 0) waitWord).1 = false ∧ (envOf {}).waitOk (s.getBog 0) (mw waitWord 119 115) = false
         ∧ (taskOf .running).dl ≤ s.dtC ∧ mw waitWord 53 52 = 0 ∧ mw waitWord 95 90 ≤ 0x14 ∧ mw waitWord 19 16 = 0
         ∧ then_ (.waitDeadline 0) s (fun t => (t.getBog 0).task.pc == 5))
    ∧ (let o : InFlight := { fu := .rot, due := 0, dsts := [(true, 3, 9)] }
       let s := bogieOn addWord { inflight := [o] }
       (s.getBog 0).inflight = [o] ∧ o.fu = .rot ∧ o.due ≤ s.dtC * 9 ∧ o.dsts = [(true, 3, 9)]
         ∧ then_ (.rotResult 0) s (fun t => Sparse.get (fun _ => 0) (t.getBog 0).task.f 3 == 9))
    ∧ (let o : InFlight := { fu := .div, due := 0, dsts := [(false, 3, 9)] }
       let s := bogieOn addWord { inflight := [o] }
       (s.getBog 0).inflight = [o] ∧ o.fu = .div ∧ o.dsts = [(false, 3, 9)])
    ∧ (let o : InFlight := { fu := .yld, due := 0, dsts := [(false, 3, 9)] }
       let s := bogieOn addWord { inflight := [o] }
       (s.getBog 0).inflight = [o] ∧ (s.getBog 0).stations = [] ∧ o.fu = .yld ∧ o.due ≤ s.dtC * 9
         ∧ then_ (.yldResult 0) s (fun t => Sparse.get (fun _ => 0) (t.getBog 0).task.t 3 == 9 && (t.getBog 0).inflight == []))
    ∧ (let x : Station := { ch := 0, tag := 2, due := 0, res := some (8, true) }
       let s := bogieOn addWord { stations := [x] }
       (s.getBog 0).run = some 0 ∧ (s.getBog 0).stations = [x] ∧ x.ch = 0 ∧ x.taken = false ∧ x.res = some (8, true) ∧ x.due ≤ s.dtC * 9
         ∧ then_ (.mapResult 0) s (fun t => Sparse.get (fun _ => 0) (t.getBog 0).task.f 2 == 8)) := by
  dsimp only; and_intros <;> decide +kernel

theorem test_meets_Microcode_running : running 0 (landDue 0 (bogieOn addWord { task := { t := [(0, 3), (1, 4)] } })) = some (envOf { t := [(0, 3), (1, 4)] })
    ∧ running 0 (landDue 0 (bogieOn slotWord)) = some (envOf {}) ∧ running 0 (landDue 0 (bogieOn 1)) = some (envOf {})
    ∧ running 0 (landDue 0 { bogieOn waitWord with dtC := 100 }) = some (envOf {}) := ⟨rfl, rfl, rfl, rfl⟩

theorem test_meets_MapStore :
    (let l : MapLoadSt := { alt := false, wb := none, v := {}, entries := [] }
     let s := farOn (State.reset.setMap 255 { load := some l })
     (s.getMap 255).load = some l ∧ l.started = true ∧ s.farUp = true ∧ l.wb = none
       ∧ then_ (.mapLoadDone 255) s (fun t => t.mapState 255 == 2))
    ∧ (let s := { State.reset with fetches := [2047] }
       s.fetches = [2047] ∧ s.bog = [] ∧ Sparse.get (fun _ => false) s.farPoison 2047 = false ∧ s.linePinned 2047 = false
         ∧ (0 : Nat) < 16 ∧ s.getLine (2047 % 2048 * 16 + 0) = none
         ∧ then_ (.cacheLineFill false) s (fun t => t.findLine 2047 == some (2047 * 16)))
    ∧ (State.reset.setFlag A.MP_CTRL 31 true).flag A.MP_CTRL 31 = true ∧ bitOf (0 : Word) 31 = false := by
  dsimp only; and_intros <;> decide +kernel

/-! ### General counters -/

/-- Counter 0 on the clock, free-running with RELOAD 5, at count `c`; its upper neighbour idle. -/
def counterAt (c : Word) (ctl : Word := 0x80000000) : State :=
  ((State.reset.wr (A.TC_CTL 0) ctl).wr (A.TC_RELOAD 0) 5).wr (A.TC_CNT 0) c

theorem test_meets_CountersCount :
    (let s := counterAt 4 0x80010000
     s.tcSrc 0 = 0 ∧ s.flag (A.TC_LINK 0) 31 = false ∧ s.tcRunning 0 = true ∧ (s.getTc 0).presc < s.fld (A.TC_CTL 0) 23 16
       ∧ ((s.setTc 0 { presc := 1 }).getTc 0).presc = s.fld (A.TC_CTL 0) 23 16 ∧ s.dtF % 4 = 0 ∧ s.fieldClkLost = false
       ∧ (s.getTc 0).clkAt ≠ some s.dtF)
    ∧ (let s := (counterAt 4).wr (A.TC_CMP0 0) 5
       s.tcSrc 0 = 0 ∧ s.tcRunning 0 = true ∧ (s.getTc 0).presc = s.fld (A.TC_CTL 0) 23 16 ∧ s.tcOneShot 0 = false
         ∧ s.tcCnt 0 ≠ s.num (A.TC_RELOAD 0) ∧ s.tcCnt 0 ≠ 2 ^ 32 - 1 ∧ s.num (A.TC_CMP0 0) = s.tcCnt 0 + 1
         ∧ then_ (.countEdge 0) s (fun t => t.num (A.TC_CNT 0) == 5 && t.flag (A.TC_STAT 0) 26))
    ∧ (let s := counterAt 5
       s.tcCnt 0 = s.num (A.TC_RELOAD 0) ∧ s.tcRunning 0 = true ∧ s.tcSrc 1 ≠ 2
         ∧ then_ (.countEdge 0) s (fun t => t.num (A.TC_CNT 0) == 0 && t.flag (A.TC_STAT 0) 27))
    ∧ (let s := ((counterAt 5).wr (A.TC_CTL 1) 0x90000000).wr (A.TC_RELOAD 1) 0xFFFFFFFF
       s.tcCnt 0 = s.num (A.TC_RELOAD 0) ∧ (0 : Nat) % 4 ≠ 3 ∧ s.tcSrc 1 = 2 ∧ s.flag (A.TC_LINK 1) 31 = false ∧ s.tcRunning 1 = true ∧ s.tcOneShot 1 = false
         ∧ s.flag (A.TC_GATE 1) 31 = false ∧ s.tcCnt 1 ≠ s.num (A.TC_RELOAD 1) ∧ s.tcCnt 1 ≠ 2 ^ 32 - 1
         ∧ then_ (.countEdge 0) s (fun t => t.num (A.TC_CNT 1) == 1 && t.num (A.TC_CNT 0) == 0))
    ∧ (let s := ((counterAt 4 0xA0000000).setFlag (A.TC_STAT 0) 30 true).wr (A.TC_END 0) 5
       s.tcRunning 0 = true ∧ s.tcOneShot 0 = true ∧ s.tcCnt 0 + 1 = s.num (A.TC_END 0) ∧ s.tcSrc 0 = 0
         ∧ then_ (.countEdge 0) s (fun t => t.flag (A.TC_STAT 0) 28))
    ∧ (let s := counterAt 4 0x88003F02
       s.tcSrc 0 = 1 ∧ s.fld (A.TC_CTL 0) 26 25 = 0 ∧ s.fld (A.TC_CTL 0) 13 8 = 63 ∧ s.flag (A.TC_TRG 0) 31 = false
         ∧ s.flag (A.TC_GATE 0) 31 = false ∧ s.flag (A.TC_LINK 0) 31 = false ∧ s.tcRunning 0 = true ∧ s.tcOneShot 0 = false
         ∧ (s.getTc 0).pins.getLsbD 63 = false ∧ ((s.setTc 0 { pins := 1 <<< 63 }).getTc 0).pins.getLsbD 63 = true
         ∧ s.fld (A.TC_CTL 0) 7 0 = 2
         ∧ then_ (.tcPinEdge 0 63 ⟨true, 2⟩) s (fun t => t.num (A.TC_CNT 0) == 5)
         ∧ then_ (.tcPinEdge 0 63 ⟨true, 1⟩) s (fun t => t.num (A.TC_CNT 0) == 4))
    ∧ (let s := (counterAt 4).setTc 0 { trig := 1 }
       (s.getTc 0).trig ≠ 0 ∧ (s.setFld (A.TC_TRG 0) 27 26 1).fld (A.TC_TRG 0) 27 26 ≤ 1
         ∧ (s.setFld (A.TC_TRG 0) 27 26 2).fld (A.TC_TRG 0) 27 26 = 2 ∧ (s.setFld (A.TC_TRG 0) 27 26 3).fld (A.TC_TRG 0) 27 26 = 3
         ∧ then_ (.tcTrigger 0) s (fun t => t.num (A.TC_CNT 0) == 0))
    ∧ (let s := { (counterAt 4).setTc 0 { late := 2, lateAt := 3 } with dtF := 4 }
       (s.getTc 0).late.testBit 1 = true ∧ (s.getTc 0).lateAt / 4 < s.dtF / 4)
    ∧ (let s := counterAt 4 0x81000000
       s.flag (A.TC_CTL 0) 24 = true ∧ (4 : Word).toNat ≤ s.tcCnt 0 ∧ s.tcCnt 0 < (5 : Word).toNat
         ∧ then_ (.tcCmpWrite 0 1 4) s (fun t => (t.getTc 0).late == 2)) := by
  dsimp only; and_intros <;> decide +kernel

theorem test_meets_CounterControl :
    (counterAt 4).tcEn 0 = true ∧ bitsOf (0x88000000 : Word) 29 27 ≠ (counterAt 4).fld (A.TC_CTL 0) 29 27
    ∧ State.reset.tcEn 0 = false ∧ bitOf (0x80000000 : Word) 31 = true
    ∧ (let s := { (counterAt 4).setTc 0 { ev := 1, evAt := 3 } with dtF := 4 }
       (s.getTc 0).evAt / 4 < s.dtF / 4 ∧
       (s.getTc 0).ev = 1 ∧ s.tcService = false ∧ s.fld (A.TC_LINK 0) 30 29 = 0 ∧ (s.setFlag A.TC_MODE 0 true).tcService = true
         ∧ then_ (.linkAction 0) s (fun t => t.num (A.TC_CNT 0) == 0))
    ∧ (let s := { ((counterAt 4).setTc 0 { ev := 2 }).setFld (A.TC_TRG 0) 27 26 3 with dtF := 4 }
       (s.getTc 0).ev = 2 ∧ s.fld (A.TC_TRG 0) 27 26 = 3 ∧ then_ (.linkAction 0) s (fun t => ! t.tcEn 0))
    ∧ bitOf (1 : Word) 0 = true ∧ bitOf (2 : Word) 0 = false
    ∧ (let s := { (((counterAt 4 0xC0000000).wr A.TC_GSTART_PU 0).wr A.TC_GSTART_GP 0).wr A.TC_GSTART_TC 3 with gstart := some 8, dtF := 8 }
       s.gstart = some 8 ∧ 8 ≤ s.dtF ∧ s.rd A.TC_GSTART_PU = 0 ∧ s.rd A.TC_GSTART_GP = 0 ∧ s.flag A.TC_GSTART_TC 0 = true
         ∧ s.tcWaiting 0 = true ∧ s.flag A.TC_GSTART_TC 1 = true ∧ s.tcWaiting 1 = false)
    ∧ (let s := (counterAt 5).wr (A.TC_CTL 1) 0x90000000
       s.tcLow 0 = (0 : Fin 32).val ∧ s.tcLow 1 ≠ (1 : Fin 32).val ∧ 1 ∈ s.tcUpper 0) := by
  dsimp only; and_intros <;> decide +kernel

/-! ### Tandem, yards, non-volatile memory and resets -/

/-- Both cores started, in tandem, at the end of the first window. -/
def tandemOn (held : List HeldWr := []) : State :=
  { (State.reset.setFlag A.SYS_BOOTSTAT 31 true).wr A.TD_CFG 0 with
    coreA := coreOf [], dtC := 256, mem := { State.reset.mem with held := held } }

/-- What of a state's held writes belongs to the window that has ended. -/
def windowWrites (s : State) : List HeldWr := s.mem.held.filter (fun h => decide (h.entered < s.mem.winStart + s.tdWindow))

theorem test_meets_TandemWindowsWatchdogAndReset :
    (let s := tandemOn
     s.unhitched = false ∧ s.started = true ∧ s.mem.tdReset = none ∧ s.rung = 0 ∧ s.mem.winStart + s.tdWindow ≤ s.dtC
       ∧ ({ s with dtC := 255 } : State).dtC < s.mem.winStart + s.tdWindow ∧ windowWrites s = [] ∧ (1 : BitVec 64) ≠ 2
       ∧ s.coreA.wait ≠ .pmsync
       ∧ then_ (.tandemWindowCompare 1 2 true) s (fun t => t.flag A.TD_STAT 27 && t.faultQ == [⟨0x10, 0, 256, false⟩])
       ∧ then_ (.tandemWindowCompare 1 1 false) (s.wr A.TD_CFG 0x80000000) (fun t => t.faultQ == [⟨0x10, 1, 256, false⟩]))
    ∧ (let s := tandemOn [.store 255 0x01000000 [1], .store 256 0x01000000 [2]]
       windowWrites s = [.store 255 0x01000000 [1]]
         ∧ then_ (.tandemWindowCompare 1 1 true) s (fun t => t.mem.held == [.store 256 0x01000000 [2]] && t.byteAt 0x01000000 == 1))
    ∧ (let s := { tandemOn [.pmwr 0] with coreA := { coreOf [] with pmwr := some (0x2000, [1, 2, 3, 4], none), wait := .pmsync } }
       windowWrites s = [.pmwr 0] ∧ s.coreA.pmwr = some (0x2000, [1, 2, 3, 4], none)
         ∧ then_ (.tandemWindowCompare 1 1 true) s (fun t => t.coreA.pmwr == some (0x2000, [1, 2, 3, 4], some 256))
         ∧ then_ (.tandemWindowCompare 1 2 true) s (fun t => t.coreA.wait == .none && t.coreA.pc == 0x1001))
    ∧ bitsOf (0xC0DE : Word) 15 0 = 0xC0DE ∧ bitsOf (0xC0DF : Word) 15 0 ≠ 0xC0DE
    ∧ (let s := { (((State.reset.setFlag A.SYS_BOOTSTAT 31 true).wr A.TD_WDOG 0x80000001).setFlag A.TD_STAT 31 true) with dtC := 1000 }
       s.wdOn = true ∧ s.started = true ∧ s.mem.tdReset = none ∧ s.coreA.dbgHalt = false ∧ s.unhitched = true
         ∧ (s.getCore .b).dbgHalt = false ∧ s.coreA.kickAt + 1000 * s.fld A.TD_WDOG 15 0 ≤ s.dtC
         ∧ ({ s with dtC := 999 } : State).dtC < s.coreA.kickAt + 1000 * s.fld A.TD_WDOG 15 0 ∧ State.reset.wdOn = false
         ∧ then_ (.watchdogExpire false) s (fun t => t.faultQ == [⟨0x12, 0, 1000, false⟩])
         ∧ then_ (.watchdogExpire true) s (fun t => t.faultQ == [⟨0x12, 1, 1000, false⟩]))
    ∧ State.reset.started = false
    ∧ (let s := { tandemOn with coreA := { coreOf [] with pmwr := some (0x2000, [1, 2, 3, 4], some 0) } }
       s.coreA.pmwr = some (0x2000, [1, 2, 3, 4], some 0) ∧ s.coreB.pmwr = none
         ∧ then_ .tdSrst s (fun t => t.sylAt 0x2003 == 4 && ! t.coreA.run))
    ∧ (let s := { tandemOn with mem := { State.reset.mem with tdReset := some 0 } }
       s.mem.tdReset = some 0 ∧ s.unhitched = false ∧ (s.setFlag A.TD_STAT 31 true).unhitched = true
         ∧ then_ (.tandemResetDone true) s (fun t => t.mem.winStart == 256 && t.flag A.TD_STAT 30))
    ∧ (tandemOn).bkOf .a = 0 ∧ (tandemOn).bkOf .b = 0
    ∧ (let s : State := { tandemOn with coreA := { coreOf [] with bk := 1 } }
       s.bkOf .a ≠ 0 ∧ s.bkOf .b ≠ 0 ∧ then_ (.tdSsctxWrite 0xF000F) s (fun t => t.rd A.TD_SSCTX == 0xF000F))
    ∧ bitOf (0x80000027 : Word) 31 = true ∧ bitsOf (0x80000027 : Word) 5 0 < 40 ∧ bitOf (0x27 : Word) 31 = false
    ∧ 40 ≤ bitsOf (0x80000028 : Word) 5 0
    ∧ bitsOf (0x80000027 : Word) 5 0 ≠ (tandemOn).ssOf .a 0 ∧ bitsOf (BitVec.ofNat 32 ((tandemOn).ssOf .a 0)) 5 0 = (tandemOn).ssOf .a 0
    ∧ (Sparse.get (fun _ => []) (tandemOn).coreA.icache 255).contains 255 = false
    ∧ (Sparse.get (fun _ => []) ({ coreOf [] with icache := [(255, [255])] } : CoreSt).icache 255).contains 255 = true := by
  dsimp only; and_intros <;> decide +kernel

theorem test_meets_YardHandovers :
    coreGroup .coreA State.reset = some (State.reset.ydOwner (0 : Fin 16).val) ∧ State.reset.ownerValid (bitsOf (10 : Word) 3 0) = true
    ∧ State.reset.flag (A.YD_OWN 0) 31 = false ∧ State.reset.ownerValid (bitsOf (11 : Word) 3 0) = false
    ∧ coreGroup .host State.reset ≠ some (State.reset.ydOwner 0) ∧ State.reset.ydOwner 15 = 10 ∧ State.reset.locked = false
    ∧ then_ (.yardHand .coreA 0 10) State.reset (fun t => (t.handOf 0).isSome)
    ∧ then_ (.yardHand .coreA 0 11) State.reset (fun t => t.flag (A.YD_OWN 0) 29)
    ∧ (let s := { State.reset with mem := { State.reset.mem with hand := [(0, some ⟨10, true, false, 0⟩)] }, ram := [(0x3FFFF, 1), (0x40000, 1)] }
       s.handOf 0 = some ⟨10, true, false, 0⟩ ∧ (10 : Nat) < 16
         ∧ then_ (.handoverDone 0) s (fun t => t.ram == [(0x40000, 1)] && t.ydOwner 0 == 10)) := by
  dsimp only; and_intros <;> decide +kernel

theorem test_meets_WindowTestsAndLineWrites :
    (let s := State.reset.wr A.YD_TESTCFG 0x8000001E
     s.flag A.YD_TESTCFG 31 = true ∧ ydSweepOk s = true ∧ s.mem.ydWin = none ∧ s.mem.ydNext ≤ s.dtC ∧ s.fld A.PW_STAT 31 29 < 3
       ∧ (∀ i, i < 8 → s.isPoison (2 * i) = false ∧ s.isPoison (2 * i + 1) = false)
       ∧ then_ (.yardWindowTest (some 7)) s (fun t => t.isPoison 15 && t.isPoison 14)
       ∧ then_ (.yardWindowTest (some 15)) s (fun t => t.fld (A.YD_ECC 0) 15 0 == 1 && t.faultQ == [])
       ∧ then_ (.yardWindowTest none) { s with poison := [(3, true)] } (fun t => t.isPoison 2 && t.faultQ == [⟨0x40, 0, 0, false⟩]))
    ∧ (let s := { State.reset with mem := { State.reset.mem with ydWin := some 0 }, dtC := 400 }
       s.mem.ydWin = some 0 ∧ 0 + 400 ≤ s.dtC ∧ ({ s with dtC := 399 } : State).dtC < 0 + 400
         ∧ Sparse.get (fun _ => 0) s.mem.ydSpared (s.fld A.YD_TESTSTAT 19 16) = 0 ∧ s.flag A.YD_TESTERR 31 = false
         ∧ then_ (.yardWindowTestDone false) s (fun t => t.flag A.YD_TESTERR 30))
    ∧ (let e : NvEntry := ⟨true, 0x200000, [(0x01000000, 1)], [], none⟩
       let s := { State.reset with mem := { State.reset.mem with nvQ := [⟨false, 0x200001, [], [], none⟩, e] } }
       s.mem.nvRun = none ∧ s.mem.nvQ.find? (fun e => e.guard) = some e)
    ∧ (let e : NvEntry := ⟨false, 0x200000, [(0x01000000, 1)], [], none⟩
       let s := { State.reset with mem := { State.reset.mem with nvQ := [e] } }
       s.mem.nvRun = none ∧ s.mem.nvQ = [e] ∧ s.mem.nvQ.find? (fun e => e.guard) = none)
    ∧ (let e : NvEntry := ⟨false, 0x200000, [(0x01000000, 1)], [], none⟩
       let s := { State.reset with mem := { State.reset.mem with nvRun := some (e, 0) }, dtC := 400 }
       s.mem.nvRun = some (e, 0) ∧ 0 + 400 ≤ s.dtC ∧ ({ s with dtC := 399 } : State).dtC < 0 + 400 ∧ e.bytes = [] ++ [(0x01000000, 1)]
         ∧ then_ .nvLineWriteDone s (fun t => t.ram == [(0x01000000, 1)] && t.mem.nvWear == [(0, 1)]))
    ∧ (2 : Fin 3).val = 2 ∧ Sparse.get (fun _ => false) State.reset.pmBad (State.reset.mem.scrub / 4) = false
    ∧ then_ (.pmScrub 1) State.reset (fun t => t.num A.PM_ECC1 == 1) := by
  dsimp only; and_intros <;> decide +kernel

theorem test_meets_StartUpAndResetKinds :
    State.reset.booted = false ∧ State.reset.coreA.run = false ∧ startOk.testen = false
    ∧ ({ State.reset with pw := { State.reset.pw with factory := true } } : State).booted = true
    ∧ startOk.otpBad = false ∧ startOk.logicOk = true ∧ startOk.memOk = true ∧ State.reset.mem.nvRun = none
    ∧ State.reset.flag A.LN_STAT 31 = false ∧ (State.reset.setFlag A.LN_STAT 31 true).flag A.LN_STAT 31 = true
    ∧ State.reset.coreA.pmwr = none ∧ State.reset.coreB.pmwr = none
    ∧ (let s := { State.reset with gd := { State.reset.gd with fdReset := true }, linkUp := true }
       s.gd.fdReset = true ∧ s.linkUp = true)
    ∧ ({ State.reset with gd := { State.reset.gd with fdReset := false } } : State).gd.fdReset = false
    ∧ ((State.reset.setFlag A.FG_STAT 31 false).limp = false) ∧ State.reset.gd.cdPend = false
    ∧ (let s := { State.reset with gd := { State.reset.gd with cdPend := true } }
       s.gd.cdPend = true ∧ s.pw.cdAfter = false) := by
  dsimp only; and_intros <;> decide +kernel

/-! ### The links and the host -/

/-- The upstream link up, the cache port and bus mastering on. -/
def hostOn (s : State := State.reset) : State := s.setFld A.LK_UPSTAT 31 28 11

theorem test_meets_HostLinkAndPtm :
    (let s := State.reset.setFlag A.LK_CTRL 31 true
     s.flag A.LK_CTRL 31 = true ∧ s.rung ≤ 2 ∧ (s.setFld A.PW_STAT 31 29 2).rung ≤ 2 ∧ 2 < (s.setFld A.PW_STAT 31 29 3).rung
       ∧ s.host.postQ = [] ∧ (s.setFlag A.LK_CTRL 31 false).flag A.LK_CTRL 31 = false
       ∧ then_ (.hostDlUp 5 2 true) { s with host := { s.host with postQ := [(7, [1])] } } (fun t => t.hostMem == [(7, 1)] && t.hostUp))
    ∧ State.reset.hostUp = false ∧ (hostOn).hostUp = true
    ∧ (let s := { (hostOn).setFlag (A.MSIX_PBA 1) 31 true with host := { State.reset.host with msixEn := true } }
       s.flag (A.MSIX_PBA (63 / 32)) (63 % 32) = true ∧ s.host.msixEn = true ∧ s.hostUp = true
         ∧ then_ (.msixUnmask 63) s (fun t => t.host.out.length == 1 && ! t.flag (A.MSIX_PBA 1) 31))
    ∧ State.reset.flag (A.MSIX_PBA 0) 0 = false ∧ State.reset.host.msixEn = false
    ∧ (let s := { (hostOn).setFlag A.LK_PTMCFG 31 true with dtC := 1000000 * max 1 ((hostOn).fld A.LK_PTMCFG 7 0) }
       s.flag A.LK_PTMCFG 31 = true ∧ s.hostUp = true ∧ s.host.ptmAt + 1000000 * max 1 (s.fld A.LK_PTMCFG 7 0) ≤ s.dtC
         ∧ ¬ ({ s with dtC := s.dtC - 1 } : State).host.ptmAt + 1000000 * max 1 (({ s with dtC := s.dtC - 1 } : State).fld A.LK_PTMCFG 7 0)
              ≤ ({ s with dtC := s.dtC - 1 } : State).dtC)
    ∧ (let s := { State.reset with host := { State.reset.host with ptmT1 := some 0 }, dtC := 20100 }
       s.host.ptmT1 = some 0 ∧ (∀ w ∈ s.host.wbs, wbOp w.ws ≠ 0x0C)
         ∧ ((s.dtC : Int) - (0 : Nat)) - (((100 : BitVec 64).toNat : Int) - ((0 : BitVec 64).toNat : Int)) = 2 * ((10000 : Nat) : Int)
         ∧ 20002 ≤ ((({ s with dtC := 20102 } : State).dtC : Int) - (0 : Nat)) - (((100 : BitVec 64).toNat : Int) - ((0 : BitVec 64).toNat : Int))
         ∧ ((({ s with dtC := 98 } : State).dtC : Int) - (0 : Nat)) - (((100 : BitVec 64).toNat : Int) - ((0 : BitVec 64).toNat : Int)) ≤ -2
         ∧ then_ (.ptmResponse 0 100) s (fun t => t.num A.LK_PTM_HT_L == 10100 && t.flag A.LK_PTMSTAT 31)
         ∧ then_ (.ptmResponse 0 100) { s with dtC := 20102 } (fun t => t.flag A.LK_PTMSTAT 30)) := by
  dsimp only; and_intros <;> decide +kernel

theorem test_meets_FarAndServiceLinksAndBar0 :
    (let s := State.reset.setFlag A.LK_CTRL 30 true
     s.flag A.LK_CTRL 30 = true ∧ s.farUp = false ∧ s.host.farUpAt = none ∧ (s.setFlag A.LK_CTRL 30 false).flag A.LK_CTRL 30 = false)
    ∧ (let s := { State.reset with host := { State.reset.host with farUpAt := some 0 }, dtC := 1000000000 }
       s.host.farUpAt ≠ none ∧ s.host.farUpAt = some 0 ∧ 0 + 1000000000 ≤ s.dtC ∧ (257 : BitVec 16) ≠ 0
         ∧ ({ s with dtC := 999999999 } : State).dtC < 0 + 1000000000
         ∧ then_ (.farBringupDone false 257 5 2) s (fun t => t.fld A.LK_FARCAP 8 0 == 256 && t.flag A.LK_FARSTAT 28)
         ∧ then_ (.farBringupDone false 256 5 2) s (fun t => t.fld A.LK_FARCAP 8 0 == 256 && ! t.flag A.LK_FARSTAT 28))
    ∧ (0x88B5 : BitVec 16) ≠ 0x88B6
    ∧ (let s := { (State.reset.wr A.LK_SVCCFG 0x80000000).setFlag A.LK_SVCSTAT 31 true with dtF := 1000000 }
       s.flag A.LK_SVCCFG 31 = true ∧ s.flag A.LK_SVCSTAT 31 = true ∧ s.rung ≤ 2
         ∧ s.host.svcAt + 1000000 * max 1 (s.fld A.LK_SVCCFG 7 0) ≤ s.dtF
         ∧ ({ s with dtF := 999999 } : State).dtF < s.host.svcAt + 1000000 * max 1 (s.fld A.LK_SVCCFG 7 0))
    ∧ (let s := { hostOn with linkUp := true }
       s.hostUp = true ∧ s.host.d3hot = false ∧ (4 : BitVec 4) ≠ 8 ∧ (0x200002 : BitVec 24).toNat % 4 ≠ 0 ∧ (0x200000 : BitVec 24).toNat % 4 = 0
         ∧ epochBlock 0x08200000 = true ∧ inField 0x08200000 = true ∧ s.linkUp = true ∧ epochBlock 0x08010000 = false
         ∧ hostWrites 0x08010000 = false ∧ inField 0x08010000 = false ∧ 0x08000000 + (BitVec.ofNat 24 A.LK_HIRQ).toNat = A.LK_HIRQ
         ∧ ({ s with host := { s.host with d3hot := true } } : State).host.d3hot = true
         ∧ then_ (.hostBar0Access 0x200000 4 (some 9)) s (fun t => carried t.toField == [.regWrite .host 0x08200000 9 none])
         ∧ then_ (.hostBar0Access 0x200000 2 (some 9)) s (fun t => t.host.out == [.hostErr 2]))
    ∧ ({ State.reset with host := { State.reset.host with msixEn := true } } : State).host.msixEn = true
    ∧ State.reset.host.msixEn = false ∧ (State.reset.setFlag (A.MSIX_CTRL 63) 0 false).flag (A.MSIX_CTRL 63) 0 = false := by
  dsimp only; and_intros <;> decide +kernel

/-- SQ 7 can fetch. -/
def ringOne : State :=
  (((hostOn (State.reset.setFlag A.HQ_CTRL 31 true)).wr (A.SQ_CFG 7) 0x80000400).wr (A.SQ_TAIL 7) 1)

/-- A parameter waybill that acts at DT 1000, and a waybill held with words `ws`. -/
def timedWb : BitVec 512 := BitVec.ofNat 512 (0x0201 + 1000 * 2 ^ 64)
def heldWb (ws : List Word) (angAt : Option Nat := none) : WbPend := { ord := 0, sq := 7, ws := ws, fetched := 0, angAt := angAt }

theorem test_meets_RingsAndFetches :
    State.reset.hostUp = false
    ∧ (let s := ringOne
       s.hostUp = true ∧ s.host.d3hot = false ∧ bitsOf (0x0700000F : Word) 31 24 = 7 ∧ s.ringOn (A.SQ_CFG 7) = true
         ∧ bitsOf (0x0700000F : Word) 11 0 < s.ringLen (A.SQ_CFG 7) ∧ bitsOf (0x0700000F : Word) 23 12 = 0
         ∧ s.ringLen (A.SQ_CFG 7) ≤ bitsOf (0x07000010 : Word) 11 0 ∧ bitsOf (0x07001000 : Word) 23 12 ≠ 0 ∧ s.ringOn (A.SQ_CFG 0) = false
         ∧ 0x24 ≤ bitsOf (0x24000000 : Word) 31 24
         ∧ then_ (.posthorn 0x0700000F) s (fun t => t.fld (A.SQ_TAIL 7) 11 0 == 15)
         ∧ then_ (.posthorn 0x07000010) s (fun t => t.flag A.HQ_STAT 29))
    ∧ State.reset.host.cmpls = [] ∧ State.reset.flag (0x080D0100 + 0x20 * 7 + 8) 31 = false ∧ (ringOne).flag (0x080D0100 + 0x20 * 7 + 8) 31 = true
    ∧ (List.range 8).find? (fun n => (ringOne).canFetch n) = some (7 : Fin 8).val
    ∧ (List.range 8).find? (fun n => State.reset.canFetch n) ≠ some (7 : Fin 8).val
    ∧ wbFormat (wbWords 0x11) = false ∧ wbFormat (wbWords 0) = true ∧ wbEffOf (wbWords 0) = 0 ∧ wbOp (wbWords 0) ≠ 0x0A
    ∧ wbFormat (wbWords timedWb) = true ∧ wbEffOf (wbWords timedWb) = 2 ∧ wbOp (wbWords timedWb) ≠ 0x0A
    ∧ wbNum (wbWords timedWb) 1 1 / 8 % 2 = 0 ∧ (ringOne).dtC + 1000 ≤ wbNum (wbWords timedWb) 8 8
    ∧ wbNum (wbWords timedWb) 8 8 < ({ ringOne with dtC := 1 } : State).dtC + 1000
    ∧ then_ (.waybillFetch 7 0 ⟨true, 0⟩) ringOne (fun t => t.host.wbs.length == 1 && t.faultQ == [])
    ∧ then_ (.waybillFetch 7 0x11 ⟨true, 0⟩) ringOne (fun t => t.faultQ == [⟨0x83, 7, 0, false⟩])
    ∧ (let w := { heldWb [0x0A] with ord := 1 }
       let s := { State.reset with host := { State.reset.host with fences := [(1, 7)], wbs := [w] } }
       s.host.fences = [(w.ord, 7)] ∧ s.host.wbs.find? (fun x => x.ord == w.ord) = some w
         ∧ (∀ x ∈ s.host.wbs, ¬ x.ord < w.ord)
         ∧ (let u := { s with host := { s.host with wbs := [heldWb [1], w] } }
            u.host.wbs.find? (fun x => x.ord == w.ord) = some w ∧ heldWb [1] ∈ u.host.wbs ∧ (heldWb [1]).ord < w.ord
              ∧ (heldWb [1]).sq = w.sq ∧ (heldWb [1]).group = none))
    ∧ (let s := { State.reset with host := { State.reset.host with inbox := [heldWb [0x0D]], wbs := [heldWb [0x0D]] } }
       bitOf (0x80000001 : Word) 31 = true ∧ bitOf (1 : Word) 31 = false ∧ s.host.inbox = heldWb [0x0D] :: []
         ∧ (∀ i ∈ ([] : List WbPend), i.ord ≠ (heldWb [0x0D]).ord)
         ∧ (∀ x ∈ s.host.wbs, wbOp x.ws = 0x0D → s.host.inbox.any (fun i => i.ord == x.ord)) ∧ bitsOf (0x80000001 : Word) 7 0 ≠ 0) := by
  dsimp only; and_intros <;> decide +kernel

theorem test_meets_WaybillEffectsAndConsists :
    (let w := heldWb [0x0101]
     let s := { (State.reset.setFld (ctxA 0 2) 31 0 0) with host := { State.reset.host with wbs := [w] }, dtC := 1000 }
     s.host.wbs.find? (fun x => State.wbEff x == 1 && x.t.isNone && ! x.acted && decide (x.fetched + 1000 ≤ s.dtC)) = some w
       ∧ wbOp w.ws ≠ 0x0A ∧ s.chUnit (wbTarget w.ws) = none)
    ∧ (∀ x ∈ State.reset.host.wbs, State.wbEff x = 3 → False)
    ∧ (let w := heldWb [0x0301] (some 0)
       let s := { State.reset with host := { State.reset.host with wbs := [w] }, dtC := 1000000000 }
       s.host.wbs = [w] ∧ State.wbEff w = 3 ∧ w.t = none ∧ w.angAt = some 0 ∧ 0 + 1000000000 ≤ s.dtC
         ∧ then_ .atAngleTimeout s (fun t => t.host.wbs == []))
    ∧ State.reset.nextWb = none
    ∧ (let f := fun (op : Word) => { State.reset with host := { State.reset.host with wbs := [heldWb [op]] } }
       (f 0).nextWb = some (0, heldWb [0]) ∧ (f 7).nextWb = some (0, heldWb [7]) ∧ (f 0x30008).nextWb = some (0, heldWb [0x30008])
         ∧ (f 0x10).nextWb = some (0, heldWb [0x10]) ∧ wbOp [0x30008] = 8 ∧ wbTarget [0x30008] < 4 ∧ (f 7).getCap (wbTarget [7]) = none
         ∧ ((f 1).setFld (ctxA 0 0) 31 29 5).nextWb = some (0, heldWb [1]) ∧ ((f 1).setFld (ctxA 0 0) 31 29 5).chMode (wbTarget [1]) = 5)
    ∧ State.reset.num (A.CS_PERIOD 1) = 0
    ∧ (let s := ((((hostOn).wr (A.CS_PERIOD 1) 1).wr (A.CS_CFG 1) 0x80000001).wr A.HQ_CTRL 3).setFld (A.YD_OWN 3) 3 0 8
       s.num (A.CS_PERIOD 1) ≠ 0 ∧ s.dtC % max (s.num (A.CS_PERIOD 1)) 10000 = 0 ∧ s.csLastOf 1 = none ∧ s.flag (A.CS_CFG 1) 31 = true
         ∧ s.hostUp = true ∧ s.flag A.LK_UPSTAT 29 = true ∧ s.flag A.LK_UPSTAT 28 = true ∧ s.stagingOk = true ∧ s.host.csPub = []
         ∧ s.num (A.CS_GEN 1) ≠ 0xFFFFFFFF ∧ ({ s with dtC := 9999 } : State).dtC % max (s.num (A.CS_PERIOD 1)) 10000 ≠ 0
         ∧ (s.setFlag A.LK_UPSTAT 31 false).hostUp = false ∧ (s.setFlag A.LK_UPSTAT 31 false).csLastOf 1 = none
         ∧ then_ (.consistPeriod 1) s (fun t => t.host.csPub == [(1, 1, 0)]))
    ∧ ({ hostOn with host := { State.reset.host with csPub := [(1, 1, 0)] } } : State).host.csPub = ((1 : Fin 2).val, 1, 0) :: [] := by
  dsimp only; and_intros <;> decide +kernel

/-- Unit 1 runs with a period of 2,000 EU from 0: its next boundary after 1,000 ns. -/
theorem test_meets_NextUpdate_unit :
    let s := { ((unitOn).setFld (ctxA 0 2) 31 0 0x44000000).wr (uAct 1 0) 2000 with host := { State.reset.host with wbs := [heldWb [0x0101]] }, dtC := 1000 }
    s.chUnit (wbTarget [0x0101]) = some 1 ∧ (1 : Nat) < 16 ∧ s.uRun 1 = true ∧ (boundaryAfter (s.noticeNow 1) (0 + 1000)).isSome := by decide +kernel

/-! ### The guard -/

/-- The guard with one fault waiting. -/
def faultIn (id inst : Nat) (s : State := State.reset) : State := { s with faultQ := [⟨id, inst, 0, false⟩] }

theorem test_meets_FaultsAndReactions :
    State.reset.faultQ = [] ∧ (State.reset.setFld A.PW_STAT 31 29 5).rung = 5
    ∧ (let s := faultIn 0x92 255
       s.arriveFaults.faultQ = [⟨0x92, 255, 0, false⟩]
         ∧ { State.reset with toControl := [xf (.fault ⟨0x92, 255, 0, true⟩)] }.arriveFaults.faultQ = [⟨0x92, 255, 0, true⟩] ∧ s.rung ≠ 5 ∧ s.gd.cdPend = false ∧ (0x92 : Nat) < 256 ∧ (255 : Nat) < 256
         ∧ s.flag (State.logBitA 0x92 255) (255 % 32) = false)
    ∧ (let r := fun (id v : Nat) => (faultIn id 0).setFld (reactA id) 2 0 v
       (r 0x61 0).reaction 0x61 = 0 ∧ (r 0x61 1).reaction 0x61 = 1 ∧ (r 0x10 2).reaction 0x10 = 2 ∧ (r 0x20 3).reaction 0x20 = 3
         ∧ (r 0x61 4).reaction 0x61 = 4 ∧ (r 0x61 5).reaction 0x61 = 5 ∧ (r 0x61 6).reaction 0x61 = 6
         ∧ ((r 0x10 2).setFlag A.SYS_BOOTSTAT 31 true).started = true ∧ (r 0x10 2).mem.tdReset = none ∧ (r 0x10 2).gd.tandemAt = none
         ∧ ({ r 0x10 2 with gd := { State.reset.gd with tandemAt := some 0 }, dtC := 999999999 } : State).dtC < 0 + 1000000000
         ∧ (r 0x61 6).rung = 0
         ∧ then_ .faultArrival (r 0x61 1) (fun t => t.flag A.GD_IRQST 5 && t.logCount == 1)) := by
  dsimp only; and_intros <;> decide +kernel

theorem test_meets_GuardRegistersAndLogbook :
    faultNamed 0x00 = false ∧ faultNamed 0x61 = true ∧ State.reset.locked = false ∧ (State.reset.setFlag A.GD_STAT 31 true).locked = true
    ∧ bitsOf (7 : Word) 2 0 = 7 ∧ bitsOf (3 : Word) 2 0 = 3 ∧ ¬ (0x20 ≤ 0x61 ∧ 0x61 ≤ 0x23)
    ∧ State.reset.fld (reactA 0x61) 6 4 ≤ bitsOf (6 : Word) 2 0
    ∧ then_ (.gdReactWrite 0x61 6) State.reset (fun t => t.fld (reactA 0x61) 2 0 == 6)
    ∧ (let s := { State.reset.setFld A.GD_STAT 23 0 (2 ^ 23) with
                  gd := { State.reset.gd with causes := [(23, 0x61, 23)] }, active := [(0x61 * 256 + 23, true)] }
       (0x800000 : BitVec 24).toNat.testBit 23 = true ∧ s.gsafe.testBit 23 = true ∧ s.causeActive 23 = true)
    ∧ ({ State.reset with linkUp := true } : State).linkUp = true ∧ ({ State.reset with linkUp := false } : State).linkUp = false
    ∧ outsideFault 0x92 = true ∧ outsideFault 0x61 = false
    ∧ (let s := { State.reset with gd := { State.reset.gd with pend := [⟨0x61, 1, 2, 3, [4], 4, 5⟩] } }
       s.gd.pend = [⟨0x61, 1, 2, 3, [4], 4, 5⟩] ∧ s.mem.nvQ = [] ∧ s.mem.nvRun = none)
    ∧ bitOf (0 : Word) 31 = false ∧ bitOf (0x80006101 : Word) 31 = true
    ∧ (State.reset.wr A.GD_LOGKEY 0).rd A.GD_LOGKEY = 0
    ∧ (let s := ((State.reset.wr A.GD_LOGKEY 9).wr A.GD_LOGKEYIN 9).setFlag (State.logBitA 0x61 1) 1 true
       s.rd A.GD_LOGKEY ≠ 0 ∧ s.rd A.GD_LOGKEYIN = s.rd A.GD_LOGKEY ∧ bitOf (0x80006101 : Word) 30 = false ∧ bitOf (0x80006101 : Word) 29 = false
         ∧ s.flag (State.logBitA (bitsOf (0x80006101 : Word) 15 8) (bitsOf (0x80006101 : Word) 7 0)) (bitsOf (0x80006101 : Word) 7 0 % 32) = true
         ∧ s.idActive 0x61 = false ∧ ({ s with active := [(0x6101, true)] } : State).idActive 0x61 = true
         ∧ then_ (.gdLogclr 0x80006101) { s with active := [(0x6101, true)] } (fun t => t.flag A.GD_STAT 28)) := by
  dsimp only; and_intros <;> decide +kernel


/-! ### The coupler -/

/-- The field die with one transfer on its way to it, in limp or out of it. -/
def toF (m : LinkMsg) (limp : Bool := true) : State :=
  { State.reset.setFlag A.FG_STAT 31 limp with toField := [xf m], linkUp := true }

/-- The control die with one transfer on its way to it. -/
def toC (m : LinkMsg) : State := { State.reset with toControl := [xf m], linkUp := true }

theorem test_meets_Oldest_coupler :
    Oldest (toF (.claim 1 2 3)).toField (.claim 1 2 3) [] ∧ Oldest (toC (.grant 0 1)).toControl (.grant 0 1) []
    ∧ Oldest (toC (.refuse 0 5 1)).toControl (.refuse 0 5 1) [] ∧ Oldest (toF (.releaseLimp 0 0)).toField (.releaseLimp 0 0) []
    ∧ Oldest (toC (.released 3)).toControl (.released 3) [] ∧ Oldest (toF (.heartbeat 1)).toField (.heartbeat 1) []
    ∧ Oldest (toC (.status true false 1 2)).toControl (.status true false 1 2) []
    ∧ Oldest (toC (.reject 1 2 true)).toControl (.reject 1 2 true) [] ∧ Oldest (toF .suspend).toField .suspend []
    ∧ Oldest (toC .limpNotice).toControl .limpNotice [] ∧ Oldest (toC .llClear).toControl .llClear [] := by
  and_intros <;> exact test_meets_Oldest _ _

theorem test_meets_ClaimsAndReleases :
    (let s := toF (.claim 1 2 3)
     s.linkUp = true ∧ (toF (.claim 1 2 3) false).limp = false ∧ s.limp = true ∧ s.anyLine = false ∧ s.limpLock = false
       ∧ (s.setFld A.BL_STAT 7 0 0x80).anyLine = true ∧ (s.setFlag A.FG_STAT 30 true).limpLock = true
       ∧ (s.setFlag A.FG_STAT 30 true).anyLine = false ∧ s.num A.FG_EPOCH < 1 ∧ 1 < 2 ^ 32
       ∧ 1 ≤ (s.wr A.FG_EPOCH 1).num A.FG_EPOCH ∧ (s.wr A.FG_EPOCH 0xFFFFFFFE).num A.FG_EPOCH < 0xFFFFFFFF
       ∧ then_ .claim s (fun t => carried t.toControl == [.grant 2 1] && t.num A.FG_EPOCH == 1)
       ∧ then_ .claim (s.wr A.FG_EPOCH 1) (fun t => carried t.toControl == [.refuse 2 4 1]))
    ∧ (let s := (toC (.grant 7 1)).wr A.CPL_NONCE 7
       7 = s.num A.CPL_NONCE ∧ 7 ≠ (toC (.grant 7 1)).num A.CPL_NONCE ∧ then_ .grant s (fun t => t.locked && t.num A.CPL_EPOCH == 1))
    ∧ (let s := { toC (.refuse 7 5 1) with gd := { State.reset.gd with shake := [⟨false, 7, 0⟩] } }
       s.gd.shake = [⟨false, 7, 0⟩] ∧ (⟨false, 7, 0⟩ : Handshake).nonce = 7 ∧ (∀ h ∈ (toC (.refuse 7 5 1)).gd.shake, h.nonce ≠ 7)
         ∧ s.dtC < (0 : Nat) + 2000 ∧ (0 : Nat) + 2000 ≤ ({ s with dtC := 2000 } : State).dtC
         ∧ then_ .refuse s (fun t => t.fld A.CPL_STAT 2 0 == 5)
         ∧ then_ .claimTimeout { s with dtC := 2000 } (fun t => t.fld A.CPL_STAT 2 0 == 7)
         ∧ then_ .claimTimeout { s with dtC := 1999 } (fun t => t.fld A.CPL_STAT 2 0 == 0))
    ∧ (let s := toF (.releaseLimp 0 9)
       let g := { s with gd := { s.gd with granted := true } }
       s.limp = true ∧ s.limpLock = false ∧ (toF (.releaseLimp 0 9) false).limp = false ∧ (s.setFlag A.FG_STAT 30 true).limpLock = true
         ∧ (0 : Nat) = s.num A.FG_EPOCH ∧ 0 ≠ (s.wr A.FG_EPOCH 1).num A.FG_EPOCH ∧ s.gd.granted = false ∧ g.gd.granted = true
         ∧ g.allSealed = true ∧ (g.setFlag (uCtl 47) 31 true).allSealed = false
         ∧ then_ .releaseLimp g (fun t => ! t.limp && carried t.toControl == [.released (g.num A.FG_EPOCH)])
         ∧ then_ .releaseLimp (g.setFlag (uCtl 47) 31 true) (fun t => carried t.toControl == [.refuse 9 6 (g.num A.FG_EPOCH)])) := by
  dsimp only; and_intros <;> decide +kernel

/-- R410, R412: after a field-die reset FG_GSAFE stays 0 until a CLAIM, and then follows the guard. -/
theorem test_gsafe_waits_for_a_claim :
    (let s := toF (.gsafe 5)
     Oldest s.toField (.gsafe 5) [] ∧ s.gd.fgShut = true ∧ then_ .gsafeUpdate s (fun t => t.fld A.FG_STAT 23 0 == 0 && t.toField.isEmpty))
    ∧ (let s := { toF (.gsafe 5) with gd := { State.reset.gd with fgShut := false } }
       s.gd.fgShut = false ∧ then_ .gsafeUpdate s (fun t => t.fld A.FG_STAT 23 0 == 5))
    ∧ (let s := toF (.claim 0 2 5)
       then_ .claim s (fun t => t.fld A.FG_STAT 23 0 == 5 && ! t.gd.fgShut)) := by
  dsimp only; and_intros <;> first | decide +kernel | exact ⟨_, rfl, rfl⟩

theorem test_meets_HeartbeatsLimpAndStatus :
    (let s := { State.reset.setFlag A.CPL_CTRL 29 true with linkUp := true, dtC := 1000 }
     s.dtC % 1000 = 0 ∧ s.flag A.CPL_CTRL 29 = true ∧ s.gd.copyBad = false ∧ s.rung < 2 ∧ s.gd.hbFrom ≤ s.dtC ∧ s.linkUp = true
       ∧ ({ s with dtC := 1999 } : State).dtC % 1000 ≠ 0 ∧ then_ .heartbeatSend s (fun t => carried t.toField == [.heartbeat 0]))
    ∧ (let s := (toF (.heartbeat 1) false).wr A.FG_EPOCH 1
       1 = s.num A.FG_EPOCH ∧ (1 : Nat) ≠ 0 ∧ 1 ≠ (toF (.heartbeat 1)).num A.FG_EPOCH ∧ 0 = (toF (.heartbeat 0)).num A.FG_EPOCH)
    ∧ (let s := { toF .safeAll false with dtF := 4000, gd := { State.reset.gd with watchFrom := some 0 } }
       State.reset.gd.watchFrom = none ∧ s.gd.watchFrom = some 0 ∧ 0 + 4000 ≤ s.dtF ∧ ({ s with dtF := 3999 } : State).dtF < 0 + 4000
         ∧ s.linkUp = true ∧ s.limp = false ∧ s.limpLock = false ∧ s.gd.losses = [] ∧ (s.setFlag A.FG_STAT 31 true).limp = true
         ∧ then_ .couplingLoss s (fun t => t.limp && t.fld A.FG_LOSSCNT 31 0 == 1 && ! t.limpLock)
         ∧ then_ .couplingLoss (s.setFld A.FG_CFG 3 0 1) (fun t => t.limpLock))
    ∧ (1 ≠ (toC (.status true false 1 2)).num A.CPL_EPOCH ∧ 0 = (toC (.status true false 0 2)).num A.CPL_EPOCH)
    ∧ (let s := { State.reset with dtC := 4000, gd := { State.reset.gd with statusAt := 0 } }
       s.gd.statusAt + 4000 ≤ s.dtC ∧ s.gd.statusLost = false ∧ s.rung < 2 ∧ ¬ s.gd.statusAt + 4000 ≤ ({ s with dtC := 3999 } : State).dtC)
    ∧ (let s := { State.reset.setFlag A.FG_STAT 30 true with linkUp := true }
       bitsOf (0x4C4C : Word) 15 0 = 0x4C4C ∧ bitsOf (0x4C4D : Word) 15 0 ≠ 0x4C4C ∧ s.limpLock = true ∧ s.linkUp = true
         ∧ ¬ ((∃ i ∈ [0x100, 0x200, 0x401, 0x402], Sparse.get (fun _ => false) s.active i = true) ∨ s.fieldClkLost = true)
         ∧ (∃ i ∈ [0x100, 0x200, 0x401, 0x402], Sparse.get (fun _ => false) ({ s with active := [(0x402, true)] } : State).active i = true)
         ∧ ({ s with fieldClkLost := true } : State).fieldClkLost = true
         ∧ then_ (.fgLlclr 0x4C4C) s (fun t => ! t.limpLock && carried t.toControl == [.llClear]))
    ∧ (let s := { State.reset.setFlag A.FG_STAT 31 false with dtF := 500 }
       s.dtF % 500 = 0 ∧ s.limp = false ∧ ({ s with dtF := 501 } : State).dtF % 500 ≠ 0 ∧ State.reset.limp = true) := by
  dsimp only; and_intros <;> decide +kernel

/-! ### The power ladder, the Lantern island -/

/-- Rung `r`. -/
def onRung (r : Nat) (s : State := State.reset) : State := s.setFld A.PW_STAT 31 29 r

theorem resumeHash_pw (s : State) (p : PwrHid) : resumeHash { s with pw := p } = resumeHash s := rfl

theorem test_meets_RungsAndWakes_resume :
    let b : State := { State.reset with sc := { State.reset.sc with sealed_ := true, stored := [[], [], List.replicate 32 0] } }
    let s : State := { b with pw := { b.pw with exit := some 3, resume := some (resumeHash b) } }
    s.pw.exit = some 3 ∧ s.pw.resume = some (resumeHash s) ∧ patchSame s = true ∧ s.sc.sealed_ = true := by
  intro b s
  exact ⟨rfl, congrArg some (resumeHash_pw b _).symm, by decide +kernel, rfl⟩

theorem test_meets_RungsAndWakes_changed :
    let s : State := { State.reset with pw := { State.reset.pw with exit := some 3, resume := none } }
    ¬ s.pw.resume = some (resumeHash s) := by
  intro s h; cases h

theorem test_meets_RungsAndWakes :
    (bitOf (1 : Word) 31 = false ∧ bitOf (0x80000001 : Word) 31 = true ∧ State.reset.pwReason (bitsOf (0x80000001 : Word) 2 0) = 0
       ∧ State.reset.pwReason (bitsOf (0x80000007 : Word) 2 0) = 6
       ∧ ((State.reset.setFld (ctxA 63 0) 31 29 4).chMode 63 = 4 ∧ (63 : Nat) < 64)
       ∧ then_ (.pwReq 0x80000007) State.reset (fun t => t.fld A.PW_STAT 24 22 == 6 && t.flag A.PW_STAT 25))
    ∧ (let s := (State.reset.setFlag A.LN_WAKEEN 15 true).setFlag A.LN_STAT 30 true
       State.reset.flag A.LN_WAKEEN (15 : Fin 16) = false ∧ s.flag A.LN_WAKEEN (15 : Fin 16) = true
         ∧ s.flag A.LN_WAKEDIR (15 : Fin 16) = false ∧ State.effective (15 : Fin 16) s.wakeRung = true ∧ s.pw.req = none
         ∧ s.pw.entry = none ∧ s.pw.exit = none ∧ (s.setFlag A.LN_WAKEDIR 15 true).flag A.LN_WAKEDIR (15 : Fin 16) = true
         ∧ s.flag A.LN_STAT 30 = true ∧ (onRung 1 s).rung = 1 ∧ (onRung 2 s).rung = 2
         ∧ then_ (.wakeSource ⟨15, 0⟩) (onRung 1 (s.setFlag A.LN_WAKEDIR 15 true) |>.setFld A.LK_UPSTAT 7 6 1) (fun t => t.rung == 0 && t.fld A.PW_STAT 28 26 == 1)
         ∧ (wakeOf ⟨15, 0⟩ ((onRung 1 s).setFld A.LK_UPSTAT 7 6 1)).isSome = true ∧ (wakeOf ⟨15, 0⟩ s).isSome = false
         ∧ then_ (.wakeSource ⟨9, 7⟩) s (fun t => ! t.flag A.LN_WAKEPEND 9)
         ∧ then_ (.wakeSource ⟨9, 7⟩) (s.setFlag A.LN_GPAWAKE 7 true) (fun t => t.flag A.LN_WAKEPEND 9))
    ∧ (let s := onRung 5
       bitsOf (0x80000004 : Word) 2 0 = 4 ∧ bitsOf (0x80000000 : Word) 2 0 = 0 ∧ s.rung = 5 ∧ s.pw.exit = none ∧ s.rung ≠ 0
         ∧ (s.setFlag A.LN_STAT 30 false).flag A.LN_STAT 30 = false ∧ bitsOf (0x80000002 : Word) 2 0 ≠ 0
         ∧ bitsOf (0x80000002 : Word) 2 0 ≠ 4 ∧ (onRung 3).rung ≠ 5 ∧ (onRung 3).pw.entry ≠ some 5
         ∧ then_ (.lnWake 0x80000004) s (fun t => t.rung == 4 && t.limp))
    ∧ (let s := { State.reset with pw := { State.reset.pw with req := some 2 }, coreA := { State.reset.coreA with wait := .wfi },
                                   linkUp := true }
       State.reset.pw.req = none ∧ s.pw.req = some 2 ∧ s.allWfi = true ∧ s.mem.held = [] ∧ s.toField = []
         ∧ ({ s with coreA := State.reset.coreA } : State).allWfi = false ∧ s.linkUp = true ∧ 2 ≤ 2
         ∧ then_ .rungEntry s (fun t => t.pw.entry == some 2 && carried t.toField == [.suspend]))
    ∧ (let s := { State.reset with pw := { State.reset.pw with entry := some 2 } }
       State.reset.pw.entry = none ∧ s.pw.entry = some 2 ∧ underWay .suspend s.toField = false ∧ s.pw.wake = none
         ∧ underWay .suspend (toF .suspend).toField = true ∧ ({ s with pw := { s.pw with wake := some 0 } } : State).pw.wake = some 0
         ∧ s.pw.exit = none ∧ ({ s with pw := { s.pw with entry := some 5 } } : State).pw.entry = some 5
         ∧ then_ .rungEntryDone s (fun t => t.rung == 2 && ! t.linkUp)
         ∧ then_ .rungEntryDone { s with pw := { s.pw with entry := some 4 }, regs := (s.wr (A.PU_ACT_OUTCTL 3) 4).regs }
             (fun t => t.pinHigh 3 2 && ! t.pinHigh 3 1))
    ∧ (let x := fun (r : Nat) => { State.reset with pw := { State.reset.pw with exit := some r } }
       (x 2).pw.exit = some 2 ∧ (x 4).pw.exit = some 4 ∧ (x 5).pw.exit = some 5 ∧ (x 3).pw.exit ≠ some 2 ∧ (x 3).pw.exit ≠ some 4
         ∧ (x 3).pw.exit ≠ some 5 ∧ (x 2).pw.exit ≠ some 3 ∧ startOk.otpBad = false ∧ (⟨true, true, true, true, true, false, 0, false, none⟩ : StartOut).otpBad = true
         ∧ (x 4).selfTested = false ∧ ((x 5).setFlag A.CP_STSTAT 31 true).selfTested = true
         ∧ then_ (.rungExitDone startOk) (x 2) (fun t => t.rung == 0 && t.linkUp)) := by
  dsimp only; and_intros <;> first | decide +kernel | exact ⟨63, by decide, by decide +kernel⟩

theorem test_meets_LanternAndSupplies :
    (let s := ((State.reset.setFlag (A.LN_LWCFG 7) 31 true).setFld (A.LN_LWCFG 7) 9 0 400).setFld (A.LN_LWCFG 7) 26 23 2
     s.flag (A.LN_LWCFG (7 : Fin 8)) 31 = true ∧ s.flag (A.LN_LWCFG (7 : Fin 8)) 30 = false ∧ State.reset.flag (A.LN_LWCFG (7 : Fin 8)) 31 = false
         ∧ s.fld (A.LN_LWCFG 7) 9 0 * 2500 < (1000001 : BitVec 32).toNat ∧ ¬ s.fld (A.LN_LWCFG 7) 9 0 * 2500 < (1000000 : BitVec 32).toNat
         ∧ s.rtc % 2 ^ s.fld (A.LN_LWCFG (7 : Fin 8)) 29 27 = 0 ∧ Sparse.get (fun _ => none) s.pw.lwAt 7 ≠ some s.rtc
         ∧ then_ (.lwSample 7 1000001) { s with pw := { s.pw with lwAt := [(7, some 0)] } } (fun t => t.pw.lwCnt == [])
         ∧ Sparse.get (fun _ => 0) s.pw.lwCnt 7 + 1 < max 1 (s.fld (A.LN_LWCFG 7) 26 23)
         ∧ (let u := { s with pw := { s.pw with lwCnt := [(7, 1)] } }
            max 1 (u.fld (A.LN_LWCFG 7) 26 23) ≤ Sparse.get (fun _ => 0) u.pw.lwCnt 7 + 1
              ∧ Sparse.get (fun _ => false) u.pw.lwTrue 7 = false
              ∧ Sparse.get (fun _ => false) ({ u with pw := { u.pw with lwTrue := [(7, true)] } } : State).pw.lwTrue 7 = true
              ∧ then_ (.lwSample 7 1000001) u (fun t => t.flag A.LN_WAKEPEND 7))
         ∧ (s.setFlag (A.LN_LWCFG 7) 30 true).flag (A.LN_LWCFG (7 : Fin 8)) 30 = true
         ∧ (999999 : BitVec 32).toNat < (s.setFlag (A.LN_LWCFG 7) 30 true).fld (A.LN_LWCFG 7) 9 0 * 2500)
    ∧ (let s := (State.reset.wr A.LN_ALARM_L 1).wr A.LN_ALARM_H 0
       s.rtc ≠ s.num64 A.LN_ALARM_L A.LN_ALARM_H ∧ (s.wr A.LN_RTC_L 1).rtc = (s.wr A.LN_RTC_L 1).num64 A.LN_ALARM_L A.LN_ALARM_H
         ∧ s.pw.alarmAt ≠ some s.rtc ∧ then_ .rtcAlarm (s.wr A.LN_RTC_L 1) (fun t => t.flag A.LN_WAKEPEND 8 && t.pw.alarmAt == some 1)
         ∧ (onRung 5).rung = 5 ∧ s.rung ≠ 5)
    ∧ (State.reset.flag A.LN_STAT 29 = false ∧ (State.reset.setFlag A.LN_STAT 29 true).flag A.LN_STAT 29 = true)
    ∧ (let s := { (State.reset.setFlag A.LN_STAT 31 true).setFlag A.LN_STAT 30 false with linkUp := true }
       s.flag A.LN_STAT 31 = true ∧ s.flag A.LN_STAT 30 = false ∧ (s.setFlag A.LN_STAT 30 true).flag A.LN_STAT 30 = true
         ∧ s.linkUp = true ∧ s.rung ≤ 3 ∧ (s.setFlag A.LN_STAT 31 false).flag A.LN_STAT 31 = false ∧ (onRung 3 s).rung ≤ 3
         ∧ then_ .vsupUv s (fun t => t.rung == 4 && t.limpLock)
         ∧ then_ .vsupUv (s.setFlag A.LN_STAT 31 false) (fun t => t.rung == 0 && carried t.toControl == [.fault ⟨0x01, 0, 0, true⟩])) := by
  dsimp only; and_intros <;> decide +kernel

/-! ### Balls (R491–R495) -/

/-- The example of R491: PW05_BL at B2, SF05_BL at E2; and the counts of its table. -/
theorem test_balls :
    ballOf 1 2 = .pw 5 3 ∧ ballOf 4 2 = .sf 5 3 ∧ ballOf 8 32 = .gpa 63 ∧ ballOf 11 32 = .sn 47 true ∧ ballOf 13 16 = .sx 23 true
      ∧ ballOf 11 33 = .vsel 11 ∧ ballOf 29 34 = .far 3 3 ∧ ballOf 29 16 = .hup 3 3 ∧ ballOf 33 24 = .vsup ∧ ballOf 16 32 = .reserved := by
  decide +kernel

theorem test_ball_counts :
    let all := (List.range 34).flatMap (fun r => (List.range 34).map (fun c => ballOf r (c + 1)))
    all.countP (· == .gnd) = 537 ∧ all.countP (· == .reserved) = 12 ∧ all.countP (fun b => match b with | .far _ _ => true | _ => false) = 16 := by
  decide +kernel

theorem test_pads :
    let s := (State.reset.setFlag A.LN_STAT 30 true).setFlag A.FG_STAT 31 false
    State.reset.unitPad 0 0 = .hiZ ∧ s.unitPad 0 0 = .low ∧ (onRung 5 s).gpaPad 3 = .pullDown ∧ s.excPad 1 = .low
      ∧ ({ s with errout := true } : State).erroutPad false = .high ∧ ({ s with errout := true } : State).erroutPad true = .low
      ∧ (s.driveGpa 3 1).gpaPad 3 = .high ∧ ({ s with pw := { s.pw with vsel := 1 } } : State).bankLevel 0 = 5000 := by
  dsimp only; and_intros <;> decide +kernel

/-! ### Odometer, security, debug -/

theorem test_meets_MarginsSupplyAndBogieClock :
    (let s := (State.reset.setFld A.OD_VCD 3 0 8).setFlag A.OD_CTRL 31 true
     let e := { s with dtC := s.odPeriod * 2 }
     e.dtC % e.odPeriod = 0 ∧ e.rung < 2 ∧ ({ e with dtC := e.odPeriod - 1 } : State).dtC % e.odPeriod ≠ 0 ∧ 2 ≤ (onRung 2 e).rung
       ∧ e.flag A.OD_CTRL 31 = true ∧ (State.reset.wr A.OD_CTRL 0).flag A.OD_CTRL 31 = false ∧ e.od.settling = false ∧ e.idActive 0x03 = false
       ∧ (-1 : BitVec 32).toInt < (e.fld A.OD_SLACKTH 7 0 : Int) ∧ (-1 : BitVec 32).toInt < (e.fld A.OD_SLACKLOW 7 0 : Int)
       ∧ Sparse.get (fun _ => false) e.od.low 0 = false ∧ e.odCode < 15 ∧ (e.setFld A.OD_VCD 3 0 15).odCode = 15 ∧ e.od.exhausted = false
       ∧ (e.fld A.OD_SLACKTH 7 0 : Int) + (e.fld A.OD_SLACKTH 19 12 : Int) ≤ (1000 : BitVec 32).toInt
       ∧ ({ e with od := { e.od with good := 15 } } : State).od.good = 15 ∧ (e.setFld A.OD_VCD 3 0 14).fld A.OD_VCD 11 8 < (e.setFld A.OD_VCD 3 0 14).odCode
       ∧ then_ (.odEvaluate (-1) 63 0) (e.setFld A.OD_VCD 3 0 8) (fun t => t.odCode == 9 && t.od.settling))
    ∧ (let s := (State.reset.setFld (A.PU_PROP_AH 15 + 20) 31 24 8).setFld (A.PU_PROP_AH 15 + 20) 23 0 77
       (15 : Nat) < 16 ∧ (5 : Nat) < 6 ∧ 8 ≤ s.fld (A.PU_PROP_AH 15 + 4 * 5) 31 24 ∧ State.reset.fld (A.PU_PROP_AH 15 + 4 * 5) 31 24 < 8
         ∧ (State.reset.host.inbox.length < 16 ∧ (State.reset.inboxPut (heldWb [0x0D, 0, 0, 0, 0x30394443])).flag A.OD_STAT 29 = true
             ∧ State.reset.od.evalDone ≠ some 10000000)
         ∧ then_ .odPcap s (fun t => t.num (A.OD_PBASE 95) == 77)
         ∧ (∀ k, k < 96 → (0 : Nat) ≠ A.OD_PBASE k))
    ∧ (let s := State.reset.setFlag A.OD_STAT 29 true
       s.flag A.OD_STAT 29 = true ∧ State.reset.flag A.OD_STAT 29 = false ∧ s.relieving = false
         ∧ (s.setFld A.BG_RELIEF 31 29 2).relieving = true ∧ s.flag A.OD_CLK 0 = false ∧ (s.setFlag A.OD_CLK 0 true).flag A.OD_CLK 0 = true
         ∧ 15 ≤ (s.setFld A.OD_VCD 3 0 15).odCode ∧ s.od.clkTo = none ∧ (s.setFld A.OD_VCD 3 0 14).odCode < 15
         ∧ ({ s with od := { s.od with clkTo := some true } } : State).od.clkTo = some true
         ∧ then_ .odClkSel900 s (fun t => t.od.clkTo == some true)) := by
  dsimp only; and_intros <;> first | decide +kernel | (intro k _ h; simp only [A.OD_PBASE] at h; omega)

/-- Whether the debug port is off rests on the OTP alone while flag 2 of the manifest is set, and a token opens a session when its key's
signature does: both are the implementation's, so no state decides them. -/
theorem test_meets_SecurityAndDebug_open (h : Config.otpDebugOff = false) :
    ({ State.reset with sc := { State.reset.sc with flags := 4 } } : State).dbgOff = false := by
  show (Config.otpDebugOff || _) = false
  rw [h]; rfl

theorem test_meets_SecurityAndDebug_off : (State.reset).dbgOff = true := by
  show (Config.otpDebugOff || true) = true
  exact Bool.or_true _

theorem test_meets_SecurityAndDebug_badToken : State.reset.tokenOk none [] = false := by decide +kernel

theorem test_meets_SecurityAndDebug :
    (let s := { State.reset with sc := { State.reset.sc with ends := some 5 } }
     (1 ≤ (3 : Fin 6).val ∧ (3 : Fin 6).val ≤ 3 ∧ (5 : Fin 6).val = 5) ∧ State.reset.sc.attest = none ∧ State.reset.dbgAwake = true
       ∧ (onRung 2).dbgAwake = false ∧ State.reset.sc.lockUntil = none ∧ State.reset.sc.badAt = [] ∧ State.reset.sc.frags = []
       ∧ ((17 : BitVec 8) = 0 ∨ 16 < (17 : BitVec 8).toNat ∨ (17 : BitVec 8) ≤ 0 ∨ 1024 < ([] : List Byte).length)
       ∧ ([] : List Byte).length ≤ 1024 ∧ State.reset.sc.ends = none ∧ s.sc.ends = some 5 ∧ s.sc.ends ≠ none
       ∧ s.dtC < 5 ∧ (5 : Nat) ≤ ({ s with dtC := 5 } : State).dtC
       ∧ then_ .sessionExpiry { s with dtC := 4 } (fun t => t.sc.ends == some 5))
    ∧ (let s := { State.reset with sc := { State.reset.sc with lockUntil := some 5 } }
       s.sc.lockUntil ≠ none ∧ s.sc.lockUntil = some 5 ∧ s.dtC < 5 ∧ (5 : Nat) ≤ ({ s with dtC := 5 } : State).dtC)
    ∧ (let s := { State.reset.wr A.SC_DBGSTAT 0xF0000000 with sc := { State.reset.sc with ends := some 5 } }
       s.flag A.SC_DBGSTAT 31 = true ∧ s.flag A.SC_DBGSTAT 30 = true ∧ s.flag A.SC_DBGSTAT 29 = true ∧ s.flag A.SC_DBGSTAT 28 = true
         ∧ State.reset.flag A.SC_DBGSTAT 30 = false ∧ (3 : BitVec 8).toNat < 4 ∧ 1 ≤ (3 : BitVec 8).toNat
         ∧ State.dbgDenied 0x08200000 = true ∧ (0x00000000 : BitVec 32).toNat % 4 = 0 ∧ [(1 : Word)] ≠ [] ∧ [(1 : Word)].length ≤ 64
         ∧ then_ (.halt 0 true) s (fun t => t.coreA.dbgHalt))
    ∧ (let w := heldWb [0x10]
       let s := { State.reset with host := { State.reset.host with wbs := [w] }, sc := { State.reset.sc with attest := some { ord := 0, idx := 6, at_ := some 9 } } }
       s.sc.attest = some { ord := 0, idx := 6, at_ := some 9 } ∧ s.host.wbs.find? (fun x => x.ord == 0) = some w
         -- the index line is written through the queue, and only then is the index used (R480)
         ∧ (State.reset.attestStart 0).1 = true ∧ (State.reset.attestStart 0).2.idNext = some 1
         ∧ (nvDrain (State.reset.attestStart 0).2).sc.attest = some { ord := 0, idx := 0, at_ := some 0 }
         ∧ then_ (.attestSigned true) (State.reset.attestStart 0).2 (fun t => t.sc.attest.isSome)) := by
  dsimp only; and_intros <;> decide +kernel

/-- R471: a one-level N24 signature (LM-OTS W8, height 5) has an admitted form, one whose OTS typecode is N32 has not. -/
theorem test_hss_form :
    let key := numBytes 4 0x01000000 ++ numBytes 4 0x0A000000 ++ numBytes 4 0x08000000 ++ List.replicate 40 (0 : Byte)
    let sig := fun (ots : Nat) => numBytes 8 0 ++ numBytes 4 (ots * 2 ^ 24) ++ List.replicate 648 (0 : Byte) ++ numBytes 4 0x0A000000
      ++ List.replicate 120 (0 : Byte)
    State.hssForm key (sig 8) = true ∧ State.hssForm key (sig 4) = false ∧ State.hssForm key (sig 0) = false := by
  dsimp only; and_intros <;> decide +kernel

theorem test_meets_SecurityAndDebug_yard : YardOwned State.reset .a 0 ∧ (∃ y, regionOf .a 0 = .yard y) ∧ Clean State.reset 0 4 :=
  ⟨owned_sound (by decide +kernel), ⟨0, rfl⟩, fun _ _ => rfl⟩

/-! ### What commands leave alone, and the encodings -/

theorem test_meets_MemoriesChangeByTheirCommandsOnly :
    exec .heartbeatSend State.reset = .next (match exec .heartbeatSend State.reset with | .next t => t | _ => State.reset)
    ∧ reachesYards .heartbeatSend = false ∧ reachesProgram .heartbeatSend = false ∧ reachesLampStore .heartbeatSend = false
    ∧ reachesHost .heartbeatSend = false ∧ reachesFar .heartbeatSend = false := by
  and_intros <;> first | decide +kernel | rfl

theorem test_meets_BlocksChangeByTheirCommandsOnly :
    reachesCores .erroutToggle = false ∧ reachesCounters .erroutToggle = false ∧ reachesTracks .erroutToggle = false
    ∧ reachesUnits .erroutToggle = false ∧ reachesPower .erroutToggle = false ∧ reachesSecurity .erroutToggle = false
    ∧ reachesMaps .erroutToggle = false ∧ then_ .erroutToggle State.reset (fun _ => true) := by
  and_intros <;> decide +kernel

/-- R253: MOVI W2, 0x2081 is 0x2020 | 2 << 0 … in the manual's own example, and its decoding. -/
theorem test_meets_FelradWordsAndDecodeOfEncode :
    (Fel.movi 2 0x2081).legal = true ∧ decodeFel 0x2020 0x2081 = some (.movi 2 0x2081) := by decide +kernel

theorem test_decode_words :
    decodeFel 0x2832 0 = some (.rd .ldw 3 2 0) ∧ decodeFel 0x361F 0x3FF7 = some (.bcc 1 (-9))
    ∧ decodeFel 0x2244 1 = some (.im .addi 4 4 1) := by decide +kernel

/-- R240, R274: of a split load the lower half's error comes before the upper half's refusal; a far store can be answered with an
error. -/
theorem test_first_fault_of_an_access :
    then_ (.ldw exA 2 1 0 0) { onA [(1, 0x3BFFFE)] with poison := [(0x3BFFFC / 4, true)] }
      (fun t => bitsOf (t.coreA.reg 0) 23 16 == 9 && t.coreA.reg 1 == 0x3BFFFE)
    ∧ then_ (.ldw exA 2 1 0 0) (onA [(1, 0x3BFFFE)]) (fun t => bitsOf (t.coreA.reg 0) 23 16 == 7 && t.coreA.reg 1 == 0x3C0000)
    ∧ then_ (.farStoreAck ⟨.a, true, 0⟩) (farOn { onA [] with coreA := { coreOf [] with wait := .farStore 0x1000003C [1] false } })
        (fun t => bitsOf (t.coreA.reg 0) 23 16 == 12 && t.farMem == []) := by
  and_intros <;> decide +kernel

/-- R306, R307, R289: a fetch that the cache serves makes its line the last used, and reads no program MRAM; one of an
uncorrectable line is reported and takes vector 8. -/
theorem test_fetch_uses_the_cache :
    then_ (.nop exA) { onA [] with coreA := { coreOf [] with icache := [(128, [0x8080, 0x80])] }, pmBad := [(0x400, true)] }
      (fun t => t.coreA.icache == [(128, [0x80, 0x8080])] && t.coreA.pc == 0x1001)
    ∧ then_ (.nop exA) { onA [] with pmBad := [(0x400, true)] }
        (fun t => bitsOf (t.coreA.reg 0) 23 16 == 8 && t.coreA.reg 1 == 0x1000 && t.faultQ == [⟨0x43, 0, 0, false⟩]) := by
  and_intros <;> decide +kernel

/-- R296, R294: with IE = 1 a pending vector comes before the next instruction; an uncorrectable vector-table entry stops the
core. -/
theorem test_interrupts_come_first :
    (let s := { onA [] 0x1400 with vecA := [(100, true)] }
     felReady s .a = false ∧ then_ (.nop exA) s (fun t => t.coreA.pc == 0x1000)
       ∧ then_ (.interruptEntry { who := .a }) s (fun t => t.coreA.bk == 1)
       ∧ then_ (.interruptEntry ⟨.a, 2⟩) s (fun t => t.coreA.bk == 0 && ! t.coreA.run && t.flag A.TD_STAT 25)) := by
  dsimp only; and_intros <;> decide +kernel

end Sys2Proof.Tests
end

section
/-!
SUPPORT. Control transfer of the Felrad cores (R256, R278, R279, R300, R301): what a shadow-stack access leaves alone, what a push
and a pop do to a shadow context, and what a call and a return do to the core and to its stack.
-/
namespace Sys2Proof.Machine

/-! ### What an update of a processor leaves alone -/

namespace State
variable (s : State)

@[simp] theorem setCore_mem (c : Who) (k : CoreSt) : (s.setCore c k).mem = s.mem := by
  rcases s.setCore_cases c k with h | h | h <;> rw [h]
@[simp] theorem setCore_sc (c : Who) (k : CoreSt) : (s.setCore c k).sc = s.sc := by
  rcases s.setCore_cases c k with h | h | h <;> rw [h]
@[simp] theorem setCore_dtC (c : Who) (k : CoreSt) : (s.setCore c k).dtC = s.dtC := by
  rcases s.setCore_cases c k with h | h | h <;> rw [h]
@[simp] theorem setCore_poison (c : Who) (k : CoreSt) : (s.setCore c k).poison = s.poison := by
  rcases s.setCore_cases c k with h | h | h <;> rw [h]
@[simp] theorem setCore_fld (c : Who) (k : CoreSt) (a hi lo : Nat) : (s.setCore c k).fld a hi lo = s.fld a hi lo := by
  simp [fld]
@[simp] theorem setCore_flag (c : Who) (k : CoreSt) (a b : Nat) : (s.setCore c k).flag a b = s.flag a b := by
  simp [flag]
@[simp] theorem setCore_byteAt (c : Who) (k : CoreSt) (a : Nat) : (s.setCore c k).byteAt a = s.byteAt a := by
  simp [byteAt]
@[simp] theorem setCore_bytesAt (c : Who) (k : CoreSt) (a n : Nat) : (s.setCore c k).bytesAt a n = s.bytesAt a n := by
  simp [bytesAt]
@[simp] theorem setCore_isPoison (c : Who) (k : CoreSt) (h : Nat) : (s.setCore c k).isPoison h = s.isPoison h := by
  simp [isPoison]
@[simp] theorem setCore_ssOn (c : Who) (k : CoreSt) : (s.setCore c k).ssOn = s.ssOn := by
  simp [ssOn]
@[simp] theorem setCore_ssOf (c d : Who) (k : CoreSt) (b : Nat) : (s.setCore c k).ssOf d b = s.ssOf d b := by
  simp [ssOf]
@[simp] theorem setCore_ssGet (c : Who) (k : CoreSt) (x : Nat) : (s.setCore c k).ssGet x = s.ssGet x := by
  simp [ssGet]
@[simp] theorem setCore_ssOld (c : Who) (k : CoreSt) (x : Nat) : (s.setCore c k).ssOld x = s.ssOld x := by
  simp [ssOld]
@[simp] theorem setCore_ssDepth (c : Who) (k : CoreSt) (x : Nat) : (s.setCore c k).ssDepth x = s.ssDepth x := by
  simp [ssDepth]
@[simp] theorem setCore_handOf (c : Who) (k : CoreSt) (n : Nat) : (s.setCore c k).handOf n = s.handOf n := by
  simp [handOf]
@[simp] theorem setCore_ydOwner (c : Who) (k : CoreSt) (n : Nat) : (s.setCore c k).ydOwner n = s.ydOwner n := by
  simp [ydOwner]
@[simp] theorem setCore_groupOf (c : Who) (k : CoreSt) (m : Nat) : (s.setCore c k).groupOf m = s.groupOf m := by
  simp [groupOf]
@[simp] theorem setCore_ydMeets (c : Who) (k : CoreSt) (a : Nat) : (s.setCore c k).ydMeets a = s.ydMeets a := by
  simp [ydMeets]

end State

@[simp] theorem watched_setCore (s : State) (c d : Who) (k : CoreSt) (a : Nat) (rd wr : Bool) :
    watched d a rd wr (s.setCore c k) = watched d a rd wr s := by
  simp [watched]
@[simp] theorem yardOwned_setCore (s : State) (c d : Who) (k : CoreSt) (a : Nat) :
    YardOwned (s.setCore c k) d a ↔ YardOwned s d a := by
  simp [YardOwned]
@[simp] theorem clean_setCore (s : State) (c : Who) (k : CoreSt) (a n : Nat) : Clean (s.setCore c k) a n ↔ Clean s a n := by
  simp [Clean]

namespace CoreSt
variable (k : CoreSt)

@[simp] theorem issue_sp (a n : Nat) : (k.issue a n).sp = k.sp := by simp [sp, bank]
@[simp] theorem issue_sfloor (a n : Nat) : (k.issue a n).sfloor = k.sfloor := by rw [issue_eq]

@[simp] theorem sp_setSp (v : Word) : (k.setSp v).sp = v := by simp [sp, setSp, setSpOf, setBank, bank]
@[simp] theorem reg_setSp (v : Word) (n : Nat) : (k.setSp v).reg n = k.reg n := by
  simp [reg, wreg, bank, setSp, setSpOf, setBank]

@[simp] theorem setSp_stat (v : Word) : (k.setSp v).stat = k.stat := rfl
@[simp] theorem setSp_run (v : Word) : (k.setSp v).run = k.run := rfl
@[simp] theorem setSp_loads (v : Word) : (k.setSp v).loads = k.loads := rfl
@[simp] theorem setSp_hwSince (v : Word) : (k.setSp v).hwSince = k.hwSince := rfl

/-- The processor without its reservation, which any write to memory may clear (R277). -/
def unreserved : CoreSt := { k with resv := none }

variable {k} {l : CoreSt}
theorem sp_of_unreserved (h : l.unreserved = k.unreserved) : l.sp = k.sp := (congrArg sp h :)
theorem reg_of_unreserved (h : l.unreserved = k.unreserved) (n : Nat) : l.reg n = k.reg n := congrArg (fun k => k.reg n) h
theorem stat_of_unreserved (h : l.unreserved = k.unreserved) : l.stat = k.stat := (congrArg stat h :)

end CoreSt

/-! ### The processors stay, but for their reservations -/

/-- From `s` to `t` the mode of the cores and the processors stay, but for the reservations. -/
structure State.CoresStay (s t : State) : Prop where
  unhitched : t.unhitched = s.unhitched
  coreA : t.coreA.unreserved = s.coreA.unreserved
  coreB : t.coreB.unreserved = s.coreB.unreserved
  lamp : t.lamp = s.lamp

namespace State.CoresStay

theorem refl (s : State) : s.CoresStay s := ⟨rfl, rfl, rfl, rfl⟩

theorem trans {s t u : State} (h : s.CoresStay t) (g : t.CoresStay u) : s.CoresStay u :=
  ⟨g.unhitched.trans h.unhitched, g.coreA.trans h.coreA, g.coreB.trans h.coreB, g.lamp.trans h.lamp⟩

/-- A processor stays, but for its reservation. -/
theorem getCore {s t : State} (h : s.CoresStay t) (c : Who) : (t.getCore c).unreserved = (s.getCore c).unreserved := by
  cases c with
  | a => exact h.coreA
  | lamp => exact congrArg CoreSt.unreserved h.lamp
  | b =>
    simp only [State.getCore, h.unhitched]
    split
    · exact h.coreB
    · exact h.coreA

variable {s t : State}

/-- A register write leaves the processors; only TD_STAT holds their mode. -/
theorem wr (h : s.CoresStay t) {a : Nat} (v : Word) (ha : a ≠ A.TD_STAT) : s.CoresStay (t.wr a v) :=
  h.trans ⟨State.flag_wr_ne t a v _ _ ha.symm, rfl, rfl, rfl⟩
theorem setFlag (h : s.CoresStay t) {a : Nat} (b : Nat) (v : Bool) (ha : a ≠ A.TD_STAT) : s.CoresStay (t.setFlag a b v) :=
  h.wr _ ha
theorem satAdd (h : s.CoresStay t) {a : Nat} (hi lo n : Nat) (ha : a ≠ A.TD_STAT) : s.CoresStay (t.satAdd a hi lo n) :=
  h.wr _ ha

theorem raiseC (h : s.CoresStay t) (id inst : Nat) : s.CoresStay (t.raiseC id inst) := h.trans ⟨rfl, rfl, rfl, rfl⟩

theorem raiseVec (h : s.CoresStay t) (v : Nat) : s.CoresStay (t.raiseVec v) := by
  refine h.trans ?_
  unfold State.raiseVec
  dsimp only
  repeat' split
  all_goals exact ⟨rfl, rfl, rfl, rfl⟩

theorem ydCause (h : s.CoresStay t) (b : Nat) : s.CoresStay (t.ydCause b) := by
  have hs := h.setFlag b true (show A.YD_IRQST ≠ A.TD_STAT by decide)
  unfold State.ydCause
  dsimp only
  split
  · exact hs.raiseVec _
  · exact hs

theorem nonOwner (h : s.CoresStay t) (m n : Nat) (w : Bool) (a : Nat) : s.CoresStay (t.nonOwner m n w a) := by
  have hc := (h.raiseC 0x42 n).satAdd 31 0 1 (show A.YD_ACCCNT ≠ A.TD_STAT by decide)
  unfold State.nonOwner
  dsimp only
  refine CoresStay.ydCause ?_ 0
  split
  · exact hc
  · exact (hc.wr _ (by decide)).wr _ (by decide)

theorem clearResv (h : s.CoresStay t) (p : Nat → Bool) : s.CoresStay (t.clearResv p) := by
  refine h.trans ⟨rfl, ?_, ?_, rfl⟩
  all_goals
    unfold State.clearResv
    dsimp only
    repeat' split
    all_goals rfl

theorem storeYard (h : s.CoresStay t) (a : Nat) (bs : List Byte) : s.CoresStay (t.storeYard a bs) := by
  refine CoresStay.clearResv ?_ _
  exact h.trans ⟨rfl, rfl, rfl, rfl⟩

theorem ssShow (h : s.CoresStay t) : s.CoresStay t.ssShow := by
  unfold State.ssShow
  split
  · exact h.setFlag _ _ (by decide)
  · exact h

theorem endHandover (h : s.CoresStay t) (n : Nat) (o : Handover) : s.CoresStay (t.endHandover n o) := by
  have hn : A.YD_OWN n ≠ A.TD_STAT := by unfold A.YD_OWN A.TD_STAT; omega
  unfold State.endHandover
  refine (CoresStay.ssShow (CoresStay.wr ?_ _ hn)).ydCause 5
  dsimp only
  have hr := h.clearResv (fun g => decide (n * 0x40000 ≤ g * 64 ∧ g * 64 < (n + 1) * 0x40000))
  split
  · exact hr.trans ⟨rfl, rfl, rfl, rfl⟩
  · exact hr.trans ⟨rfl, rfl, rfl, rfl⟩

theorem ydMeet (h : s.CoresStay t) (m a : Nat) : s.CoresStay (t.ydMeet m a) := by
  have hm : A.YD_CONF m ≠ A.TD_STAT := by unfold A.YD_CONF A.TD_STAT; omega
  unfold State.ydMeet
  split
  · exact h.satAdd _ _ _ hm
  · exact h

theorem ydEnter (h : s.CoresStay t) (m a : Nat) : s.CoresStay (t.ydEnter m a).1 := by
  have hm : A.YD_CONF m ≠ A.TD_STAT := by unfold A.YD_CONF A.TD_STAT; omega
  unfold State.ydEnter
  dsimp only
  split
  · split
    · have hf : s.CoresStay t.fresh.2 := h.trans ⟨rfl, rfl, rfl, rfl⟩
      exact ((hf.endHandover _ _).satAdd _ _ _ hm).ydMeet m a
    · exact h
  · split
    · exact h.ydMeet m a
    · exact h

theorem eccRead (h : s.CoresStay t) (y a n up : Nat) : s.CoresStay (t.eccRead y a n up).1 := by
  have hy : State.eccReg y ≠ A.TD_STAT := by
    unfold State.eccReg A.YD_ECC A.YD_NVECC A.TD_STAT
    split <;> omega
  unfold State.eccRead
  dsimp only
  split
  · refine CoresStay.ydCause (CoresStay.raiseC (CoresStay.satAdd ?_ _ _ _ hy) _ _) _
    exact h.trans ⟨rfl, rfl, rfl, rfl⟩
  · split
    · exact (h.satAdd _ _ _ hy).ydCause _
    · exact h

theorem ydReadWord (h : s.CoresStay t) (m a up : Nat) : s.CoresStay (t.ydReadWord m a up).1 := by
  unfold State.ydReadWord
  dsimp only
  split
  · exact (h.ydEnter m a).nonOwner _ _ _ _
  · exact (h.ydEnter m a).eccRead _ _ _ _

theorem ydWriteWord (h : s.CoresStay t) (m a : Nat) (v : Word) : s.CoresStay (t.ydWriteWord m a v).1 := by
  unfold State.ydWriteWord
  dsimp only
  split
  · exact (h.ydEnter m a).nonOwner _ _ _ _
  · exact (h.ydEnter m a).storeYard _ _

theorem ssPut (h : s.CoresStay t) (x : Nat) (l : List Nat) (d : Nat × Nat) : s.CoresStay (t.ssPut x l d) :=
  h.trans ⟨rfl, rfl, rfl, rfl⟩

end State.CoresStay

/-! ### The bytes of a yard that a master does not own -/

namespace State
variable (s : State)

/-- A byte is what the queued line writes and the yards hold there (R338). -/
theorem byteAt_congr {t : State} {a : Nat} (hm : t.mem.nvRun = s.mem.nvRun ∧ t.mem.nvQ = s.mem.nvQ)
    (hr : Sparse.get (fun _ => 0) t.ram a = Sparse.get (fun _ => 0) s.ram a) : t.byteAt a = s.byteAt a := by
  simp only [byteAt, hm, hr]

-- Proved by `(rfl)`, not `rfl`: a step of `simp` with these is then a step of the proof, and the kernel does not compare the two
-- states by evaluating the registers that they were built with.
@[simp] theorem wr_ram (a : Nat) (v : Word) : (s.wr a v).ram = s.ram := (rfl)
@[simp] theorem setFlag_ram (a b : Nat) (v : Bool) : (s.setFlag a b v).ram = s.ram := (rfl)
@[simp] theorem satAdd_ram (a hi lo n : Nat) : (s.satAdd a hi lo n).ram = s.ram := (rfl)
@[simp] theorem raiseC_ram (id inst : Nat) : (s.raiseC id inst).ram = s.ram := (rfl)
@[simp] theorem clearResv_ram (p : Nat → Bool) : (s.clearResv p).ram = s.ram := (rfl)
@[simp] theorem fresh_ram : s.fresh.2.ram = s.ram := (rfl)
@[simp] theorem raiseVec_ram (v : Nat) : (s.raiseVec v).ram = s.ram := by
  unfold raiseVec
  dsimp only
  repeat' split
  all_goals rfl
@[simp] theorem ydCause_ram (b : Nat) : (s.ydCause b).ram = s.ram := by
  unfold ydCause
  dsimp only
  split <;> simp
@[simp] theorem nonOwner_ram (m n : Nat) (w : Bool) (a : Nat) : (s.nonOwner m n w a).ram = s.ram := by
  unfold nonOwner
  dsimp only
  rw [ydCause_ram]
  split <;> simp
@[simp] theorem ssShow_ram : s.ssShow.ram = s.ram := by
  unfold ssShow
  split <;> simp
@[simp] theorem ydMeet_ram (m a : Nat) : (s.ydMeet m a).ram = s.ram := by
  unfold ydMeet
  split <;> simp

/-- The end of a handover zeroes bytes of its own yard at most (R329). -/
theorem endHandover_ram_ne (n : Nat) (o : Handover) (b : Nat) (hb : b / 0x40000 ≠ n) :
    Sparse.get (fun _ => 0) (s.endHandover n o).ram b = Sparse.get (fun _ => 0) s.ram b := by
  have hn : ¬ (n * 0x40000 ≤ b ∧ b < (n + 1) * 0x40000) := by omega
  unfold endHandover
  simp only [ydCause_ram, ssShow_ram, wr_ram]
  split
  · simp [Sparse.get_drop, hn]
  · simp

/-- An access that comes to a yard leaves the bytes of every other one. -/
theorem ydEnter_ram_ne (m a b : Nat) (hb : b / 0x40000 ≠ a / 0x40000) :
    Sparse.get (fun _ => 0) (s.ydEnter m a).1.ram b = Sparse.get (fun _ => 0) s.ram b := by
  unfold ydEnter
  dsimp only
  split
  · split
    · rw [ydMeet_ram, satAdd_ram, endHandover_ram_ne _ _ _ _ hb, fresh_ram]
    · rfl
  · split <;> simp

/-- A store to a yard leaves the bytes outside it. -/
theorem storeYard_ram_out (a : Nat) (bs : List Byte) (b : Nat) (h : b < a ∨ a + bs.length ≤ b) :
    Sparse.get (fun _ => 0) (s.storeYard a bs).ram b = Sparse.get (fun _ => 0) s.ram b :=
  storeBytes_get_out s.ram a bs b h

/-- A master of another group is no owner of a yard with no handover under way. -/
theorem ydEnter_other (m a : Nat) (hh : s.handOf (a / 0x40000) = none) (ho : s.ydOwner (a / 0x40000) ≠ s.groupOf m) :
    s.ydEnter m a = (s, false) := by
  simp [ydEnter, hh, ho]

/-- A word write of a master leaves every byte of a yard that another group owns (R326). -/
theorem ydWriteWord_ram_other (m a : Nat) (v : Word) (b : Nat) (ha : a % 4 = 0) (hh : s.handOf (b / 0x40000) = none)
    (ho : s.ydOwner (b / 0x40000) ≠ s.groupOf m) :
    Sparse.get (fun _ => 0) (s.ydWriteWord m a v).1.ram b = Sparse.get (fun _ => 0) s.ram b := by
  unfold ydWriteWord
  dsimp only
  by_cases hy : a / 0x40000 = b / 0x40000
  · rw [ydEnter_other s m a (by rwa [hy]) (by rwa [hy])]
    exact congrArg (fun r => Sparse.get (fun _ => 0) r b) (nonOwner_ram s _ _ _ _)
  · have he := ydEnter_ram_ne s m a b (fun h => hy h.symm)
    split
    · rw [nonOwner_ram, he]
    · rw [storeYard_ram_out, he]
      simp only [wordBytes, List.length_map, List.length_range]
      omega

/-- A core acts in no group of the guard (R325). -/
theorem groupOf_core_ne_guard (c : Who) : s.groupOf (yardMaster c) ≠ s.groupOf 11 := by
  unfold yardMaster
  split
  · show 2 ≠ 10
    decide
  · show (if s.unhitched then 1 else 0) ≠ 10
    split <;> decide

end State

/-! ### Shadow contexts (R300, R301) -/

namespace State
variable (s : State)

@[simp] theorem ssGet_ssPut (x : Nat) (l : List Nat) (d : Nat × Nat) : (s.ssPut x l d).ssGet x = l := by
  simp [ssGet, ssPut]
@[simp] theorem ssOld_ssPut (x : Nat) (l : List Nat) (d : Nat × Nat) : (s.ssPut x l d).ssOld x = d := by
  simp [ssOld, ssPut]
@[simp] theorem ssPut_byteAt (x : Nat) (l : List Nat) (d : Nat × Nat) (a : Nat) : (s.ssPut x l d).byteAt a = s.byteAt a := rfl

/-- The words of a context are aligned. -/
theorem ssAddr_aligned (x i : Nat) : s.ssAddr x i % 4 = 0 := by
  have h : x * (4 * 2 ^ s.fld A.TD_SSCFG 3 0) = 4 * (x * 2 ^ s.fld A.TD_SSCFG 3 0) :=
    Nat.mul_left_comm x 4 _
  simp only [ssAddr, h]
  omega

/-- Without shadow checking a call pushes nothing. -/
theorem ssPush_off (c : Who) (b ret : Nat) (h : s.ssOn = false) : s.ssPush c b ret = s := by simp [ssPush, h]

/-- A push of `ret` on context `x` finds the region as `u`, where the mover has written a word of it for the guard if the core
held 64 entries, and leaves the part `d` of the context in it. -/
structure ShadowPush (x ret : Nat) (u : State) (d : Nat × Nat) : Prop where
  region : u = s ∨ 64 ≤ (s.ssGet x).length ∧ ∃ i v, u = (s.ydWriteWord 11 (s.ssAddr x i) v).1
  depth : (s.ssGet x).length ≤ 64 → 6 ≤ s.fld A.TD_SSCFG 3 0 → s.ssDepth x ≤ 2 ^ s.fld A.TD_SSCFG 3 0 →
    ((ret :: s.ssGet x).take 64).length + d.2 = min (s.ssDepth x + 1) (2 ^ s.fld A.TD_SSCFG 3 0)

/-- With shadow checking a call puts its return address before the newest 63 entries, and tells of a full context (R300, R301). -/
theorem ssPush_on (c : Who) (b ret : Nat) (hon : s.ssOn = true) : ∃ u d, s.ShadowPush (s.ssOf c b) ret u d ∧
    (s.ssPush c b ret = u.ssPut (s.ssOf c b) ((ret :: s.ssGet (s.ssOf c b)).take 64) d ∨
      s.ssPush c b ret = (u.ssPut (s.ssOf c b) ((ret :: s.ssGet (s.ssOf c b)).take 64) d).setFlag A.TD_SSSTAT
        (if c = .b then 29 else 30) true) := by
  have h64 : 6 ≤ s.fld A.TD_SSCFG 3 0 → 64 ≤ 2 ^ s.fld A.TD_SSCFG 3 0 := fun h => Nat.pow_le_pow_right (n := 2) (by decide) h
  have hdep : s.ssDepth (s.ssOf c b) = (s.ssGet (s.ssOf c b)).length + (s.ssOld (s.ssOf c b)).2 := rfl
  generalize hx : s.ssOf c b = x at hdep ⊢
  by_cases hl : (s.ssGet x).length < 64
  · -- the core takes the entry; a full context forgets the oldest of the region
    have htake : (ret :: s.ssGet x).take 64 = ret :: s.ssGet x := List.take_of_length_le hl
    by_cases hf : 2 ^ s.fld A.TD_SSCFG 3 0 ≤ s.ssDepth x
    · refine ⟨s, ((s.ssOld x).1 + 1, (s.ssOld x).2 - 1), ⟨.inl rfl, fun _ h6 hle => ?_⟩,
        .inr (by simp [ssPush, hon, hx, hl, hf, htake])⟩
      have := h64 h6
      simp only [htake, List.length_cons]
      omega
    · refine ⟨s, s.ssOld x, ⟨.inl rfl, fun _ h6 hle => ?_⟩, .inl (by simp [ssPush, hon, hx, hl, hf, htake])⟩
      simp only [htake, List.length_cons]
      omega
  · have hlen : ((ret :: s.ssGet x).take 64).length = 64 := by
      rw [List.length_take, List.length_cons]
      omega
    have hge : 64 ≤ (s.ssGet x).length := Nat.le_of_not_lt hl
    by_cases hf : 2 ^ s.fld A.TD_SSCFG 3 0 ≤ s.ssDepth x
    · by_cases hd : (s.ssOld x).2 = 0
      · -- a full context of 64 entries forgets the oldest of the core
        refine ⟨s, s.ssOld x, ⟨.inl rfl, fun _ h6 hle => ?_⟩, .inr (by simp [ssPush, hon, hx, hl, hf, hd])⟩
        rw [hlen]
        omega
      · -- a longer full one forgets the oldest of the region, and the mover writes there
        refine ⟨_, ((s.ssOld x).1 + 1, (s.ssOld x).2 - 1 + 1),
          ⟨.inr ⟨hge, (s.ssOld x).1 + 1 + ((s.ssOld x).2 - 1), BitVec.ofNat 32 ((s.ssGet x).getD 63 0), rfl⟩, fun _ h6 hle => ?_⟩,
          .inr (by simp [ssPush, hon, hx, hl, hf, hd])⟩
        simp only [hlen]
        omega
    · refine ⟨_, ((s.ssOld x).1, (s.ssOld x).2 + 1),
        ⟨.inr ⟨hge, (s.ssOld x).1 + (s.ssOld x).2, BitVec.ofNat 32 ((s.ssGet x).getD 63 0), rfl⟩, fun _ h6 hle => ?_⟩,
        .inl (by simp [ssPush, hon, hx, hl, hf])⟩
      simp only [hlen]
      omega

/-- A push leaves the processors. -/
theorem ssPush_coresStay (c : Who) (b ret : Nat) : s.CoresStay (s.ssPush c b ret) := by
  by_cases hon : s.ssOn = true
  · obtain ⟨u, d, hp, ht⟩ := s.ssPush_on c b ret hon
    have hu : s.CoresStay u := by
      rcases hp.region with rfl | ⟨-, i, v, rfl⟩
      · exact .refl _
      · exact (CoresStay.refl s).ydWriteWord _ _ _
    rcases ht with ht | ht <;> rw [ht]
    · exact hu.ssPut _ _ _
    · exact (hu.ssPut _ _ _).setFlag _ _ (by decide)
  · rw [ssPush_off _ _ _ _ (by simpa using hon)]
    exact .refl s

/-- A push leaves the bytes of every yard that the guard does not own. -/
theorem ssPush_ram_other (c : Who) (b ret z : Nat) (hh : s.handOf (z / 0x40000) = none)
    (ho : s.ydOwner (z / 0x40000) ≠ s.groupOf 11) :
    Sparse.get (fun _ => 0) (s.ssPush c b ret).ram z = Sparse.get (fun _ => 0) s.ram z := by
  by_cases hon : s.ssOn = true
  · obtain ⟨u, d, hp, ht⟩ := s.ssPush_on c b ret hon
    have hu : Sparse.get (fun _ => 0) u.ram z = Sparse.get (fun _ => 0) s.ram z := by
      rcases hp.region with rfl | ⟨-, i, v, rfl⟩
      · rfl
      · exact ydWriteWord_ram_other s _ _ _ _ (s.ssAddr_aligned _ _) hh ho
    rcases ht with ht | ht <;> rw [ht] <;> exact hu
  · rw [ssPush_off _ _ _ _ (by simpa using hon)]

/-- A push for which the core has room reaches no byte. -/
theorem ssPush_byteAt (c : Who) (b ret z : Nat) (h : s.ssOn = false ∨ (s.ssGet (s.ssOf c b)).length < 64) :
    (s.ssPush c b ret).byteAt z = s.byteAt z := by
  by_cases hon : s.ssOn = true
  · obtain ⟨u, d, hp, ht⟩ := s.ssPush_on c b ret hon
    have hu : u = s := by
      rcases hp.region with hu | ⟨hge, -⟩
      · exact hu
      · have := h.resolve_left (by simp [hon])
        omega
    rcases ht with ht | ht <;> rw [ht, hu] <;> rfl
  · rw [ssPush_off _ _ _ _ (by simpa using hon)]

/-- The newest 64 entries after a push. -/
theorem ssPush_ssGet (c : Who) (b ret : Nat) : (s.ssPush c b ret).ssGet (s.ssOf c b) =
    if s.ssOn then (ret :: s.ssGet (s.ssOf c b)).take 64 else s.ssGet (s.ssOf c b) := by
  by_cases hon : s.ssOn = true
  · obtain ⟨u, d, hp, ht⟩ := s.ssPush_on c b ret hon
    rw [if_pos hon]
    rcases ht with ht | ht <;> rw [ht] <;> exact ssGet_ssPut _ _ _ _
  · rw [ssPush_off _ _ _ _ (by simpa using hon), if_neg hon]

/-- A push makes a context one entry longer, up to 2^K (R300). -/
theorem ssPush_ssDepth (c : Who) (b ret : Nat) (hl : (s.ssGet (s.ssOf c b)).length ≤ 64) (hk : 6 ≤ s.fld A.TD_SSCFG 3 0)
    (hd : s.ssDepth (s.ssOf c b) ≤ 2 ^ s.fld A.TD_SSCFG 3 0) : (s.ssPush c b ret).ssDepth (s.ssOf c b) =
      if s.ssOn then min (s.ssDepth (s.ssOf c b) + 1) (2 ^ s.fld A.TD_SSCFG 3 0) else s.ssDepth (s.ssOf c b) := by
  by_cases hon : s.ssOn = true
  · obtain ⟨u, d, hp, ht⟩ := s.ssPush_on c b ret hon
    rw [if_pos hon, ← hp.depth hl hk hd]
    have hput : (u.ssPut (s.ssOf c b) ((ret :: s.ssGet (s.ssOf c b)).take 64) d).ssDepth (s.ssOf c b) =
        ((ret :: s.ssGet (s.ssOf c b)).take 64).length + d.2 := by
      simp only [ssDepth, ssGet_ssPut, ssOld_ssPut]
    rcases ht with ht | ht <;> rw [ht] <;> exact hput
  · rw [ssPush_off _ _ _ _ (by simpa using hon), if_neg hon]

/-- A pop leaves the processors. -/
theorem ssPop_coresStay (x : Nat) : s.CoresStay (s.ssPop x) := by
  unfold ssPop
  dsimp only
  split
  · exact (CoresStay.refl s).ssPut _ _ _
  · exact ((CoresStay.refl s).ydReadWord _ _ _).ssPut _ _ _

/-- A pop of a context that lies in the core alone takes its newest entry. -/
theorem ssPop_shallow (x : Nat) (h : (s.ssOld x).2 = 0) : s.ssPop x = s.ssPut x (s.ssGet x).tail (s.ssOld x) := by
  simp [ssPop, h]

end State

/-! ### The data stack (R279) -/

/-- An address of a yard, as a core sees it (R33). -/
theorem regionOf_yard_iff {c : Who} (hc : c ≠ .lamp) (a y : Nat) :
    regionOf c a = .yard y ↔ a < 0x400000 ∧ a / 0x40000 = y := by
  unfold regionOf
  rw [if_neg hc]
  by_cases ha : a < 0x400000
  · simp only [ha, if_true, true_and, Region.yard.injEq]
  · simp only [ha, if_false, false_and, iff_false]
    repeat' split
    all_goals exact nofun

/-- The yard of an owned address. -/
theorem YardOwned.facts {s : State} {c : Who} {a : Nat} (hc : c ≠ .lamp) (h : YardOwned s c a) :
    a < 0x400000 ∧ s.handOf (a / 0x40000) = none ∧ s.ydOwner (a / 0x40000) = s.groupOf (State.yardMaster c)
      ∧ s.ydMeets a = false := by
  obtain ⟨y, hr, hh, ho, hm⟩ := h
  obtain ⟨ha, rfl⟩ := (regionOf_yard_iff hc a y).1 hr
  exact ⟨ha, hh, ho, hm⟩

/-- A stack word in an owned yard, at or above SFLOOR, is accessed. -/
theorem stackOk_owned {s : State} {c : Who} {a : Nat} (hc : c ≠ .lamp) (ha : a % 4 = 0) (hf : (s.getCore c).sfloor.toNat ≤ a)
    (h : YardOwned s c a) : stackOk c a 4 s = (s, true) := by
  obtain ⟨hlt, hh, ho, hm⟩ := h.facts hc
  have h1 : regionOf c a = .yard (a / 0x40000) := (regionOf_yard_iff hc _ _).2 ⟨hlt, rfl⟩
  have h2 : regionOf c (a + 3) = .yard (a / 0x40000) := (regionOf_yard_iff hc _ _).2 (by omega)
  have hfl : ¬ a < (s.getCore c).sfloor.toNat := by omega
  simp [stackOk, ha, hfl, h1, h2, State.ydEnter_owner s _ a hh ho, State.ydMeet_idle s _ a hm]

/-- A stack word that is not aligned, or below SFLOOR, is refused. -/
theorem stackOk_refused {s : State} {c : Who} {a : Nat} (n : Nat) (h : a % 4 ≠ 0 ∨ a < (s.getCore c).sfloor.toNat) :
    stackOk c a n s = (s, false) := if_pos h

/-! ### Control transfer -/

/-- A processor that can execute its next instruction runs. -/
theorem Runs.run {s : State} {e : Exe} {len : Nat} (h : Runs s e len) : (s.getCore e.who).run = true := by
  obtain ⟨hr, -⟩ := h
  simp only [felReady, Bool.and_eq_true, and_assoc] at hr
  obtain ⟨hrun, -⟩ := hr
  exact hrun

/-- A processor runs, with no load and no held-write stall under way: what passing control needs of it. -/
structure CoreSt.Goes (k : CoreSt) : Prop where
  run : k.run = true
  loads : k.loads = []
  hwSince : k.hwSince = none

theorem Runs.goes {s : State} {e : Exe} {len : Nat} (h : Runs s e len) : (s.getCore e.who).Goes := by
  have hr := h.run
  obtain ⟨-, -, -, -, hl, hw, -⟩ := h
  exact ⟨hr, hl, hw⟩

theorem Runs.goes_bodyState {s : State} {e : Exe} {len : Nat} (h : Runs s e len) : ((bodyState s e len).getCore e.who).Goes := by
  obtain ⟨hr, hl, hw⟩ := h.goes
  exact ⟨by simpa using hr, by simpa using hl, by simpa using hw⟩

namespace CoreSt.Goes

theorem setSp {k : CoreSt} (h : k.Goes) (v : Word) : (k.setSp v).Goes := ⟨h.run, h.loads, h.hwSince⟩

/-- A reservation does not matter. -/
theorem of_unreserved {k l : CoreSt} (hk : l.unreserved = k.unreserved) (h : k.Goes) : l.Goes :=
  ⟨(congrArg CoreSt.run hk).trans h.run, (congrArg CoreSt.loads hk).trans h.loads, (congrArg CoreSt.hwSince hk).trans h.hwSince⟩

end CoreSt.Goes

/-- An instruction whose body passes control to `p`. -/
theorem felStep_jump (e : Exe) (len : Nat) (core : Bool) (body : State → FelOut) (s t : State) (p : Nat) (h : Runs s e len)
    (hc : core = true → OnCore e) (hb : body (bodyState s e len) = .jump t p) (hg : (t.getCore e.who).Goes) :
    felStep e len core body s = .next (t.setCore e.who { t.getCore e.who with pc := p % 2 ^ 24 }) := by
  rw [felStep_runs e len core body s h hc, hb]
  exact congrArg _ (complete_jump _ _ _ _ _ hg.run hg.loads hg.hwSince)

/-- An instruction that does nothing but pass control to `p`. -/
theorem felStep_jump_only (e : Exe) (len : Nat) (core : Bool) (body : State → FelOut) (s : State) (p : Nat) (h : Runs s e len)
    (hc : core = true → OnCore e) (hb : body (bodyState s e len) = .jump (bodyState s e len) p) (hp : p < 2 ^ 24) :
    felStep e len core body s = .next (s.setCore e.who { s.issued e len with pc := p }) := by
  rw [felStep_jump e len core body s _ p h hc hb h.goes_bodyState, Nat.mod_eq_of_lt hp]
  simp

/-- An instruction that does nothing. -/
theorem felStep_nothing (e : Exe) (len : Nat) (core : Bool) (body : State → FelOut) (s : State) (h : Runs s e len)
    (hc : core = true → OnCore e) (hb : body (bodyState s e len) = .done (bodyState s e len)) :
    felStep e len core body s =
      .next (s.setCore e.who { s.issued e len with pc := ((s.getCore e.who).pc + len) % 2 ^ 24 }) :=
  felStep_retire e len core body (fun k => k) s h hc (by rw [hb, State.setCore_setCore]) (by simp) (by simp) (by simp) (by simp)
    (by simp)

/-- The conditions of Bcc in the order of their codes (R256). -/
def conditions (st : Word) : List Bool :=
  let z := bitOf st 0
  let n := bitOf st 1
  let c := bitOf st 2
  let v := bitOf st 3
  [z, ! z, c, ! c, n, ! n, v, ! v, c && ! z, ! c || z, n == v, n != v, ! z && n == v, z || n != v, true]

/-- Every code but 15 has its condition (R256). -/
theorem condOf_lt {cond : Nat} (h : cond < 15) (st : Word) : condOf cond st = some ((conditions st).getD cond false) :=
  match cond, h with
  | 0, _ | 1, _ | 2, _ | 3, _ | 4, _ | 5, _ | 6, _ | 7, _ | 8, _ | 9, _ | 10, _ | 11, _ | 12, _ | 13, _ | 14, _ => rfl

/-- The target of a relative branch lies in the program's address space. -/
theorem relPc_lt (k : CoreSt) (off : BitVec 18) : relPc k off < 2 ^ 24 := by
  unfold relPc
  omega

theorem bitsOf_lt (w : Word) (hi lo : Nat) : bitsOf w hi lo < 2 ^ (hi + 1 - lo) := Nat.mod_lt _ (Nat.two_pow_pos _)

/-- A branch goes where its condition says (R256, R278). -/
theorem exec_bcc (e : Exe) (cond : Fin 16) (off : BitVec 18) (s : State) (h : Runs s e 2) (hc : cond.val ≠ 15) :
    exec (.bcc e cond off) s = .next (s.setCore e.who { s.issued e 2 with
      pc := if (conditions (s.getCore e.who).stat).getD cond.val false then relPc (s.getCore e.who) off
        else ((s.getCore e.who).pc + 2) % 2 ^ 24 }) := by
  have hcond := condOf_lt (cond := cond.val) (by omega) (s.getCore e.who).stat
  show felStep e 2 false (insBcc e.who cond off) s = _
  cases hb : (conditions (s.getCore e.who).stat).getD cond.val false with
  | true =>
    rw [hb] at hcond
    exact felStep_jump_only e 2 false _ s (relPc (s.getCore e.who) off) h nofun (by simp [insBcc, hcond, relPc])
      (relPc_lt _ _)
  | false =>
    rw [hb] at hcond
    exact felStep_nothing e 2 false _ s h nofun (by simp [insBcc, hcond])

/-- Condition 15 is illegal (R256). -/
theorem exec_bcc_illegal (e : Exe) (cond : Fin 16) (off : BitVec 18) (s : State) (h : Runs s e 2) (hc : cond.val = 15) :
    exec (.bcc e cond off) s = .next (s.except e 2 4 (s.getCore e.who).pc 0) :=
  felStep_except e 2 false _ s 4 0 h nofun (by simp [insBcc, hc, condOf])

theorem exec_jmpa (e : Exe) (tg : BitVec 22) (s : State) (h : Runs s e 2) :
    exec (.jmpa e tg) s = .next (s.setCore e.who { s.issued e 2 with pc := tg.toNat }) :=
  felStep_jump_only e 2 false _ s _ h nofun rfl (by omega)

theorem exec_jmp (e : Exe) (n : Fin 16) (s : State) (h : Runs s e 1) :
    exec (.jmp e n) s = .next (s.setCore e.who { s.issued e 1 with pc := bitsOf ((s.getCore e.who).reg n) 23 0 }) :=
  felStep_jump_only e 1 false _ s _ h nofun (by simp [insJump]) (bitsOf_lt _ 23 0)

/-! ### Calls (R279, R300) -/

namespace State
variable (s : State)

@[simp] theorem storeYard_rd (a : Nat) (bs : List Byte) (r : Nat) : (s.storeYard a bs).rd r = s.rd r := (rfl)
@[simp] theorem storeYard_mem (a : Nat) (bs : List Byte) : (s.storeYard a bs).mem = s.mem := (rfl)

/-- The state after core `c` has stored `ret` below SP, and SP points at it. -/
def pushStack (c : Who) (ret : Nat) : State :=
  let t := s.storeYard ((s.getCore c).sp - 4).toNat (numBytes 4 ret)
  t.setCore c ((t.getCore c).setSp ((s.getCore c).sp - 4))

/-- The state after core `c` has pushed `ret` on its stack and on the shadow stack of its bank. -/
def pushCall (c : Who) (ret : Nat) : State := (s.pushStack c ret).ssPush c (s.getCore c).bk ret

@[simp] theorem pushStack_rd (c : Who) (ret r : Nat) : (s.pushStack c ret).rd r = s.rd r := by simp [pushStack]
@[simp] theorem pushStack_mem (c : Who) (ret : Nat) : (s.pushStack c ret).mem = s.mem := by simp [pushStack]
@[simp] theorem pushStack_fld (c : Who) (ret a hi lo : Nat) : (s.pushStack c ret).fld a hi lo = s.fld a hi lo := by simp [fld]
@[simp] theorem pushStack_flag (c : Who) (ret a b : Nat) : (s.pushStack c ret).flag a b = s.flag a b := by simp [flag]
@[simp] theorem pushStack_ssOn (c : Who) (ret : Nat) : (s.pushStack c ret).ssOn = s.ssOn := by simp [ssOn]
@[simp] theorem pushStack_ssOf (c d : Who) (ret b : Nat) : (s.pushStack c ret).ssOf d b = s.ssOf d b := by simp [ssOf]
@[simp] theorem pushStack_ssGet (c : Who) (ret x : Nat) : (s.pushStack c ret).ssGet x = s.ssGet x := by simp [ssGet]
@[simp] theorem pushStack_ssDepth (c : Who) (ret x : Nat) : (s.pushStack c ret).ssDepth x = s.ssDepth x := by
  simp [ssDepth, ssOld]
@[simp] theorem pushStack_ydOwner (c : Who) (ret n : Nat) : (s.pushStack c ret).ydOwner n = s.ydOwner n := by simp [ydOwner]
@[simp] theorem pushStack_handOf (c : Who) (ret n : Nat) : (s.pushStack c ret).handOf n = s.handOf n := by simp [handOf]

/-- The word pushed stands at the new SP. -/
theorem pushStack_ram_in (c : Who) (ret i : Nat) (hi : i < 4) :
    Sparse.get (fun _ => 0) (s.pushStack c ret).ram (((s.getCore c).sp - 4).toNat + i) = BitVec.ofNat 8 (ret / 256 ^ i) := by
  have hl : i < (numBytes 4 ret).length := by simpa [numBytes] using hi
  simp only [pushStack, setCore_ram]
  exact (storeBytes_get_in s.ram _ _ i hl).trans (by simp [numBytes])

/-- Bytes outside the word pushed stay. -/
theorem pushStack_byteAt_out (c : Who) (ret y : Nat)
    (hy : y < ((s.getCore c).sp - 4).toNat ∨ ((s.getCore c).sp - 4).toNat + 4 ≤ y) :
    (s.pushStack c ret).byteAt y = s.byteAt y := by
  refine byteAt_congr s ⟨by rw [pushStack_mem], by rw [pushStack_mem]⟩ ?_
  simp only [pushStack, setCore_ram]
  exact s.storeYard_ram_out _ _ _ (by simpa [numBytes] using hy)

/-- A call moves SP of its core, and may clear its reservation. -/
theorem pushCall_getCore (c : Who) (ret : Nat) :
    ((s.pushCall c ret).getCore c).unreserved = ((s.getCore c).setSp ((s.getCore c).sp - 4)).unreserved := by
  have hs : ((s.storeYard ((s.getCore c).sp - 4).toNat (numBytes 4 ret)).getCore c).unreserved = (s.getCore c).unreserved :=
    ((CoresStay.refl s).storeYard _ _).getCore c
  calc ((s.pushCall c ret).getCore c).unreserved
      = ((s.pushStack c ret).getCore c).unreserved := (ssPush_coresStay _ _ _ _).getCore c
    _ = (((s.storeYard ((s.getCore c).sp - 4).toNat (numBytes 4 ret)).getCore c).unreserved).setSp ((s.getCore c).sp - 4) := by
        simp only [pushStack, getCore_setCore]
        rfl
    _ = ((s.getCore c).setSp ((s.getCore c).sp - 4)).unreserved := by
        rw [hs]
        rfl

end State

/-- A store of a core to an address of the yards (R313). -/
theorem issueStore_yard {c : Who} (hc : c ≠ .lamp) {a : Nat} (ha : a < 0x400000) (bs : List Byte) (s : State) :
    issueStore c a bs s = s.storeYard a bs := by
  simp only [issueStore, (regionOf_yard_iff hc a _).2 ⟨ha, rfl⟩]

/-- The stack of core `c` has room for the word of a call: it is aligned, not below SFLOOR, in an owned yard, and not watched. -/
structure CallRoom (s : State) (c : Who) : Prop where
  aligned : ((s.getCore c).sp - 4).toNat % 4 = 0
  floor : (s.getCore c).sfloor.toNat ≤ ((s.getCore c).sp - 4).toNat
  owned : YardOwned s c ((s.getCore c).sp - 4).toNat
  unwatched : watched c ((s.getCore c).sp - 4).toNat false true s = false

/-- A call with room pushes and goes to its target (R279). -/
theorem insCall_room {s : State} {c : Who} (len pc : Nat) (hc : c ≠ .lamp) (h : CallRoom s c) :
    insCall c len pc s = .jump (s.pushCall c (((s.getCore c).pc + len) % 2 ^ 24)) pc := by
  have hst := issueStore_yard hc (h.owned.facts hc).1 (numBytes 4 (((s.getCore c).pc + len) % 2 ^ 24)) s
  simp only [insCall, stackOk_owned hc h.aligned h.floor h.owned, h.unwatched, hst, hc, Bool.not_true, Bool.false_eq_true, if_false,
    BitVec.ofNat_toNat, BitVec.setWidth_eq]
  rfl

/-- A call whose stack is not aligned, or below SFLOOR, takes vector 13 (R279). -/
theorem insCall_refused {s : State} {c : Who} (len pc : Nat)
    (h : ((s.getCore c).sp - 4).toNat % 4 ≠ 0 ∨ ((s.getCore c).sp - 4).toNat < (s.getCore c).sfloor.toNat) :
    insCall c len pc s = .trap s 13 ((s.getCore c).sp - 4) := by
  simp only [insCall, stackOk_refused 4 h, Bool.not_false, if_true, BitVec.ofNat_toNat, BitVec.setWidth_eq]

/-- What a call of the core of `e` leaves: control at `pc`, `ret` on the stack and on the shadow stack, and all else as it was. -/
def Pushed (s : State) (e : Exe) (ret pc : Nat) (t : State) : Prop :=
  let k := s.getCore e.who
  let a := (k.sp - 4).toNat
  let x := s.ssOf e.who k.bk
  (t.getCore e.who).pc = pc ∧ (t.getCore e.who).sp = k.sp - 4 ∧ (∀ m, (t.getCore e.who).reg m = k.reg m)
  ∧ (t.getCore e.who).stat = k.stat
  ∧ (∀ i, i < 4 → Sparse.get (fun _ => 0) t.ram (a + i) = BitVec.ofNat 8 (ret / 256 ^ i))
  ∧ (s.ssOn = false ∨ (s.ssGet x).length < 64 → ∀ y, y < a ∨ a + 4 ≤ y → t.byteAt y = s.byteAt y)
  ∧ t.ssGet x = (if s.ssOn then (ret :: s.ssGet x).take 64 else s.ssGet x)
  ∧ ((s.ssGet x).length ≤ 64 → 6 ≤ s.fld A.TD_SSCFG 3 0 → s.ssDepth x ≤ 2 ^ s.fld A.TD_SSCFG 3 0 →
      t.ssDepth x = if s.ssOn then min (s.ssDepth x + 1) (2 ^ s.fld A.TD_SSCFG 3 0) else s.ssDepth x)

/-- What a push leaves, with control passed to `pc`. -/
theorem pushCall_pushed {s : State} {e : Exe} (ret pc : Nat) (hc : OnCore e) (h : CallRoom s e.who) :
    Pushed s e ret pc ((s.pushCall e.who ret).setCore e.who { (s.pushCall e.who ret).getCore e.who with pc := pc }) := by
  have hk := s.pushCall_getCore e.who ret
  obtain ⟨-, hh, ho, -⟩ := h.owned.facts hc
  have hguard := s.groupOf_core_ne_guard e.who
  have hal := h.aligned
  refine ⟨by simp, ?_, fun m => ?_, ?_, fun i hi => ?_, fun hs y hy => ?_, ?_, fun hl h6 hd => ?_⟩
  · rw [State.getCore_setCore]
    exact (CoreSt.sp_of_unreserved hk).trans (by simp)
  · rw [State.getCore_setCore]
    exact (CoreSt.reg_of_unreserved hk m).trans (by simp)
  · rw [State.getCore_setCore]
    exact (CoreSt.stat_of_unreserved hk).trans (by simp)
  · have hz : (((s.getCore e.who).sp - 4).toNat + i) / 0x40000 = ((s.getCore e.who).sp - 4).toNat / 0x40000 := by omega
    rw [State.setCore_ram, State.pushCall, State.ssPush_ram_other, State.pushStack_ram_in _ _ _ _ hi]
    · rw [hz, State.pushStack_handOf, hh]
    · rw [hz, State.pushStack_ydOwner, ho]
      exact hguard
  · rw [State.setCore_byteAt, State.pushCall, State.ssPush_byteAt _ _ _ _ _ (by simpa using hs), State.pushStack_byteAt_out _ _ _ _ hy]
  · simpa [State.pushCall] using (s.pushStack e.who ret).ssPush_ssGet e.who (s.getCore e.who).bk ret
  · simpa [State.pushCall] using
      (s.pushStack e.who ret).ssPush_ssDepth e.who (s.getCore e.who).bk ret (by simpa using hl) (by simpa using h6) (by simpa using hd)

/-- The issue of an instruction changes nothing that a call finds or leaves. -/
theorem CallRoom.bodyState {s : State} {e : Exe} (len : Nat) (h : CallRoom s e.who) : CallRoom (bodyState s e len) e.who := by
  obtain ⟨h1, h2, h3, h4⟩ := h
  exact ⟨by simpa using h1, by simpa using h2, by simpa using h3, by simpa using h4⟩
theorem pushed_bodyState {s t : State} {e : Exe} {len ret pc : Nat} : Pushed (bodyState s e len) e ret pc t ↔ Pushed s e ret pc t := by
  simp [Pushed]

/-- An instruction of `len` syllables that calls `pc`. -/
theorem felStep_call (e : Exe) (len : Nat) (body : State → FelOut) (s : State) (pc : Nat) (h : Runs s e len) (hc : OnCore e)
    (hb : body (bodyState s e len) = insCall e.who len pc (bodyState s e len)) (hpc : pc < 2 ^ 24) (hr : CallRoom s e.who) :
    ∃ t, felStep e len false body s = .next t ∧ Pushed s e (((s.getCore e.who).pc + len) % 2 ^ 24) pc t := by
  have hr' := hr.bodyState len
  have hpc0 : ((bodyState s e len).getCore e.who).pc = (s.getCore e.who).pc := by simp
  rw [insCall_room len pc hc hr', hpc0] at hb
  have hk := (bodyState s e len).pushCall_getCore e.who (((s.getCore e.who).pc + len) % 2 ^ 24)
  refine ⟨_, felStep_jump e len false body s _ pc h nofun hb (.of_unreserved hk (h.goes_bodyState.setSp _)), ?_⟩
  rw [Nat.mod_eq_of_lt hpc]
  exact pushed_bodyState.1 (pushCall_pushed _ pc hc hr')

/-! ### Returns (R279, R300) -/

/-- Core `c` can read the word at SP: it is aligned, not below SFLOOR, in an owned yard, not watched and not poisoned. -/
structure ReturnRoom (s : State) (c : Who) : Prop where
  aligned : (s.getCore c).sp.toNat % 4 = 0
  floor : (s.getCore c).sfloor.toNat ≤ (s.getCore c).sp.toNat
  owned : YardOwned s c (s.getCore c).sp.toNat
  unwatched : watched c (s.getCore c).sp.toNat true false s = false
  clean : Clean s (s.getCore c).sp.toNat 4

namespace State
variable (s : State)

/-- The word at SP of core `c`. -/
def returnWord (c : Who) : Nat := s.bytesAt (s.getCore c).sp.toNat 4

/-- The state after core `c` has popped a word of its stack and, where shadow checking acts, of the shadow stack of its bank. -/
def popReturn (c : Who) : State :=
  let t := s.setCore c ((s.getCore c).setSp ((s.getCore c).sp + 4))
  if s.ssOn then t.ssPop (s.ssOf c (s.getCore c).bk) else t

/-- A read of an aligned word of a yard that holds no poison, and meets no upset, changes nothing (R332). -/
theorem eccRead_clean (y a : Nat) (ha : a % 4 = 0) (h : Clean s a 4) : s.eccRead y a 4 0 = (s, true) := by
  have hp : s.isPoison (a / 4) = false := h 0 (by decide)
  have hone : (a + 3) / 4 + 1 - a / 4 = 1 := by omega
  simp [eccRead, hone, hp]

/-- A return moves SP of its core, and may clear its reservation. -/
theorem popReturn_getCore (c : Who) :
    ((s.popReturn c).getCore c).unreserved = ((s.getCore c).setSp ((s.getCore c).sp + 4)).unreserved := by
  unfold popReturn
  dsimp only
  split
  · rw [(ssPop_coresStay _ _).getCore c, getCore_setCore]
  · rw [getCore_setCore]

/-- A return whose shadow context lies in the core alone takes its newest entry, and reaches no byte. -/
theorem popReturn_shallow (c : Who) (h : s.ssOn = false ∨ (s.ssOld (s.ssOf c (s.getCore c).bk)).2 = 0) :
    (s.popReturn c).ssGet (s.ssOf c (s.getCore c).bk) =
        (if s.ssOn then (s.ssGet (s.ssOf c (s.getCore c).bk)).tail else s.ssGet (s.ssOf c (s.getCore c).bk))
      ∧ ∀ y, (s.popReturn c).byteAt y = s.byteAt y := by
  cases hon : s.ssOn with
  | false => simp [popReturn, hon]
  | true =>
    have hd := h.resolve_left (by simp [hon])
    simp [popReturn, hon, ssPop_shallow _ _ ((setCore_ssOld _ _ _ _).symm ▸ hd)]

end State

/-- The ECC check of the word at SP finds nothing. -/
theorem partsEcc_clean {s : State} {c : Who} {a : Nat} (hc : c ≠ .lamp) (hlt : a < 0x400000) (ha : a % 4 = 0) (h : Clean s a 4) :
    partsEcc c 0 [(a, 4)] s = (s, none) := by
  simp [partsEcc, (regionOf_yard_iff hc a _).2 ⟨hlt, rfl⟩, s.eccRead_clean _ a ha h]

/-- A core reads the bytes of the yards. -/
theorem dataNum_yard {s : State} {c : Who} {a n : Nat} (hc : c ≠ .lamp) (h : a + n ≤ 0x400000) : dataNum c a n s = s.bytesAt a n := by
  have hb : ∀ i ∈ List.range n, dataByte c (a + i) s = s.byteAt (a + i) := by
    intro i hi
    have hin := List.mem_range.1 hi
    simp only [dataByte, (regionOf_yard_iff hc (a + i) _).2 ⟨by omega, rfl⟩]
  rw [dataNum, State.bytesAt, List.map_congr_left hb]

section
variable {s : State} {c : Who} (hc : c ≠ .lamp) (h : ReturnRoom s c)
include hc h

/-- A return that can read the word at SP checks it (R279). -/
theorem insRet_room : insRet c 0 s =
    if s.ssOn = true ∧ (s.ssGet (s.ssOf c (s.getCore c).bk)).head? ≠ some (s.returnWord c) then
      .trap s 2 (BitVec.ofNat 32 (s.returnWord c))
    else .jump (s.popReturn c) (s.returnWord c % 2 ^ 24) := by
  have hlt := (h.owned.facts hc).1
  have hal := h.aligned
  have hw : dataNum c (s.getCore c).sp.toNat 4 s = s.returnWord c := dataNum_yard hc (by omega)
  have hlamp : (c != .lamp) = true := by simpa using hc
  simp only [insRet, stackOk_owned hc hal h.floor h.owned, h.unwatched, partsEcc_clean hc hlt hal h.clean, hw, hlamp, Bool.not_true,
    Bool.false_eq_true, if_false, Bool.true_and]
  rfl

/-- A return that its shadow stack allows pops both. -/
theorem insRet_allowed (hs : s.ssOn = true → (s.ssGet (s.ssOf c (s.getCore c).bk)).head? = some (s.returnWord c)) :
    insRet c 0 s = .jump (s.popReturn c) (s.returnWord c % 2 ^ 24) := by
  rw [insRet_room hc h, if_neg]
  exact fun hm => hm.2 (hs hm.1)

/-- A return that its shadow stack forbids takes vector 2, and pops nothing. -/
theorem insRet_forbidden (hon : s.ssOn = true) (hs : (s.ssGet (s.ssOf c (s.getCore c).bk)).head? ≠ some (s.returnWord c)) :
    insRet c 0 s = .trap s 2 (BitVec.ofNat 32 (s.returnWord c)) := by
  rw [insRet_room hc h, if_pos ⟨hon, hs⟩]

end

/-- A return whose stack is not aligned, or below SFLOOR, takes vector 13 (R279). -/
theorem insRet_refused {s : State} {c : Who} (up : Nat)
    (h : (s.getCore c).sp.toNat % 4 ≠ 0 ∨ (s.getCore c).sp.toNat < (s.getCore c).sfloor.toNat) :
    insRet c up s = .trap s 13 (s.getCore c).sp := by
  simp only [insRet, stackOk_refused 4 h, Bool.not_false, if_true]

/-! ### The obligation -/

/-- The issue of an instruction changes nothing that a return finds. -/
theorem ReturnRoom.bodyState {s : State} {e : Exe} (len : Nat) (h : ReturnRoom s e.who) : ReturnRoom (bodyState s e len) e.who := by
  obtain ⟨h1, h2, h3, h4, h5⟩ := h
  exact ⟨by simpa using h1, by simpa using h2, by simpa using h3, by simpa using h4, by simpa using h5⟩
theorem returnWord_bodyState (s : State) (e : Exe) (len : Nat) : (bodyState s e len).returnWord e.who = s.returnWord e.who := by
  simp [State.returnWord]

/-- A return that its shadow stack allows goes to the word at SP, and moves SP past it (R279). -/
theorem exec_ret_allowed (e : Exe) (s : State) (h : Runs s e 1) (hc : OnCore e) (hr : ReturnRoom s e.who)
    (hs : s.ssOn = true → (s.ssGet (s.ssOf e.who (s.getCore e.who).bk)).head? = some (s.returnWord e.who)) :
    ∃ t, exec (.ret e 0) s = .next t ∧ (t.getCore e.who).pc = s.returnWord e.who % 2 ^ 24
      ∧ (t.getCore e.who).sp = (s.getCore e.who).sp + 4 ∧ (∀ m, (t.getCore e.who).reg m = (s.getCore e.who).reg m)
      ∧ (t.getCore e.who).stat = (s.getCore e.who).stat
      ∧ (s.ssOn = false ∨ (s.ssOld (s.ssOf e.who (s.getCore e.who).bk)).2 = 0 →
          t.ssGet (s.ssOf e.who (s.getCore e.who).bk) = (if s.ssOn then (s.ssGet (s.ssOf e.who (s.getCore e.who).bk)).tail
            else s.ssGet (s.ssOf e.who (s.getCore e.who).bk)) ∧ ∀ y, t.byteAt y = s.byteAt y) := by
  have hb := insRet_allowed hc (hr.bodyState 1) (by simpa [returnWord_bodyState] using hs)
  rw [returnWord_bodyState] at hb
  have hk := (bodyState s e 1).popReturn_getCore e.who
  refine ⟨_, felStep_jump e 1 false (insRet e.who 0) s _ _ h nofun hb (.of_unreserved hk (h.goes_bodyState.setSp _)),
    ?_, ?_, fun m => ?_, ?_, fun hd => ?_⟩
  · simp
  · rw [State.getCore_setCore]
    exact (CoreSt.sp_of_unreserved hk).trans (by simp)
  · rw [State.getCore_setCore]
    exact (CoreSt.reg_of_unreserved hk m).trans (by simp)
  · rw [State.getCore_setCore]
    exact (CoreSt.stat_of_unreserved hk).trans (by simp)
  · have hp := (bodyState s e 1).popReturn_shallow e.who (by simpa using hd)
    simpa using hp

/-- A return that its shadow stack forbids takes vector 2 (R279). -/
theorem exec_ret_forbidden (e : Exe) (s : State) (h : Runs s e 1) (hc : OnCore e) (hr : ReturnRoom s e.who) (hon : s.ssOn = true)
    (hs : (s.ssGet (s.ssOf e.who (s.getCore e.who).bk)).head? ≠ some (s.returnWord e.who)) :
    exec (.ret e 0) s = .next (s.except e 1 2 (s.getCore e.who).pc (BitVec.ofNat 32 (s.returnWord e.who))) := by
  have hb := insRet_forbidden hc (hr.bodyState 1) (by simpa using hon) (by simpa [returnWord_bodyState] using hs)
  rw [returnWord_bodyState] at hb
  exact felStep_except e 1 false (insRet e.who 0) s 2 _ h nofun hb

/-- An instruction whose body calls from a stack that is not aligned, or below SFLOOR, takes vector 13 (R279). -/
theorem felStep_call_refused (e : Exe) (len : Nat) (body : State → FelOut) (s : State) (pc : Nat) (h : Runs s e len)
    (hb : body (bodyState s e len) = insCall e.who len pc (bodyState s e len))
    (hr : ((s.getCore e.who).sp - 4).toNat % 4 ≠ 0 ∨ ((s.getCore e.who).sp - 4).toNat < (s.getCore e.who).sfloor.toNat) :
    felStep e len false body s = .next (s.except e len 13 (s.getCore e.who).pc ((s.getCore e.who).sp - 4)) := by
  have hsp : ((bodyState s e len).getCore e.who).sp = (s.getCore e.who).sp := by simp
  have hfl : ((bodyState s e len).getCore e.who).sfloor = (s.getCore e.who).sfloor := by simp
  rw [insCall_refused len pc (by rwa [hsp, hfl]), hsp] at hb
  exact felStep_except e len false body s 13 _ h nofun hb

/-- A return whose stack is not aligned, or below SFLOOR, takes vector 13 (R279). -/
theorem exec_ret_refused (e : Exe) (s : State) (h : Runs s e 1)
    (hr : (s.getCore e.who).sp.toNat % 4 ≠ 0 ∨ (s.getCore e.who).sp.toNat < (s.getCore e.who).sfloor.toNat) :
    exec (.ret e 0) s = .next (s.except e 1 13 (s.getCore e.who).pc (s.getCore e.who).sp) := by
  have hsp : ((bodyState s e 1).getCore e.who).sp = (s.getCore e.who).sp := by simp
  have hfl : ((bodyState s e 1).getCore e.who).sfloor = (s.getCore e.who).sfloor := by simp
  have hb : insRet e.who 0 (bodyState s e 1) = .trap (bodyState s e 1) 13 ((bodyState s e 1).getCore e.who).sp :=
    insRet_refused 0 (by rwa [hsp, hfl])
  rw [hsp] at hb
  exact felStep_except e 1 false (insRet e.who 0) s 13 _ h nofun hb

/-- Settles O16: branches and jumps change the PC alone; a call and a return move the word at SP and the newest entries of the
shadow context, and what the mover does in the guard's region reaches neither the core nor its stack. -/
theorem branchesCallsAndReturns : Obligations.BranchesCallsAndReturns := by
  unfold Obligations.BranchesCallsAndReturns
  refine ⟨fun e cond n off tg s => ⟨fun h => ⟨exec_bcc e cond off s h, exec_bcc_illegal e cond off s h, exec_jmpa e tg s h⟩,
    exec_jmp e n s⟩, fun e n off tg s hc => ⟨fun h => ⟨?_, fun hr => ?_⟩, fun h => ⟨?_, ?_, ?_, exec_ret_refused e s h⟩⟩⟩
  · rintro ⟨ha, hf, ho, hw⟩
    exact ⟨felStep_call e 2 _ s _ h hc rfl (by omega) ⟨ha, hf, ho, hw⟩,
      felStep_call e 2 _ s _ h hc (by simp [relPc]) (relPc_lt _ _) ⟨ha, hf, ho, hw⟩⟩
  · exact ⟨felStep_call_refused e 2 _ s _ h rfl hr, felStep_call_refused e 2 _ s _ h rfl hr⟩
  · rintro ⟨ha, hf, ho, hw⟩
    exact felStep_call e 1 _ s _ h hc (by simp) (bitsOf_lt _ 23 0) ⟨ha, hf, ho, hw⟩
  · rintro ⟨ha, hf, ho, hw, hp⟩ hs
    exact exec_ret_allowed e s h hc ⟨ha, hf, ho, hw, hp⟩ hs
  · rintro ⟨ha, hf, ho, hw, hp⟩ hon hs
    exact exec_ret_forbidden e s h hc ⟨ha, hf, ho, hw, hp⟩ hon hs

end Sys2Proof.Machine
end

section
/-!
SUPPORT. Products, accumulators and division of the Felrad cores (R268–R272): what each result is in exact arithmetic, and what an
instruction that writes a result, an accumulator, or a quotient and its remainder leaves.
-/
namespace Sys2Proof.Machine

/-! ### Results -/

/-- A number in two's complement. -/
theorem wordOf_eq_ofInt (i : Int) : wordOf i = BitVec.ofInt 32 i := by
  apply BitVec.eq_of_toNat_eq
  simp only [wordOf, toBits, BitVec.toNat_ofNat, BitVec.toNat_ofInt]
  have h1 := Int.emod_nonneg i (show ((2 ^ 32 : Nat) : Int) ≠ 0 by decide)
  have h2 := Int.emod_lt_of_pos i (show (0 : Int) < ((2 ^ 32 : Nat) : Int) by decide)
  omega

theorem mulRes_eq (a b : Word) :
    mulRes a b = ⟨BitVec.ofInt 32 (a.toInt * b.toInt), none, some (overflows (a.toInt * b.toInt))⟩ := by
  simp only [mulRes, wordOf_eq_ofInt, overflows]

theorem mulhRes_signed (a b : Word) :
    mulhRes true a b = ⟨BitVec.ofInt 32 (a.toInt * b.toInt / 2 ^ 32), none, some false⟩ := by
  simp only [mulhRes, wordOf_eq_ofInt, if_true]

theorem mulhRes_unsigned (a b : Word) :
    mulhRes false a b = ⟨BitVec.ofNat 32 (a.toNat * b.toNat / 2 ^ 32), none, some false⟩ := by
  have hcast : ((a.toNat * b.toNat : Nat) : Int) / 2 ^ 32 = ((a.toNat * b.toNat / 2 ^ 32 : Nat) : Int) :=
    (Int.natCast_ediv _ _).symm
  simp only [mulhRes, wordOf_eq_ofInt, Bool.false_eq_true, if_false, hcast, BitVec.ofInt_natCast]

/-- No product of two words is above 2^62: that of the most negative word with itself. -/
theorem toInt_mul_toInt_le (a b : Word) : a.toInt * b.toInt ≤ 2 ^ 62 := by
  have hbound : ∀ x : Word, x.toInt.natAbs ≤ 2 ^ 31 := fun x => by
    have := x.toInt_lt
    have := x.le_toInt
    omega
  calc a.toInt * b.toInt ≤ ((a.toInt * b.toInt).natAbs : Int) := Int.le_natAbs
    _ = ((a.toInt.natAbs * b.toInt.natAbs : Nat) : Int) := by rw [Int.natAbs_mul]
    _ ≤ ((2 ^ 31 * 2 ^ 31 : Nat) : Int) := Int.ofNat_le.2 (Nat.mul_le_mul (hbound a) (hbound b))
    _ = 2 ^ 62 := rfl

/-- The rounded product saturates at 2^31 alone, which no other product reaches (R268). -/
theorem mulqRes_eq (a b : Word) :
    let q := (a.toInt * b.toInt + 2 ^ 30) / 2 ^ 31
    mulqRes a b = ⟨if q = 2 ^ 31 then 0x7FFFFFFF else BitVec.ofInt 32 q, none, some (decide (q = 2 ^ 31))⟩ := by
  intro q
  have hp := toInt_mul_toInt_le a b
  have hq : 0x7FFFFFFF < q ↔ q = 2 ^ 31 := by omega
  show (if 0x7FFFFFFF < q then _ else _) = _
  by_cases h : q = 2 ^ 31
  · rw [if_pos (hq.2 h), if_pos h, decide_eq_true h]
  · rw [if_neg (mt hq.1 h), if_neg h, decide_eq_false h, wordOf_eq_ofInt]

/-- An exact sum or difference does not fit in an accumulator. -/
def accOverflows (x : Int) : Bool := decide (x < -2 ^ 63 ∨ 2 ^ 63 ≤ x)

/-- What an accumulator takes of an exact sum or difference (R269). -/
def accKept (x : Int) (sat : Bool) : BitVec 64 :=
  if accOverflows x && sat then (if x < 0 then BitVec.ofInt 64 (-2 ^ 63) else BitVec.ofInt 64 (2 ^ 63 - 1)) else BitVec.ofInt 64 x

/-- The exact value of MAC, or with `sub` of MSU. -/
def accExact (acc : BitVec 64) (a b : Word) (sub : Bool) : Int :=
  if sub then acc.toInt - a.toInt * b.toInt else acc.toInt + a.toInt * b.toInt

theorem macRes_eq (acc : BitVec 64) (a b : Word) (sub sat : Bool) :
    macRes acc a b sub sat = (accKept (accExact acc a b sub) sat, accOverflows (accExact acc a b sub)) := by
  have hx : acc.toInt + (if sub then - (a.toInt * b.toInt) else a.toInt * b.toInt) = accExact acc a b sub := by
    cases sub
    · rfl
    · exact Int.sub_eq_add_neg.symm
  simp only [macRes, hx]
  generalize accExact acc a b sub = x
  have hlo : BitVec.ofInt 64 (-2 ^ 63) = 0x8000000000000000 := by decide
  have hhi : BitVec.ofInt 64 (2 ^ 63 - 1) = 0x7FFFFFFFFFFFFFFF := by decide
  rw [accKept, hlo, hhi]
  simp only [accOverflows, Bool.and_eq_true]

/-- A division by 0 leaves the dividend as the remainder (R270, R271). -/
theorem divRes_unsigned_zero (a : Word) {b : Word} (hb : b = 0) : divRes false a b = (0xFFFFFFFF, a, false) := if_pos hb
theorem divRes_signed_zero (a : Word) {b : Word} (hb : b = 0) :
    divRes true a b = (if bitOf a 31 then 0x80000000 else 0x7FFFFFFF, a, false) := if_pos hb

theorem divRes_unsigned (a : Word) {b : Word} (hb : b ≠ 0) :
    divRes false a b = (BitVec.ofNat 32 (a.toNat / b.toNat), BitVec.ofNat 32 (a.toNat % b.toNat), false) := if_neg hb

/-- The one quotient that does not fit (R270). -/
theorem divRes_overflow {a b : Word} (hv : (a == 0x80000000 && b == 0xFFFFFFFF) = true) :
    divRes true a b = (0x80000000, 0, true) := by
  obtain ⟨rfl, rfl⟩ : a = 0x80000000 ∧ b = 0xFFFFFFFF := by simpa using hv
  decide

theorem divRes_signed {a b : Word} (hb : b ≠ 0) (hv : ¬ (a == 0x80000000 && b == 0xFFFFFFFF) = true) :
    divRes true a b = (BitVec.ofInt 32 (a.toInt.tdiv b.toInt), BitVec.ofInt 32 (a.toInt.tmod b.toInt), false) := by
  have hno : ¬ (a = 0x80000000 ∧ b = 0xFFFFFFFF) := by simpa using hv
  rw [← wordOf_eq_ofInt, ← wordOf_eq_ofInt]
  exact (if_neg hb).trans (if_neg hno)

/-! ### Instructions that change their core alone -/

namespace CoreSt
variable (k : CoreSt)

@[simp] theorem issue_a0 (a n : Nat) : (k.issue a n).a0 = k.a0 := by rw [issue_eq]
@[simp] theorem issue_a1 (a n : Nat) : (k.issue a n).a1 = k.a1 := by rw [issue_eq]

end CoreSt

/-- A result with flags that does not trap is written (R261, R272). -/
theorem felStep_alu (e : Exe) (len : Nat) (core : Bool) (body : State → FelOut) (d : Nat) (traps : Bool) (x : AluRes) (s : State)
    (h : Runs s e len) (hc : core = true → OnCore e)
    (hb : body (bodyState s e len) = aluOut e.who (some d) traps x (bodyState s e len))
    (ht : ¬ (bitOf (s.getCore e.who).stat 9 = true ∧ x.v = some true)) :
    felStep e len core body s = .next (s.retire e len (fun k => (k.setAlu x).setReg d x.r)) := by
  have hno : ¬ (traps = true ∧ x.v = some true ∧ bitOf ((bodyState s e len).getCore e.who).stat 9 = true) := by
    simp only [State.getCore_setCore, CoreSt.issue_stat]
    exact fun ⟨_, hv, h9⟩ => ht ⟨h9, hv⟩
  refine felStep_retire e len core body _ s h hc ?_ (by simp) (by simp) (by simp) (by simp) (by simp)
  rw [hb, aluOut, if_neg hno, State.getCore_setCore]

namespace CoreSt
variable (k : CoreSt) (one : Bool) (y : BitVec 64) (v : Bool)

/-- The core after accumulator 0, or with `one` accumulator 1, has taken `y`, with `v` in V (R269). -/
def setAcc : CoreSt :=
  let k1 : CoreSt := if one then { k with a1 := y } else { k with a0 := y }
  ((k1.setStat 0 0 (y == 0).toNat).setStat 1 1 (y.getLsbD 63).toNat).setStat 3 3 v.toNat

@[simp] theorem setAcc_run : (k.setAcc one y v).run = k.run := by cases one <;> rfl
@[simp] theorem setAcc_pc : (k.setAcc one y v).pc = k.pc := by cases one <;> rfl
@[simp] theorem setAcc_loads : (k.setAcc one y v).loads = k.loads := by cases one <;> rfl
@[simp] theorem setAcc_hwSince : (k.setAcc one y v).hwSince = k.hwSince := by cases one <;> rfl
theorem setAcc_stat : (k.setAcc one y v).stat =
    putBits (putBits (putBits k.stat 0 0 (y == 0).toNat) 1 1 (y.getLsbD 63).toNat) 3 3 v.toNat := by cases one <;> rfl
@[simp] theorem setAcc_rp : (k.setAcc one y v).rp = k.rp := by
  rw [rp, setAcc_stat]
  repeat rw [bitOf_putBits_ne _ _ _ _ _ (by decide) (by decide)]
  rfl

/-- The exact value of MAC, or with `sub` of MSU, of work registers `d` and `w`. -/
def macExact (sub : Bool) (d w : Nat) : Int := accExact (if one then k.a1 else k.a0) (k.reg d) (k.reg w) sub

@[simp] theorem macExact_issue (a n : Nat) (sub : Bool) (d w : Nat) :
    (k.issue a n).macExact one sub d w = k.macExact one sub d w := by simp [macExact]

end CoreSt

/-- MAC or MSU that does not trap (R269). -/
theorem felStep_mac (e : Exe) (body : State → FelOut) (one sub : Bool) (d w : Nat) (s : State) (h : Runs s e 1) (hc : OnCore e)
    (hb : body (bodyState s e 1) = macOut e.who one sub d w (bodyState s e 1)) :
    let x := (s.getCore e.who).macExact one sub d w
    ¬ (bitOf (s.getCore e.who).stat 9 = true ∧ accOverflows x = true) →
      felStep e 1 true body s = .next (s.retire e 1 (fun k =>
        k.setAcc one (accKept x (bitOf k.stat (if one then 6 else 5))) (accOverflows x))) := by
  intro x ht
  refine felStep_retire e 1 true body _ s h (fun _ => hc) ?_ (by simp) (by simp) (by simp) (by simp) (by simp)
  have hx : (s.issued e 1).macExact one sub d w = x := CoreSt.macExact_issue _ _ _ _ _ _ _
  have hno : ¬ (accOverflows ((s.issued e 1).macExact one sub d w) = true ∧ bitOf (s.issued e 1).stat 9 = true) := by
    rw [hx, CoreSt.issue_stat]
    exact fun ⟨hv, h9⟩ => ht ⟨h9, hv⟩
  rw [hb, ← hx]
  simp only [macOut, State.getCore_setCore, macRes_eq]
  exact if_neg hno

/-- Core `k` after a division has written quotient and remainder `r.1`, `r.2.1`, `r.2.2` in V and `zero` in DZ (R270, R271). -/
def CoreSt.setQuot (k : CoreSt) (d : Nat) (zero : Bool) (r : Word × Word × Bool) : CoreSt :=
  (((k.setAlu ⟨r.1, none, some r.2.2⟩).setStat 4 4 zero.toNat).setReg d r.1).setReg (d + 1) r.2.1

theorem CoreSt.setQuot_rp (k : CoreSt) (d : Nat) (zero : Bool) (r : Word × Word × Bool) : (k.setQuot d zero r).rp = k.rp := by
  show bitOf (putBits (k.setAlu ⟨r.1, none, some r.2.2⟩).stat 4 4 zero.toNat) 13 = _
  rw [bitOf_putBits_ne _ _ _ _ _ (by decide) (by decide)]
  exact k.setAlu_rp _

/-- A division of an even register that does not trap (R257, R272). -/
theorem felStep_div (e : Exe) (body : State → FelOut) (signed : Bool) (d w : Nat) {r : Word × Word × Bool} (s : State)
    (h : Runs s e 1) (hc : OnCore e) (hb : body (bodyState s e 1) = divOut e.who signed d w (bodyState s e 1))
    (hd : d % 2 = 0) (hz : ¬ ((s.getCore e.who).reg w = 0 ∧ bitOf (s.getCore e.who).stat 8 = true))
    (hr : divRes signed ((s.getCore e.who).reg d) ((s.getCore e.who).reg w) = r)
    (hv : ¬ (r.2.2 = true ∧ bitOf (s.getCore e.who).stat 9 = true)) :
    felStep e 1 true body s = .next (s.retire e 1 (fun k => k.setQuot d ((s.getCore e.who).reg w == 0) r)) := by
  subst hr
  refine felStep_retire e 1 true body _ s h (fun _ => hc) ?_ (by simp [CoreSt.setQuot]) (by simp [CoreSt.setQuot_rp])
    (by simp [CoreSt.setQuot]) (by simp [CoreSt.setQuot]) (by simp [CoreSt.setQuot])
  have hodd : ¬ d % 2 = 1 := by omega
  rw [hb]
  simp only [divOut, State.getCore_setCore, CoreSt.issue_reg, CoreSt.issue_stat, if_neg hodd, if_neg hz, if_neg hv]
  rfl

/-! ### The obligation -/

section
variable (e : Exe) (d w : Fin 16) (s : State) (h : Runs s e 1) (hc : OnCore e)
include h hc

/-- MUL writes the low word of the product, and V tells of a product that does not fit (R268). -/
theorem exec_mul : let p := ((s.getCore e.who).reg d).toInt * ((s.getCore e.who).reg w).toInt
    ¬ (bitOf (s.getCore e.who).stat 9 = true ∧ overflows p = true) →
      exec (.mul e d w) s = .next (s.retire e 1 (fun k =>
        (k.setAlu ⟨BitVec.ofInt 32 p, none, some (overflows p)⟩).setReg d (BitVec.ofInt 32 p))) := by
  intro p ht
  exact felStep_alu e 1 true _ d true ⟨BitVec.ofInt 32 p, none, some (overflows p)⟩ s h (fun _ => hc)
    (by simp [insR2, mulRes_eq, p]) (by simpa using ht)

/-- MULQ writes the rounded product, and V tells that it saturates (R268). -/
theorem exec_mulq : let q := (((s.getCore e.who).reg d).toInt * ((s.getCore e.who).reg w).toInt + 2 ^ 30) / 2 ^ 31
    ¬ (bitOf (s.getCore e.who).stat 9 = true ∧ decide (q = 2 ^ 31) = true) →
      exec (.mulq e d w) s = .next (s.retire e 1 (fun k =>
        (k.setAlu ⟨if q = 2 ^ 31 then 0x7FFFFFFF else BitVec.ofInt 32 q, none, some (decide (q = 2 ^ 31))⟩).setReg d
          (if q = 2 ^ 31 then 0x7FFFFFFF else BitVec.ofInt 32 q))) := by
  intro q ht
  refine felStep_alu e 1 true _ d true ⟨_, none, some (decide (q = 2 ^ 31))⟩ s h (fun _ => hc) ?_ (by simpa using ht)
  rw [← mulqRes_eq]
  simp [insR2]

/-- MULHS and MULHU write the high word of the product (R268). -/
theorem exec_mulhs : exec (.mulhs e d w) s = .next (s.retire e 1 (fun k =>
    let r := BitVec.ofInt 32 (((s.getCore e.who).reg d).toInt * ((s.getCore e.who).reg w).toInt / 2 ^ 32)
    (k.setAlu ⟨r, none, some false⟩).setReg d r)) :=
  felStep_alu e 1 true _ d false ⟨_, none, some false⟩ s h (fun _ => hc) (by simp [insR2, mulhRes_signed]) (by simp)
theorem exec_mulhu : exec (.mulhu e d w) s = .next (s.retire e 1 (fun k =>
    let r := BitVec.ofNat 32 (((s.getCore e.who).reg d).toNat * ((s.getCore e.who).reg w).toNat / 2 ^ 32)
    (k.setAlu ⟨r, none, some false⟩).setReg d r)) :=
  felStep_alu e 1 true _ d false ⟨_, none, some false⟩ s h (fun _ => hc) (by simp [insR2, mulhRes_unsigned]) (by simp)

variable (hd : d.val % 2 = 0) (hz : ¬ ((s.getCore e.who).reg w = 0 ∧ bitOf (s.getCore e.who).stat 8 = true))
  {r : Word × Word × Bool}
include hd hz

/-- DIV and DIVU of an even register write quotient and remainder (R270, R271). -/
theorem exec_div (hr : divRes true ((s.getCore e.who).reg d) ((s.getCore e.who).reg w) = r)
    (hv : ¬ (r.2.2 = true ∧ bitOf (s.getCore e.who).stat 9 = true)) :
    exec (.div e d w) s = .next (s.retire e 1 (fun k => k.setQuot d ((s.getCore e.who).reg w == 0) r)) :=
  felStep_div e _ true d w s h hc rfl hd hz hr hv
theorem exec_divu (hr : divRes false ((s.getCore e.who).reg d) ((s.getCore e.who).reg w) = r) (hv : r.2.2 = false) :
    exec (.divu e d w) s = .next (s.retire e 1 (fun k => k.setQuot d ((s.getCore e.who).reg w == 0) r)) :=
  felStep_div e _ false d w s h hc rfl hd hz hr (by simp [hv])

end

/-- Settles O9: each instruction writes the result of its exact arithmetic; a product reaches 2^31 of MULQ in one case, and a
quotient overflows in one. -/
theorem multiplyAndDivideResults : Obligations.MultiplyAndDivideResults := by
  unfold Obligations.MultiplyAndDivideResults
  refine ⟨fun e d w s => ?_, fun e d w s => ?_⟩
  · intro k a b p q fits writes big kept flags acc0 acc1 h hc
    exact ⟨exec_mul e d w s h hc, exec_mulhs e d w s h hc, exec_mulhu e d w s h hc, exec_mulq e d w s h hc,
      felStep_mac e _ false false d w s h hc rfl, felStep_mac e _ true false d w s h hc rfl,
      felStep_mac e _ false true d w s h hc rfl, felStep_mac e _ true true d w s h hc rfl⟩
  · intro k a b v writes h hc hd hz
    refine ⟨fun hv => ?_, ?_⟩
    · by_cases hb : b = 0
      · have hx := exec_div e d w s h hc hd hz (divRes_signed_zero a hb) nofun
        rwa [if_pos hb]
      · rw [if_neg hb]
        by_cases ho : v = true
        · have hx := exec_div e d w s h hc hd hz (divRes_overflow ho) (fun h9 => hv ⟨ho, h9.2⟩)
          rwa [if_pos ho]
        · have hx := exec_div e d w s h hc hd hz (divRes_signed hb ho) nofun
          rwa [if_neg ho]
    · by_cases hb : b = 0
      · have hx := exec_divu e d w s h hc hd hz (divRes_unsigned_zero a hb) rfl
        rwa [if_pos hb]
      · have hx := exec_divu e d w s h hc hd hz (divRes_unsigned a hb) rfl
        rwa [if_neg hb]

end Sys2Proof.Machine
end

section
/-!
SUPPORT. Exceptions of the Felrad cores (R284, R288, R291–R294): what the read of a vector-table entry answers, what an entry leaves
of STAT and of the banks, what a stop leaves, and what a return does.
-/
namespace Sys2Proof.Machine

/-! ### The vector table (R288) -/

namespace State
variable (s : State)

@[simp] theorem ssSet_getCore (x : Nat) (l : List Nat) (c : Who) : (s.ssSet x l).getCore c = s.getCore c := by cases c <;> rfl
@[simp] theorem ssSet_rd (x : Nat) (l : List Nat) (r : Nat) : (s.ssSet x l).rd r = s.rd r := rfl
@[simp] theorem ssSet_byteAt (x : Nat) (l : List Nat) (a : Nat) : (s.ssSet x l).byteAt a = s.byteAt a := rfl

variable {s}

/-- A core reads a word of a yard that it owns, where the word holds no poison. -/
theorem ydReadWord_owned {c : Who} {a : Nat} (hc : c ≠ .lamp) (ho : YardOwned s c a) (ha : a % 4 = 0) (hp : Clean s a 4) :
    s.ydReadWord (yardMaster c) a 0 = (s, some (BitVec.ofNat 32 (s.bytesAt a 4))) := by
  obtain ⟨-, hh, how, hm⟩ := ho.facts hc
  simp [ydReadWord, ydEnter_owner s _ a hh how, ydMeet_idle s _ a hm, s.eccRead_clean _ a ha hp]

/-- The address of the table entry of vector `v`. -/
def vectorAddr (s : State) (c : Who) (v : Nat) : Nat := (s.getCore c).vtb.toNat / 1024 * 1024 + 4 * v

/-- A vector-table entry in a yard of the core's own. -/
theorem vectorEntry_owned {c : Who} {v : Nat} (hc : c ≠ .lamp) (ho : YardOwned s c (s.vectorAddr c v))
    (ha : s.vectorAddr c v % 4 = 0) (hp : Clean s (s.vectorAddr c v) 4) :
    s.vectorEntry c v = (s, some (BitVec.ofNat 32 (s.bytesAt (s.vectorAddr c v) 4))) := by
  have hlt : ¬ 0x400000 ≤ s.vectorAddr c v := Nat.not_le.2 (ho.facts hc).1
  rw [← ydReadWord_owned hc ho ha hp]
  exact (if_neg hc).trans (if_neg hlt)

/-! ### Entry (R291) -/

/-- Bit by bit what an entry leaves of STAT. -/
theorem bitOf_entryStat (old : Word) (pl : Nat) (df : Bool) (j : Nat) : bitOf (entryStat old pl df) j =
    if j = 15 then df else if 8 ≤ j ∧ j ≤ 10 then false else if 11 ≤ j ∧ j ≤ 12 then pl.testBit (j - 11)
    else if 13 ≤ j ∧ j ≤ 14 then false else if 16 ≤ j ∧ j ≤ 31 then false else bitOf old j := by
  unfold entryStat
  by_cases h15 : j = 15
  · rw [if_pos h15, h15, bitOf_setBit _ _ _ (by decide)]
  · rw [if_neg h15, bitOf_setBit_ne _ _ _ _ (by decide) h15]
    unfold bitOf
    rw [getLsbD_putBits _ _ _ _ _ (by decide), getLsbD_putBits _ _ _ _ _ (by decide), getLsbD_putBits _ _ _ _ _ (by decide),
      getLsbD_putBits _ _ _ _ _ (by decide)]
    simp only [Nat.zero_testBit]

theorem bitsOf_entryStat_rc (old : Word) (pl : Nat) (df : Bool) : bitsOf (entryStat old pl df) 31 16 = 0 := by
  unfold entryStat
  rw [bitsOf_setBit_ne _ _ _ _ _ (by decide) (by decide), bitsOf_putBits_ne _ _ _ _ _ _ (by decide) (by decide),
    bitsOf_putBits_ne _ _ _ _ _ _ (by decide) (by decide), bitsOf_putBits_ne _ _ _ _ _ _ (by decide) (by decide)]
  exact bitsOf_putBits _ 31 16 0 (by decide)

theorem bitsOf_entryStat_pl (old : Word) {pl : Nat} (df : Bool) (h : pl < 4) : bitsOf (entryStat old pl df) 12 11 = pl := by
  unfold entryStat
  rw [bitsOf_setBit_ne _ _ _ _ _ (by decide) (by decide), bitsOf_putBits_ne _ _ _ _ _ _ (by decide) (by decide),
    bitsOf_putBits _ _ _ _ (by decide)]
  exact Nat.mod_eq_of_lt h

end State

/-- The entry word, with bit 30 set where the exception comes in bank 3 (R292, R293). -/
theorem entryWord_of_bank (sync : Bool) (bk cause v : Nat) : State.entryWord sync (decide (bk = 3)) bk cause v =
    BitVec.ofNat 32 (sync.toNat * 2 ^ 31 + (if bk = 3 then 2 ^ 30 else 0) + bk * 2 ^ 24 + cause * 2 ^ 16 + v) := by
  by_cases h : bk = 3 <;> simp [State.entryWord, h]

namespace CoreSt
variable (k : CoreSt)

/-- The vector of the table entry: a second exception in bank 3 takes vector 1 (R293). -/
def entryVector (v : Nat) : Nat := if k.bk = 3 then 1 else v

/-- The level of an entry (R292). -/
def entryLevel (v : Nat) (ent : Word) : Nat := if v < 32 ∨ k.bk = 3 ∨ bitOf ent 24 = true then 2 else 1

/-- The bank that an exception of vector `v` enters, as it leaves it. -/
def entryBank (sync : Bool) (v xpc : Nat) (fa : Word) : Bank :=
  { k.bank (k.bk + 1) with
    w := Sparse.set (fun _ => 0) (Sparse.set (fun _ => 0) (k.bank (k.bk + 1)).w 0
      (State.entryWord sync (decide (k.bk = 3)) k.bk v (k.entryVector v))) 1 fa
    xpc := BitVec.ofNat 32 (xpc % 2 ^ 24)
    xst := k.stat }

/-- The core after it has taken an exception of vector `v` through the table entry `ent`. -/
def entered (sync : Bool) (v xpc : Nat) (fa ent : Word) : CoreSt :=
  { k.setBank (k.bk + 1) (k.entryBank sync v xpc fa) with
    resv := none, stat := State.entryStat k.stat (k.entryLevel (k.entryVector v) ent) (decide (k.bk = 3)), bk := k.bk + 1
    pc := bitsOf ent 23 0, wait := .none, hwSince := none, noPoint := false }

variable (sync : Bool) (v xpc : Nat) (fa ent : Word)

theorem entered_bank : (k.entered sync v xpc fa ent).bank (k.bk + 1) = k.entryBank sync v xpc fa :=
  k.bank_setBank (k.bk + 1) _

/-- The other banks keep their registers. -/
theorem entered_wreg_ne {b : Nat} (n : Nat) (hb : b ≠ k.bk + 1) : (k.entered sync v xpc fa ent).wreg b n = k.wreg b n :=
  congrArg (fun x : Bank => Sparse.get (fun _ => 0) x.w n) (k.bank_setBank_ne (k.bk + 1) b _ hb)

theorem entered_reg (n : Nat) :
    (k.entered sync v xpc fa ent).reg n = Sparse.get (fun _ => 0) (k.entryBank sync v xpc fa).w n := by
  rw [← entered_bank k sync v xpc fa ent]
  rfl

/-- Work register 0 holds the entry word, 1 the fault address; the others stay. -/
theorem entered_reg_zero : (k.entered sync v xpc fa ent).reg 0 =
    State.entryWord sync (decide (k.bk = 3)) k.bk v (k.entryVector v) := by
  rw [entered_reg, entryBank, Sparse.get_set_ne _ _ _ _ _ (by decide), Sparse.get_set_self]
theorem entered_reg_one : (k.entered sync v xpc fa ent).reg 1 = fa := by rw [entered_reg, entryBank, Sparse.get_set_self]
theorem entered_reg_of_two_le {n : Nat} (hn : 2 ≤ n) : (k.entered sync v xpc fa ent).reg n = k.wreg (k.bk + 1) n := by
  rw [entered_reg, entryBank, Sparse.get_set_ne _ _ _ _ _ (by omega), Sparse.get_set_ne _ _ _ _ _ (by omega)]
  rfl

/-- Bit by bit what an entry leaves of STAT. -/
theorem entered_statBit (j : Nat) : bitOf (k.entered sync v xpc fa ent).stat j =
    if j = 15 then decide (k.bk = 3) else if 8 ≤ j ∧ j ≤ 10 then false
    else if 11 ≤ j ∧ j ≤ 12 then (k.entryLevel (k.entryVector v) ent).testBit (j - 11)
    else if 13 ≤ j ∧ j ≤ 14 then false else if 16 ≤ j ∧ j ≤ 31 then false else bitOf k.stat j := State.bitOf_entryStat _ _ _ j

/-- The flags and the bits beside them stay. -/
theorem entered_flags {j : Nat} (hj : j ≤ 7) : bitOf (k.entered sync v xpc fa ent).stat j = bitOf k.stat j := by
  rw [entered_statBit, if_neg (by omega), if_neg (by omega), if_neg (by omega), if_neg (by omega), if_neg (by omega)]

theorem entered_rc : (k.entered sync v xpc fa ent).rc = 0 := State.bitsOf_entryStat_rc _ _ _

theorem entered_pl : (k.entered sync v xpc fa ent).pl = k.entryLevel (k.entryVector v) ent := by
  refine State.bitsOf_entryStat_pl _ _ ?_
  unfold entryLevel
  split <;> decide

end CoreSt

/-- A core below bank 4 enters an exception whose table entry it reads (R291). -/
theorem State.enter_below {s : State} {c : Who} (sync : Bool) {v : Nat} (xpc : Nat) (fa : Word) {ent : Word} (hc : c ≠ .lamp)
    (hbk : (s.getCore c).bk ≤ 3) (hent : s.vectorEntry c ((s.getCore c).entryVector v) = (s, some ent)) :
    s.enter c sync v xpc fa =
      (s.setCore c ((s.getCore c).entered sync v xpc fa ent)).ssSet (s.ssOf c ((s.getCore c).bk + 1)) [] := by
  have htop : ¬ 4 ≤ (s.getCore c).bk := by omega
  have hdf : ((s.getCore c).bk + 1 == 4) = decide ((s.getCore c).bk = 3) := by
    rw [Bool.eq_iff_iff, beq_iff_eq, decide_eq_true_eq]
    omega
  rw [CoreSt.entryVector] at hent
  simp only [State.enter, hc, if_false, htop, hent, State.setCore_ssOf, false_or, hdf, decide_eq_true_eq]
  rfl

/-! ### The stop in bank 4 (R293) -/

namespace State
variable (s : State)

@[simp] theorem raiseC_getCore (id inst : Nat) (c : Who) : (s.raiseC id inst).getCore c = s.getCore c := by cases c <;> rfl

/-- A flag of TD_STAT other than the mode leaves the processors. -/
theorem setFlag_tdStat_getCore {b : Nat} (v : Bool) (c : Who) (hb : b < 31) : (s.setFlag A.TD_STAT b v).getCore c = s.getCore c := by
  have hu : (s.setFlag A.TD_STAT b v).unhitched = s.unhitched := by
    rw [unhitched, flag, rd_setFlag, if_pos rfl, bitOf_setBit_ne _ _ _ _ (by omega) (by omega)]
    rfl
  cases c with
  | a => rfl
  | lamp => rfl
  | b =>
    rw [getCore, hu]
    rfl

variable {s}

/-- Unhitched, a core in bank 4 stops. -/
theorem enter_stops {c : Who} (sync : Bool) (v xpc : Nat) (fa : Word) (hc : c ≠ .lamp) (hbk : 4 ≤ (s.getCore c).bk)
    (hu : s.unhitched = true) : ((s.enter c sync v xpc fa).getCore c).run = false := by
  have hstop : s.enter c sync v xpc fa = s.stopCore c := by
    simp only [enter, hc, if_false, hbk, if_true]
  have hbit : (if c = .b then 24 else 25) < 31 := by split <;> decide
  rw [hstop, stopCore]
  simp only [hu, if_true, setFlag_tdStat_getCore _ _ _ hbit, raiseC_getCore, getCore_setCore]

end State

/-! ### Returns (R284) -/

namespace CoreSt
variable (k : CoreSt)

@[simp] theorem issue_bank (a n b : Nat) : (k.issue a n).bank b = k.bank b := by simp [bank]
@[simp] theorem issue_pl (a n : Nat) : (k.issue a n).pl = k.pl := by simp [pl]
@[simp] theorem issue_loopBuf (a n : Nat) : (k.issue a n).loopBuf = k.loopBuf := by rw [issue_eq]

/-- The core after a return; a loop that goes on has its body `loop` in the loop buffer again (R252). -/
def returned (loop : Option (Nat × List Syl)) : CoreSt :=
  { k with stat := (k.bank k.bk).xst, bk := k.bk - 1, resv := none
           loopBuf := if bitOf (k.bank k.bk).xst 14 then loop else k.loopBuf }

theorem Goes.returned {k : CoreSt} (h : k.Goes) (loop : Option (Nat × List Syl)) : (k.returned loop).Goes :=
  ⟨h.run, h.loads, h.hwSince⟩

end CoreSt

section
variable {s : State} {c : Who}

/-- A return at U takes vector 5, from bank 0 vector 1, and to a higher level vector 3. -/
theorem insRetx_user (h : (s.getCore c).pl = 0) : insRetx c s = .trap s 5 0 := if_pos h
theorem insRetx_bank_zero (hp : (s.getCore c).pl ≠ 0) (h : (s.getCore c).bk = 0) : insRetx c s = .trap s 1 0 :=
  (if_neg hp).trans (if_pos h)
theorem insRetx_higher (hp : (s.getCore c).pl ≠ 0) (hb : (s.getCore c).bk ≠ 0)
    (h : (s.getCore c).pl < bitsOf ((s.getCore c).bank (s.getCore c).bk).xst 12 11) :
    insRetx c s = .trap s 3 ((s.getCore c).bank (s.getCore c).bk).xst :=
  ((if_neg hp).trans (if_neg hb)).trans (if_pos h)

/-- A core with no load under way returns from its bank. -/
theorem insRetx_returns (hc : c ≠ .lamp) (hp : (s.getCore c).pl ≠ 0) (hb : (s.getCore c).bk ≠ 0)
    (h : bitsOf ((s.getCore c).bank (s.getCore c).bk).xst 12 11 ≤ (s.getCore c).pl) (hl : (s.getCore c).loads = []) :
    insRetx c s = .jump (s.setCore c ((s.getCore c).returned (s.loopLoad c (s.getCore c))))
      (bitsOf ((s.getCore c).bank (s.getCore c).bk).xpc 23 0) := by
  have hd : (s.getCore c).dataOut = false := by simp [CoreSt.dataOut, hl]
  have hlt : ¬ (s.getCore c).pl < bitsOf ((s.getCore c).bank (s.getCore c).bk).xst 12 11 := by omega
  simp only [insRetx, if_neg hp, if_neg hb, if_neg hlt, hd, if_neg hc, CoreSt.settle_nil _ hl, Bool.false_eq_true, if_false]
  rfl

end

/-- A return of a core to its own level or a lower one (R284). -/
theorem exec_retx (e : Exe) (s : State) (h : Runs s e 1) (hc : OnCore e) (hp : (s.getCore e.who).pl ≠ 0)
    (hb : (s.getCore e.who).bk ≠ 0)
    (hle : bitsOf ((s.getCore e.who).bank (s.getCore e.who).bk).xst 12 11 ≤ (s.getCore e.who).pl) :
    exec (.retx e) s = .next (s.setCore e.who
      { (s.issued e 1).returned ((bodyState s e 1).loopLoad e.who (s.issued e 1)) with
          pc := bitsOf ((s.getCore e.who).bank (s.getCore e.who).bk).xpc 23 0 }) := by
  have hbody := insRetx_returns (s := bodyState s e 1) hc (by simpa using hp) (by simpa using hb) (by simpa using hle)
    h.goes_bodyState.loads
  have hg := h.goes_bodyState.returned ((bodyState s e 1).loopLoad e.who ((bodyState s e 1).getCore e.who))
  refine (felStep_jump e 1 false (insRetx e.who) s _ _ h nofun hbody (by simpa only [State.getCore_setCore] using hg)).trans ?_
  rw [Nat.mod_eq_of_lt (bitsOf_lt _ 23 0)]
  simp

/-! ### The obligation -/

/-- Settles O19: an entry is read from the table without a change of the state, and the core then differs as `CoreSt.entered` says;
a return differs as `CoreSt.returned` says. -/
theorem exceptionEntryAndReturn : Obligations.ExceptionEntryAndReturn := by
  unfold Obligations.ExceptionEntryAndReturn
  refine ⟨fun c sync v xpc fa s hc => ⟨fun hbk _ ho ha hp => ?_, State.enter_stops sync v xpc fa hc⟩, fun e s h hc => ⟨?_, ?_, ?_, ?_⟩⟩
  · have hent := State.vectorEntry_owned (v := (s.getCore c).entryVector v) hc ho ha hp
    rw [State.enter_below sync xpc fa hc hbk hent]
    simp only [State.ssSet_getCore, State.getCore_setCore]
    refine ⟨rfl, rfl, (CoreSt.entered_reg_zero ..).trans (entryWord_of_bank ..), CoreSt.entered_reg_one .., ?_, ?_,
      CoreSt.entered_rc .., CoreSt.entered_statBit (j := 13) .., CoreSt.entered_statBit (j := 14) ..,
      CoreSt.entered_statBit (j := 10) .., CoreSt.entered_statBit (j := 9) .., CoreSt.entered_statBit (j := 8) ..,
      CoreSt.entered_statBit (j := 15) .., CoreSt.entered_pl .., fun j hj => CoreSt.entered_flags (hj := hj) .., rfl,
      fun b n hb => CoreSt.entered_wreg_ne (hb := hb) .., fun n hn => CoreSt.entered_reg_of_two_le (hn := hn) .., rfl, rfl, rfl,
      fun y => ?_, fun r => ?_⟩
    · exact congrArg Bank.xpc (CoreSt.entered_bank ..)
    · exact congrArg Bank.xst (CoreSt.entered_bank ..)
    · rw [State.ssSet_byteAt, State.setCore_byteAt]
    · rw [State.ssSet_rd, State.setCore_rd]
  · exact fun hu => felStep_except e 1 false _ s 5 0 h nofun (insRetx_user (by simpa using hu))
  · exact fun hp hb => felStep_except e 1 false _ s 1 0 h nofun (insRetx_bank_zero (by simpa using hp) (by simpa using hb))
  · intro hp hb hlt
    have hbody := insRetx_higher (s := bodyState s e 1) (c := e.who) (by simpa using hp) (by simpa using hb) (by simpa using hlt)
    exact felStep_except e 1 false _ s 3 _ h nofun (by simpa using hbody)
  · intro hp hb hle
    have hx := exec_retx e s h hc hp hb hle
    simpa [CoreSt.returned] using hx

end Sys2Proof.Machine
end
